-- ==== Sys2Proof/Word.lean ====
section
/-! DEFINITION.
The plainest data of the model: the 64-bit register word, the byte, and the type of a sparse map.
The operations over them stand in Machine/Ops.lean. -/

namespace Sys2Proof

/-- One 64-bit register (R507). -/
abbrev Word := BitVec 64

/-- One byte of a scratchpad, of a memory tier or of a payload. -/
abbrev Byte := BitVec 8

/-- A sparse array with Nat keys: a list of key and value pairs, keys rising, no entry equal to
what an unlisted key reads as (`SMap.get`, `SMap.put` in Machine/Ops.lean). -/
abbrev SMap (α : Type) := List (Nat × α)

end Sys2Proof
end

