-- ==== Sys2Proof/Syntax.lean ====
section
/-! DEFINITION.
The commands of spec/opcode_table.json, one constructor per row, and the values they carry from
outside the device. A command that acts on something the device already holds (a message in an
inbox, a token in a queue) carries only the names of the units; what comes from the world (light,
voltages, packets of a partner, error-correction upsets) is an operand. -/

namespace Sys2Proof

/-- The three static networks (R20). -/
inductive Net where
  | vec
  | sca
  | ctl
  deriving DecidableEq, Repr

/-- One upset word of a SEC-DED protected array met by an access (R41, R60, R124, R159, R216):
the address of the word in the array's own numbering, and whether two of its bits are wrong. -/
structure Upset where
  addr : Nat
  dbl : Bool
  deriving DecidableEq, Repr

/-- One requester's access of one scratchpad line (R30, R36): the requester's number; which of its kind
it is (1: a port of R183, from 38 on a launch port; 2: a message port record, 8 a list read; 9: a loop nest); for the write of a message
its sender's context; the byte offset; and for a write the bytes with their masks (byte in the line,
value, mask). -/
structure BankReq where
  who : Nat
  sub : Nat := 0
  ctx : Option (Fin 8) := none
  addr : Nat
  store : Option (List (Nat × Byte × Byte))
  deriving DecidableEq, Repr

/-- A transfer written to the sideband (R524): the command code and the bytes after it. The PEC that an SMBus transfer
ends with is an operand of its own. -/
structure SbXfer where
  code : Nat
  data : List Byte
  deriving DecidableEq, Repr

/-- Codewords that the FEC of a port has corrected, and that it could not correct (R522). -/
structure Codewords where
  corr : Nat := 0
  unc : Nat := 0
  deriving DecidableEq, Repr

/-- Who waits at a handle queue (R53): a loop nest's operand, a launch port, a message record. -/
inductive Popper where
  | nest (n : Fin 8)
  | launch (p : Fin 4)
  | record (r : Fin 8)
  deriving DecidableEq, Repr

/-- What the management die measures for an accounting update (R333), in µJ since the context's last one: the energy
of half-die regulators, its active and its idle share, and of HBM stacks. -/
structure AcctSample where
  halves : List (Fin 40 × Nat × Nat)
  hbmUse : List (Fin 20 × Nat)
  deriving DecidableEq, Repr

/-- What enumeration finds on a CXL link (R416, R417): whether the device meets R416, its capacity in
GB, its CDAT read latency in ns, and 64 GT/s. -/
structure CxlDevice where
  conforms : Bool
  cap : Nat
  lat : Nat
  fast : Bool
  deriving DecidableEq, Repr
/-- A partner's hello record (R428). `res`: a reserved bit is set. -/
structure HelloRec where
  vmin : Nat
  vmax : Nat
  kind : Nat
  port : Nat
  cap : Nat
  buf0 : Nat
  buf1 : Nat
  id : BitVec 128
  agreed : Nat
  res : Bool
  deriving DecidableEq, Repr

/-- A control block as received (R425). `valid`: its marker and its CRC hold. -/
structure CtlBlock where
  valid : Bool
  ackSeq : Nat
  nakSeq : Nat
  cred0 : Nat
  cred1 : Nat
  lstate : Nat
  nak : Bool
  down : Bool
  deriving DecidableEq, Repr

/-- A packet on a Laniem link (R431), its TYPE apart. `res`: a reserved bit of the header is set;
`extra`: the header's bytes 24 to 27, which CFG_RESP uses (R446). -/
structure LnmPkt where
  tctx : Nat := 0
  ackreq : Bool := false
  first : Bool := false
  last : Bool := false
  tkind : Nat := 0
  bytes : Nat := 0
  res : Bool := false
  tag : Nat := 0
  target : Word := 0
  status : Nat := 0
  pkt : Nat := 0
  extra : Nat := 0
  payload : List Byte := []
  deriving DecidableEq, Repr

/-- A packet that PACKET_DROP brings: whether its CRC holds, its TYPE, and the rest (R431 to R433). -/
structure Arrived where
  crcOk : Bool
  typ : BitVec 8
  pkt : LnmPkt
  deriving DecidableEq, Repr

/-- The end of a port's equalisation, and the swing step that the partner asks for (R427). -/
structure EqEnd where
  port : Fin 8
  step : BitVec 4
  deriving DecidableEq, Repr

/-- A refresh rate, 0 1×, 1 2×, 2 4×, and the temperature in °C that requires it (R413, R414, R420). -/
structure RefreshNeed where
  rate : Nat
  temp : BitVec 8
  deriving DecidableEq, Repr

/-- A 10 µs sample of the power input and of the half regulators (R470, R471, R536): voltage in
0.01 V, current in 0.1 A, power in W; power and current averaged over 1 ms; energy charged to no
context in µJ; per half its rail power in 0.01 W and energy in µJ. -/
structure PowerSample where
  vin : Nat
  iin : Nat
  pin : Nat
  pavg : Nat
  iavg : Nat
  eovh : Nat
  halves : List (Fin 40 × Nat × Nat)
  deriving DecidableEq, Repr
/-- What a boot meets (R66, R413, R415, R482 to R488, R529): the straps as sampled, the SPI NOR image
where `MGT_FLASH` has written none, digests the firmware extends into slots 4 to 11, whether the
copies of the retained store fail their CRC, and what trains: stacks; channels with the module size
in GB and speed bin (1 4800, 2 5600, 3 6400), and whether training succeeds. Of an exit from D-idle: the members
whose self-refresh exit fails, 0 to 19 stacks, 20 to 35 channels (R410). -/
structure BootWorld where
  cstrap : Bool := false
  sbsel : Bool := false
  sbaddr : Fin 8 := 0
  image : List Byte := []
  measured : List (Fin 16 × BitVec 256) := []
  badA : Bool := false
  badB : Bool := false
  hbm : List (Fin 20) := []
  ddr : List (Fin 16 × Nat × Nat × Bool) := []
  srFail : List (Fin 36) := []
  /-- ns for which PWREN, RST_N and the reference clocks of R533 have held (R537) -/
  steady : Nat := 1000000
  deriving DecidableEq, Repr


/-- The commands of the device (spec/opcode_table.json). `t` names a tile by TID, `n` a loop nest of
the live plane, `c` a context, `p` a port, `u` a unit or steering unit. -/
inductive Instr where
  /-- SCRATCHPAD_ACCESS (R30): A requester's access of one line in one scratchpad bank in a tile
  cycle, served by the arbitration of R36 in stall mode or checked by R37 in fault mode. -/
  | scratchpadAccess (t : Nat) (reqs : List BankReq) (ecc : List Upset)
  /-- BANK_FILL_DONE (R40): The 1,024-cycle zero fill of a newly enabled bank completes, so the
  recast token can pass the tile. -/
  | bankFillDone (t : Nat)
  /-- WINDOW_ENTRY_WRITE (R43): A management write to a TSP_WIN entry, checked against the
  scratchpad end and the enabled banks. -/
  | windowEntryWrite (t : Nat) (win : Fin 16) (v : Word)
  /-- WRITE (R44): A WRITE message reaches a tile window; it is checked, committed and answered by
  ACK, and it increments the window counter once after its last byte commits. -/
  | write (t : Nat)
  /-- HPUSH (R52): An HPUSH message pushes one handle onto a tile's handle queue after the bounds
  and occupancy checks. -/
  | hpush (t : Nat)
  /-- HANDLE_POP (R53): A waiting pop takes the head handle once a handle is present in the queue. -/
  | handlePop (t : Nat) (who : Popper)
  /-- MMA (R103): A nest iteration fires an MMA descriptor step, after the slot, bounds and format
  checks. -/
  | mma (t : Nat) (n : Fin 8)
  /-- MMA_STEP_READ (R109): The operand reads of the next step begin once the previous reads are
  complete and an operand buffer is free. -/
  | mmaStepRead (t : Nat)
  /-- MMA_ARRAY_STEP (R109): The array cycles of a step begin once its reads and the previous
  step's array cycles are complete. -/
  | mmaArrayStep (t : Nat)
  /-- BLOCK_COMBINE (R96): The block values of a row are combined into the running pairs and
  complete in the fourth cycle. -/
  | blockCombine (t : Nat) (ecc : List Upset)
  /-- MMA_DRAIN (R121): After the slot's last combine, the drain converts the slot and writes it
  to the output tile. -/
  | mmaDrain (t : Nat) (ecc : List Upset)
  /-- STATE_RECORD_DRAIN (R122): With STATE_OUT = 1, the drain writes state records in place of
  output elements. -/
  | stateRecordDrain (t : Nat) (ecc : List Upset)
  /-- ADD (R139): A vector firing that writes s1 + s2. -/
  | add (t : Nat) (n : Fin 8)
  /-- SUB (R139): A vector firing that writes s1 − s2. -/
  | sub (t : Nat) (n : Fin 8)
  /-- MUL (R139): A vector firing that writes s1 × s2. -/
  | mul (t : Nat) (n : Fin 8)
  /-- FMA (R139): A vector firing that writes s1 × s2 + s3, rounded once. -/
  | fma (t : Nat) (n : Fin 8)
  /-- FNMA (R139): A vector firing that writes −(s1 × s2) + s3, rounded once. -/
  | fnma (t : Nat) (n : Fin 8)
  /-- MIN (R139): A vector firing that writes min(s1, s2) by R94. -/
  | min (t : Nat) (n : Fin 8)
  /-- MAX (R139): A vector firing that writes max(s1, s2) by R94. -/
  | max (t : Nat) (n : Fin 8)
  /-- CMP (R141): A vector firing that writes 1 or +0 by the predicate PRED. -/
  | cmp (t : Nat) (n : Fin 8)
  /-- SEL (R139): A vector firing that selects s1 or s2 by s3. -/
  | sel (t : Nat) (n : Fin 8)
  /-- ABS (R139): A vector firing that writes |s1|. -/
  | abs (t : Nat) (n : Fin 8)
  /-- NEG (R139): A vector firing that writes −s1. -/
  | neg (t : Nat) (n : Fin 8)
  /-- CVT (R139): A vector firing that converts s1 to the destination format, MX blocks included. -/
  | cvt (t : Nat) (n : Fin 8)
  /-- CURVE (R151): A vector firing that evaluates a curve table on s1. -/
  | curve (t : Nat) (n : Fin 8)
  /-- DACT (R142): A vector firing that writes s2 × f′(s1) for the derivative kind named by PRED. -/
  | dact (t : Nat) (n : Fin 8)
  /-- SETVL (R144): A vector firing that takes a scalar word and sets a nest's length register. -/
  | setvl (t : Nat) (n : Fin 8)
  /-- VECTOR_GROUP_READ (R154): The next element group of a vector firing starts its reads once
  the previous group's reads are complete. -/
  | vectorGroupRead (t : Nat)
  /-- VECTOR_GROUP_WRITE (R154): A group's results, and any MX block it completes, are written λ
  cycles after its reads. -/
  | vectorGroupWrite (t : Nat)
  /-- SUM (R148): The reduction unit emits the canonical sum of a firing on the scalar output. -/
  | sum (t : Nat)
  /-- REDOP_MAX (R147): The reduction unit emits the maximum of a firing. -/
  | redopMax (t : Nat)
  /-- REDOP_MIN (R147): The reduction unit emits the minimum of a firing. -/
  | redopMin (t : Nat)
  /-- ARGMAX (R147): The reduction unit emits the maximum and its lowest index. -/
  | argmax (t : Nat)
  /-- LN_FWD (R156): A row firing that layer-normalises a row forward and records its statistics
  in side memory. -/
  | lnFwd (t : Nat) (n : Fin 8)
  /-- RMS_FWD (R156): A row firing that RMS-normalises a row forward and records its statistics. -/
  | rmsFwd (t : Nat) (n : Fin 8)
  /-- SMAX_FWD (R156): A row firing that takes the soft-maximum of a row forward and records its
  statistics. -/
  | smaxFwd (t : Nat) (n : Fin 8)
  /-- LN_BWD (R156): A row firing that computes the layer-norm input gradient from the recorded
  statistics. -/
  | lnBwd (t : Nat) (n : Fin 8) (ecc : List Upset)
  /-- RMS_BWD (R156): A row firing that computes the RMS-norm input gradient. -/
  | rmsBwd (t : Nat) (n : Fin 8) (ecc : List Upset)
  /-- SMAX_BWD (R156): A row firing that computes the soft-maximum input gradient. -/
  | smaxBwd (t : Nat) (n : Fin 8) (ecc : List Upset)
  /-- SWITCH_TOKEN_MOVE (R172): A static token leaves a switch input for every output that names
  it once all of them can accept; a head token is charged its residence here. -/
  | switchTokenMove (t : Nat) (net : Net) (input : Nat)
  /-- LINK_CROSSING (R190): A token completes a link crossing into the receiving input; a head
  token is charged the crossing bound. -/
  | linkCrossing (t : Nat) (net : Net) (dir : Fin 4)
  /-- LANDING_HEAD_TOKEN (R322): A head token reaches a landing port and becomes the slot record
  of its SLOT. -/
  | landingHeadToken (t : Nat) (ld : Fin 4)
  /-- LANDING_DATA_TOKEN (R180): A landing port writes a data token into its ring and increments
  CNT, and LCNT for a LAST token. -/
  | landingDataToken (t : Nat) (ld : Fin 4)
  /-- LAUNCH_HANDLE_POP (R182): A launch port pops a handle and sends a head token whose budget is
  the join minimum of R323. -/
  | launchHandlePop (t : Nat) (la : Fin 4)
  /-- LAUNCH_DATA_TOKEN (R182): A launch port sends the next line of its handle as a data token
  when its switch input has room. -/
  | launchDataToken (t : Nat) (la : Fin 4)
  /-- ENTRY_ISSUE (R320): An entry launch port issues the head token of a request with the issue
  budget computed in the cycle it can leave. -/
  | entryIssue (t : Nat) (la : Fin 4)
  /-- DELAY_QUEUE_MOVE (R185): The head of a delay queue moves into the FIFO two cycles after an
  entry frees. -/
  | delayQueueMove (t : Nat) (port : Nat)
  /-- PROGRESS (R189): A fabric progress watch reaches its limit on a stalled port. -/
  | progress (t : Nat) (port : Nat)
  /-- PACKET_ROUTE (R193): A router grants a packet its output round-robin and passes it on, or
  holds a request at a mould fence. -/
  | packetRoute (node : Nat) (out : Nat) (ecc : List Upset)
  /-- PASS (R196): A steering firing that passes the D0 head to Q0. -/
  | pass (t : Nat) (u : Fin 2)
  /-- ROUTE (R196): A steering firing that sends the D0 head to Q0 or Q1 by the condition. -/
  | route (t : Nat) (u : Fin 2)
  /-- MERGE (R196): A steering firing that takes the condition and then the head of D(c) to Q0. -/
  | merge (t : Nat) (u : Fin 2)
  /-- FILTER (R196): A steering firing that passes or discards the D0 head by the condition. -/
  | filter (t : Nat) (u : Fin 2)
  /-- EMIT (R196): A steering firing that emits a control token. -/
  | emit (t : Nat) (u : Fin 2)
  /-- TAKEC (R196): A steering firing that takes a condition to choose its next state. -/
  | takec (t : Nat) (u : Fin 2)
  /-- PLANE_SWITCH (R202): A step's dwell expires and the tile spends one switch cycle moving to
  the next plane. -/
  | planeSwitch (t : Nat) (ecc : List Upset)
  /-- BOUNDARY_COLLECT (R343): A tile collects a BOUNDARY marker, swaps its pending window pairs
  and sends the marker on. -/
  | boundaryCollect (t : Nat)
  /-- BOUNDARY_INJECT (R344): An origin injects a BOUNDARY marker after a commit, or after a
  sequence closes, once no sequence is open. -/
  | boundaryInject (t : Nat)
  /-- RECAST_INJECT (R296): An origin injects a RECAST marker once no launch port has an open
  sequence. -/
  | recastInject (t : Nat)
  /-- RECAST_PASS (R297): A tile passes the RECAST marker once its conditions hold, sends it on
  and exchanges its sets in the next cycle. -/
  | recastPass (t : Nat)
  /-- DIRECT_SEND (R222): A DIRECT record pops a handle and sends one WRITE, with the exit budget
  written in when it is a slot's exit. -/
  | directSend (t : Nat) (r : Fin 8)
  /-- CHANNEL_SEND (R226): A SEND record with enough credit sends the head handle's message, with
  a pad record when it wraps. -/
  | channelSend (t : Nat) (r : Fin 8)
  /-- FENCED_SEND (R221): A FENCED counter operation leaves once earlier WRITEs to its fence unit
  are acknowledged. -/
  | fencedSend (t : Nat)
  /-- FROZEN_RESEND (R219): An operation answered FROZEN is resent after 1,024 tile cycles. -/
  | frozenResend (t : Nat) (tag : Nat)
  /-- PAD (R225): A PAD message writes a pad record header into a ring. -/
  | pad (t : Nat)
  /-- ACK (R218): An ACK completes a WRITE at its sender, or reports the refusal of an operation. -/
  | ack (u : Nat)
  /-- CINC (R233): A CINC message adds AMT to a counter, under epoch and grant rules, and releases
  satisfied waiters. -/
  | cinc (t : Nat)
  /-- CDEC (R233): A CDEC message subtracts AMT from a counter. -/
  | cdec (t : Nat)
  /-- CLAIM (R235): A CLAIM message fetches and adds at the home counter and is answered by CRESP. -/
  | claim (t : Nat)
  /-- CRESP (R235): The requester writes a claim result into its return window and increments
  RCNT. -/
  | cresp (t : Nat)
  /-- CWAIT (R236): A CWAIT registers a waiter record, released at once if the threshold is met. -/
  | cwait (t : Nat)
  /-- CREL (R236): The requester acts on a release: it increments RCNT and may place a STATUS
  token. -/
  | crel (t : Nat)
  /-- CRESET (R233): A CRESET message returns a counter to its base. -/
  | creset (t : Nat)
  /-- CH_OPEN (R224): A receiving tile binds a RING window to a sender's channel and answers it. -/
  | chOpen (t : Nat)
  /-- CH_OPENR (R223): A SEND record takes the answer to its open. -/
  | chOpenr (t : Nat)
  /-- CH_GRANT (R231): A grant of credit lines reaches a SEND record, a mover or a port engine. -/
  | chGrant (u : Nat)
  /-- CH_RETURN (R227): Ring space is returned, which advances RPTR and restores credit. -/
  | chReturn (t : Nat)
  /-- CH_CLOSE (R230): A CH_CLOSE unbinds a RECV record and is answered. -/
  | chClose (t : Nat)
  /-- CH_CLOSER (R223): A closing SEND record takes the answer and becomes CLOSED. -/
  | chCloser (t : Nat)
  /-- CHANNEL_PROGRESS (R229): A SEND or DIRECT record's progress watch reaches WLIMIT × 1,024 and
  raises PROGRESS. -/
  | channelProgress (t : Nat) (r : Fin 8)
  /-- HAND_SET (R242): A management write with HSET = 1 sets a counter's VALUE and tests its
  waiters. -/
  | handSet (t : Nat) (c : Fin 16) (v : Word)
  /-- COUNTER_FLAG_CLEAR (R242): A counter register write with HSET = 0 clears the saturation
  flags only. -/
  | counterFlagClear (t : Nat) (c : Fin 16) (v : Word)
  /-- CHCMD_OPEN (R224): TSC_CHCMD gives an open command to a record. -/
  | chcmdOpen (t : Nat) (r : Fin 8)
  /-- CHCMD_CLOSE (R223): TSC_CHCMD gives a close command to a record. -/
  | chcmdClose (t : Nat) (r : Fin 8)
  /-- ACTION_NONE (R256): A nest action with no effect. -/
  | actionNone (t : Nat) (n : Fin 8)
  /-- ACTION_WAIT (R256): A nest WAIT action completes once the local counter reaches AMT. -/
  | actionWait (t : Nat) (n : Fin 8)
  /-- ACTION_INC (R256): A nest action increments a local counter. -/
  | actionInc (t : Nat) (n : Fin 8)
  /-- ACTION_DEC (R256): A nest action decrements a local counter. -/
  | actionDec (t : Nat) (n : Fin 8)
  /-- ACTION_RESET (R256): A nest action resets a local counter to its base. -/
  | actionReset (t : Nat) (n : Fin 8)
  /-- ACTION_CINC (R256): A nest action sends a CINC. -/
  | actionCinc (t : Nat) (n : Fin 8)
  /-- ACTION_CDEC (R256): A nest action sends a CDEC. -/
  | actionCdec (t : Nat) (n : Fin 8)
  /-- ACTION_CWAIT (R256): A nest action sends a CWAIT whose release increments a local counter. -/
  | actionCwait (t : Nat) (n : Fin 8)
  /-- ACTION_CLAIM (R259): A nest action claims items locally or by a CLAIM message. -/
  | actionClaim (t : Nat) (n : Fin 8)
  /-- ACTION_HPUSH (R256): A nest action pushes a handle for an operand buffer onto a local queue. -/
  | actionHpush (t : Nat) (n : Fin 8)
  /-- ACTION_CHRET (R256): A nest action returns ring lines on a RECV record. -/
  | actionChret (t : Nat) (n : Fin 8)
  /-- ACTION_OPEN (R256): A nest action gives an open command to a record. -/
  | actionOpen (t : Nat) (n : Fin 8)
  /-- ACTION_CLOSE (R256): A nest action gives a close command to a record. -/
  | actionClose (t : Nat) (n : Fin 8)
  /-- CLAIM_REGISTER_LOAD (R259): A remote claim's answer arrives, and the claim register takes
  the value, the count and the status. -/
  | claimRegisterLoad (t : Nat) (n : Fin 8)
  /-- NEST_WORD_TAKE (R252): A level with a word-input bound takes its word when one is present. -/
  | nestWordTake (t : Nat) (n : Fin 8)
  /-- NEST_END_POINT (R257): The end points of finishing levels run their releases and actions
  once every firing of the iteration has written. -/
  | nestEndPoint (t : Nat) (n : Fin 8)
  /-- NEST_START_POINT (R257): The run start and level start points run their pops and actions
  before the first firing. -/
  | nestStartPoint (t : Nat) (n : Fin 8)
  /-- POUR_HEADER (R289): A casting stream header arrives and passes or fails the header checks. -/
  | pourHeader (c : Fin 8)
  /-- SEGMENT (R278): A stream segment's tag is checked and its commands are executed. -/
  | segment (c : Fin 8)
  /-- NOP (R279): A casting command that does nothing. -/
  | nop (c : Fin 8)
  /-- SET_MOULD (R288): A casting command that assigns the mould and prepares every tile's shadow
  set. -/
  | setMould (c : Fin 8)
  /-- SET_FAR (R281): A casting command that sets the frame address. -/
  | setFar (c : Fin 8)
  /-- WRITE_FRAMES (R282): A casting command that writes consecutive shadow frames with per-frame
  checks. -/
  | writeFrames (c : Fin 8)
  /-- WRITE_CREG (R283): A casting command that writes one shadow register, by scope. -/
  | writeCreg (c : Fin 8)
  /-- HASH_CHECK (R284): A casting command that compares the body digest. -/
  | hashCheck (c : Fin 8)
  /-- ARM (R285): A casting command that closes the body, starts bank fill and read-back, and sets
  the commit mode. -/
  | arm (c : Fin 8)
  /-- END (R280): A casting command that ends the body and checks its length. -/
  | castEnd (c : Fin 8)
  /-- FINAL_TAG (R275): The final tag passes and the closing checks start. -/
  | finalTag (c : Fin 8)
  /-- CLOSING_CHECKS_DONE (R293): The closing checks of a pour complete and, with fill and read-
  back done, the pour becomes ARMED. -/
  | closingChecksDone (c : Fin 8)
  /-- READBACK_DONE (R293): A tile's shadow read-back completes, correcting single-bit errors. -/
  | readbackDone (t : Nat) (ecc : List Upset)
  /-- SHADOW_ECC_ERROR (R292): A double-bit error arises in a shadow word while the pour is ARMED,
  and the pour is discarded. -/
  | shadowEccError (t : Nat) (addr : Nat)
  /-- POUR_GO (R310): CFG_CMD GO commits an ARMED pour. -/
  | pourGo (c : Fin 8)
  /-- POUR_ABORT (R310): CFG_CMD ABORT discards a pour that is POURING or ARMED. -/
  | pourAbort (c : Fin 8)
  /-- POUR_IDLE_TIMEOUT (R292): No stream byte arrives for POURIDLE and the pour is discarded. -/
  | pourIdleTimeout (c : Fin 8)
  /-- CAST_RECAST_TIMEOUT (R292): RECASTLIM elapses during a recast and the context restarts. -/
  | castRecastTimeout (c : Fin 8)
  /-- CFG_SETUP (R308): The configuration engine sets a tile's ownership and prepares its shadow
  set. -/
  | cfgSetup (t : Nat)
  /-- CFG_FRAME (R308): The configuration engine writes one shadow frame. -/
  | cfgFrame (t : Nat)
  /-- CFG_CREG (R308): The configuration engine writes one shadow register. -/
  | cfgCreg (t : Nat)
  /-- CFG_ARM (R308): The configuration engine starts a tile's fill and read-back. -/
  | cfgArm (t : Nat)
  /-- CFG_STAGED (R294): A row-0 tile reports its die column staged or failed. -/
  | cfgStaged
  /-- CFG_RECAST (R295): A tile takes a recast request as origin, or a direct exchange request. -/
  | cfgRecast (t : Nat)
  /-- CFG_DONE (R302): A tile reports its exchange; the last report completes the recast and lifts
  the fence. -/
  | cfgDone
  /-- CFG_DISCARD (R308): A tile discards its shadow set. -/
  | cfgDiscard (t : Nat)
  /-- CFG_FENCE (R303): A border tile raises or lowers the mould fence. -/
  | cfgFence (t : Nat)
  /-- CREATE (R312): CTX_CMD CREATE binds a FREE context. -/
  | create (c : Fin 8)
  /-- PREEMPT (R329): CTX_CMD PREEMPT starts a drain, or is held or pended by state. -/
  | preempt (c : Fin 8)
  /-- RESUME (R312): CTX_CMD RESUME restores a pre-empted context. -/
  | resume (c : Fin 8)
  /-- TEARDOWN (R314): CTX_CMD TEARDOWN starts tearing a context down. -/
  | teardown (c : Fin 8)
  /-- RESTART (R312): CTX_CMD RESTART starts a restart of a running context. -/
  | restart (c : Fin 8)
  /-- TEARDOWN_COMPLETE (R314): Teardown completes and the context becomes FREE. -/
  | teardownComplete (c : Fin 8)
  /-- PREEMPT_DRAIN_COMPLETE (R329): The drain completes, and the tiles halt and freeze. -/
  | preemptDrainComplete (c : Fin 8)
  /-- PREEMPT_TIMEOUT (R312): PREEMPT_LIMIT elapses before the drain completes, and the context
  restarts. -/
  | preemptTimeout (c : Fin 8)
  /-- SLOT_ENTRY_WRITE (R316): A write to a slot table entry, checked for state and uniqueness. -/
  | slotEntryWrite (c : Fin 8) (e : Fin 8) (hi : Bool) (v : Word)
  /-- SEG_ENTRY_WRITE (R331): A write of LO with VALID = 1 checks a segment entry. -/
  | segEntryWrite (c : Fin 8) (e : Fin 16) (v : Word)
  /-- ACCOUNTING_UPDATE (R333): The management die updates a context's accounting registers
  together. -/
  | accountingUpdate (c : Fin 8) (sample : AcctSample)
  /-- CG_STAGE (R338): A tile record's stage counter reaches STT, and it sends its staged
  acknowledgement. -/
  | cgStage (t : Nat) (r : Fin 4)
  /-- CG_DECIDE (R339): A coordinator decides commit or abort and sends its notice. -/
  | cgDecide (t : Nat)
  /-- CG_TIMEOUT (R339): A round's TIMEOUT expires and the coordinator decides abort. -/
  | cgTimeout (t : Nat)
  /-- CG_GO (R368): TSC_CGCMD GO latches GO at a coordinator. -/
  | cgGo (t : Nat)
  /-- CG_ABORT (R368): TSC_CGCMD ABORT aborts the open round. -/
  | cgAbort (t : Nat)
  /-- CG_ACT_DECISION (R342): A tile record acts on a decision that has reached its counter. -/
  | cgActDecision (t : Nat) (r : Fin 4)
  /-- CGCOORD_WRITE (R349): A management write to TSC_CGCOORD, checked for state and setup. -/
  | cgcoordWrite (t : Nat) (v : Word)
  /-- CGPART_WRITE (R349): A management write to TSC_CGPARTi, checked for state and setup. -/
  | cgpartWrite (t : Nat) (r : Fin 4) (v : Word)
  /-- MGT_NOTICE (R481): The management processor records a group decision and acknowledges it, or
  answers OWNER_LOST. -/
  | mgtNotice
  /-- MGT_NOTICE_ACK (R341): A coordinator takes the acknowledgement, fans the decision out to its
  list and advances ROUND. -/
  | mgtNoticeAck (t : Nat)
  /-- MGT_STEP (R356): A tile runs one step of a restart or teardown. -/
  | mgtStep (t : Nat) (ecc : List Upset)
  /-- MGT_STEP_ACK (R356): A tile's step completion reaches the management die, which drives the
  next step. -/
  | mgtStepAck
  /-- RESTART_TIMEOUT (R355): A context restart has not completed in 1,000 µs and a device restart
  starts. -/
  | restartTimeout (c : Fin 8)
  /-- DEVICE_STUCK (R355): A device restart has not completed in 2,000 µs. -/
  | deviceStuck
  /-- ERR_RDPTR_WRITE (R365): Software writes RDPTR to mark log entries read. -/
  | errRdptrWrite (v : Word)
  /-- GX_MESSAGE (R380): A gradient export engine takes a tile message, checks it and forms a
  record or discards it by the mask. -/
  | gxMessage (e : Fin 4)
  /-- GX_RECORD_SEND (R386): A held gradient, DONE or ABORTED record is sent once its port can
  take it. -/
  | gxRecordSend (e : Fin 4)
  /-- GX_CONFIG_WRITE (R393): A write to CTX_GXCFGs, checked and refused by the enable rules. -/
  | gxConfigWrite (c : Fin 8) (e : Fin 16) (v : Word)
  /-- GX_MASK_WRITE (R381): A mask word write that takes effect once it has reached all four
  engines. -/
  | gxMaskWrite (c : Fin 8) (v : Word)
  /-- MOVER_DESCRIPTOR (R402): A mover accepts WIN 0 descriptors and checks each in order. -/
  | moverDescriptor (m : Fin 28)
  /-- STORE_DATA (R404): A WIN 1 message supplies data to the oldest STORE lacking data, and is
  acknowledged once written. -/
  | storeData (m : Fin 28)
  /-- MOVER_PIECE (R408): A mover serves the next piece of a descriptor round-robin across
  contexts and sources. -/
  | moverPiece (m : Fin 28) (ecc : List Upset)
  /-- DESCRIPTOR_COMPLETE (R405): A descriptor completes and sends its completion and staged
  increments. -/
  | descriptorComplete (m : Fin 28)
  /-- MOVER_FROZEN_RESEND (R406): A mover resends a WRITE answered FROZEN after 1 µs. -/
  | moverFrozenResend (m : Fin 28)
  /-- PATROL_SCRUB (R419): A patrol scrub reads a granule between pieces and writes back
  corrections. -/
  | patrolScrub (m : Fin 28) (addr : Nat) (ecc : List Upset)
  /-- CXL_LINK_UP (R417): Presence and link-up on an empty CXL link start enumeration. -/
  | cxlLinkUp (p : Fin 4) (half : Fin 2) (width : Nat)
  /-- CXL_ENUMERATED (R417): Enumeration finds a conforming device (READY) or another device
  (REJECTED). -/
  | cxlEnumerated (p : Fin 4) (half : Fin 2) (dev : CxlDevice)
  /-- CXL_LINK_DOWN (R417): A CXL link goes down; transfers stop and overlapping segment entries
  are cleared. -/
  | cxlLinkDown (p : Fin 4) (half : Fin 2)
  /-- CXL_ONLINE (R417): CXL_CMD ONLINE programs the decoders and makes the range usable. -/
  | cxlOnline (p : Fin 4) (half : Fin 2)
  /-- CXL_OFFLINE (R417): CXL_CMD OFFLINE starts offlining, or is refused while contexts are
  mapped. -/
  | cxlOffline (p : Fin 4) (half : Fin 2) (force : Bool)
  /-- CXL_OFFLINE_COMPLETE (R417): Started pieces complete, and the link returns to READY with a
  safe-to-remove event. -/
  | cxlOfflineComplete (p : Fin 4) (half : Fin 2)
  /-- PORT_ENABLE (R426): LNM_CFG.EN = 1 moves a disabled port to DARK. -/
  | portEnable (p : Fin 8)
  /-- PORT_DISABLE (R426): LNM_CFG.EN = 0 disables a port, sending a DOWN request if aligned. -/
  | portDisable (p : Fin 8)
  /-- LIGHT_DETECT (R426): Light appears on all four lanes of a DARK port, and lock starts. -/
  | lightDetect (p : Fin 8)
  /-- LANE_LOCK (R426): All lanes lock and codewords align, and equalisation starts. -/
  | laneLock (p : Fin 8)
  /-- EQ_CONVERGED (R426): Equalisation converges, and control blocks start from SFSEQ 0; the swing step that
  the partner asks for. -/
  | eqConverged (e : EqEnd)
  /-- PARTNER_ALIGNED (R426): Four consecutive valid control blocks arrive, and HELLOs start. -/
  | partnerAligned (p : Fin 8)
  /-- HELLO (R429): A hello record arrives; on agreement the port goes UP and takes its role. -/
  | hello (p : Fin 8) (rec : HelloRec)
  /-- TRAINING_LIMIT (R427): A training state's time limit passes and the port goes DOWN. -/
  | trainingLimit (p : Fin 8)
  /-- LOSS_OF_LIGHT (R427): Light is lost on an UP link and port-down handling runs. -/
  | lossOfLight (p : Fin 8)
  /-- LOSS_OF_LOCK (R427): Lock is lost on any lane and the port goes DOWN. -/
  | lossOfLock (p : Fin 8)
  /-- ALIGNMENT_LOST (R427): Three superframes pass without a valid control block and the port
  goes DOWN. -/
  | alignmentLost (p : Fin 8)
  /-- RETRY_EXPIRY (R426): The RETRY wait in DOWN expires and the port returns to DARK. -/
  | retryExpiry (p : Fin 8)
  /-- CONTROL_BLOCK (R425): A valid control block updates acknowledgements, credits, replay
  requests and DOWN requests. -/
  | controlBlock (p : Fin 8) (cb : CtlBlock)
  /-- LNM_WRITE (R438): A partner WRITE to a tile window is queued, assembled and checked against
  permissions and grants. -/
  | lnmWrite (p : Fin 8) (pkt : LnmPkt)
  /-- LNM_TIER_WRITE (R440): A partner WRITE to a tier address becomes a STORE descriptor. -/
  | lnmTierWrite (p : Fin 8) (pkt : LnmPkt)
  /-- WACK (R439): A WACK packet arrives from the partner. -/
  | wack (p : Fin 8) (pkt : LnmPkt)
  /-- REGRD (R441): A partner register read is served by the management die and answered by
  REGRESP. -/
  | regrd (p : Fin 8) (pkt : LnmPkt)
  /-- REGWR (R441): A partner register write is served by the management die and answered. -/
  | regwr (p : Fin 8) (pkt : LnmPkt)
  /-- CFG_OPEN (R446): A partner opens a configuration session for a context. -/
  | cfgOpen (p : Fin 8) (pkt : LnmPkt)
  /-- CFG_DATA (R446): Stream bytes of a session are delivered against credit. -/
  | cfgData (p : Fin 8) (pkt : LnmPkt)
  /-- CFG_CLOSE (R446): A configuration session closes, aborting a pour still POURING. -/
  | cfgClose (p : Fin 8) (pkt : LnmPkt)
  /-- ATT_REQ (R447): A partner requests an attestation report with a nonce. -/
  | attReq (p : Fin 8) (pkt : LnmPkt)
  /-- CERT_CHAIN_REQUEST (R494): An ATT_REQ with no payload asks for the certificate chain. -/
  | certChainRequest (p : Fin 8) (pkt : LnmPkt)
  /-- INGRESS_ISSUE (R438): A port engine issues a complete message from a context queue round-
  robin. -/
  | ingressIssue (p : Fin 8)
  /-- INGRESS_FROZEN_RESEND (R438): A port engine resends a WRITE answered FROZEN after 1 µs. -/
  | ingressFrozenResend (p : Fin 8)
  /-- EGRESS_WRITE (R442): A tile WRITE to an egress window is checked and split into outgoing
  packets. -/
  | egressWrite (p : Fin 8)
  /-- EGRESS_WINDOW_WRITE (R451): A write to an egress window configuration, refused when it sets
  EN with bad fields. -/
  | egressWindowWrite (p : Fin 8) (e : Fin 16) (base : Bool) (v : Word)
  /-- LNM_TRANSMIT (R443): The transmitter sends one whole packet from its next source once it
  holds the partner credit. -/
  | lnmTransmit (p : Fin 8)
  /-- CALIBRATION_WINDOW (R455): A 64-cycle calibration window of a tile closes and is checked
  against 64 × P. -/
  | calibrationWindow (t : Nat) (len : Nat)
  /-- FREQUENCY_LOOP (R471): The frequency loop sets each half's F within its floor and ceiling. -/
  | frequencyLoop (h : Fin 40)
  /-- POWER_CAP_LOOP (R471): The power cap loop lowers F to hold input power and current. -/
  | powerCapLoop (sample : PowerSample)
  /-- THERMAL_LOOP (R471): The thermal loop lowers F to hold the junction target. -/
  | thermalLoop (h : Fin 40) (temp : Nat)
  /-- JUNCTION_OVERRIDE (R472): A half's junction reaches 95 °C and its F steps down below floors. -/
  | junctionOverride (h : Fin 40) (temp : Nat)
  /-- CURRENT_OVERRIDE (R472): Input current above 115 A for 100 µs steps every half down. -/
  | currentOverride (sample : PowerSample)
  /-- VOLTAGE_OVERRIDE (R472): Input voltage outside 35–45 V for 10 µs drops every half to 100
  MHz. -/
  | voltageOverride (sample : PowerSample)
  /-- OVERRIDE_STEP (R472): An override's step interval expires and F steps down or back up. -/
  | overrideStep (h : Fin 40) (temp : Nat) (sample : PowerSample)
  /-- THERM_TRIP (R472): A junction reaches 105 °C: a FATAL stop. -/
  | thermTrip (j : Fin 65) (temp : Nat)
  /-- VIN_FAULT (R472): Input voltage outside 33–47 V: a FATAL stop. -/
  | vinFault (sample : PowerSample)
  /-- HALF_POWER_OFF (R461): PWR_HALFCFG ON = 0 asks for a half's tile rail to go off, refused
  while tiles are owned. -/
  | halfPowerOff (h : Fin 40)
  /-- HALF_POWER_ON (R461): PWR_HALFCFG ON = 1 turns a half's tile rail on. -/
  | halfPowerOn (h : Fin 40)
  /-- TILE_IDLE_ENTRY (R462): A tile with nothing to do for IDLE_T cycles enters IDLE. -/
  | tileIdleEntry (t : Nat)
  /-- TILE_NAP_ENTRY (R463): The NAP timer expires and NAP entry starts its check phase, or is
  refused by a floor. -/
  | tileNapEntry (t : Nat)
  /-- NAP_COMMIT (R465): The NAP check phase ends and the commit phase runs to NAP. -/
  | napCommit (t : Nat)
  /-- TILE_WAKE (R464): An arrival wakes an IDLE or NAP tile. -/
  | tileWake (t : Nat)
  /-- PWR_D0 (R468): PWR_DCMD D0 wakes the device. -/
  | pwrD0
  /-- PWR_DIDLE (R467): PWR_DCMD D-idle requests entry, subject to refusal. -/
  | pwrDidle
  /-- PWR_DSTANDBY (R467): PWR_DCMD D-standby requests entry, subject to refusal. -/
  | pwrDstandby
  /-- DIDLE_AUTO (R467): The auto timer expires and requests D-idle. -/
  | didleAuto
  /-- DEVICE_STATE_COMMIT (R468): A device state entry's commit phase completes and any latched
  wake is replayed. -/
  | deviceStateCommit (w : BootWorld)
  /-- DEVICE_WAKE (R468): A wake event aborts an entry, or starts an exit from D-idle or
  D-standby. -/
  | deviceWake (src : Fin 10) (w : BootWorld)
  /-- COMPARATOR_FIRE (R475): A nightwatch comparator fires, sets its wake bit and may wake the
  device. -/
  | comparatorFire (cmp : Fin 8) (value : Nat) (w : BootWorld)
  /-- POWER_APPLIED (R482): 40 V is applied; the nightwatch comes up and its count starts from 0. -/
  | powerApplied (w : BootWorld := {})
  /-- POWER_ENABLE (R482): PWREN is asserted with RST_N high, and the boot of steps 2–5 runs. -/
  | powerEnable (w : BootWorld)
  /-- POWER_DISABLE (R538): PWREN is deasserted; the dies stop and every rail except the
  nightwatch goes off. -/
  | powerDisable
  /-- RESET_ASSERT (R483): The reset input is asserted and every die stops. -/
  | resetAssert (low : Nat := 10000)
  /-- RESET_DEASSERT (R483): The reset input is released and boot steps 2–5 run. -/
  | resetDeassert (w : BootWorld)
  /-- REFERENCE_CLOCK_LOST (R534): A reference clock stops or leaves its limits for 1 µs. -/
  | referenceClockLost (clk : Nat)
  /-- SAVE (R489): PG_CTRL.SAVE starts a save of the retained store. -/
  | save
  /-- SHUTDOWN (R489): MGT_CMD.SHUTDOWN saves the retained store for an orderly shutdown. -/
  | shutdown
  /-- SAVE_COMPLETE (R489): A save completes and the new copy is selected. -/
  | saveComplete (ok : Bool)
  /-- FUSE_KEY_SLOT (R492): FUS_PROG GO programs a key slot. -/
  | fuseKeySlot
  /-- FUSE_REVOKE (R492): FUS_PROG GO revokes a key slot. -/
  | fuseRevoke
  /-- FUSE_POLICY_BIT (R492): FUS_PROG GO blows a policy bit. -/
  | fusePolicyBit
  /-- FUSE_FIELD_REPAIR (R492): FUS_PROG GO records a field repair of a die. -/
  | fuseFieldRepair
  /-- FUSE_DEBUG_KEY_HASH (R492): FUS_PROG GO programs the debug key hash. -/
  | fuseDebugKeyHash
  /-- FUSE_PROGRAM_DONE (R492): A fuse program operation completes and is read back. -/
  | fuseProgramDone (ok : Bool)
  /-- ATT_EXTEND (R486): ATT_EXTCMD GO extends a measurement slot. -/
  | attExtend (v : Word)
  /-- ATTESTATION_REQUEST (R494): ATT_CMD GO requests a signed report. -/
  | attestationRequest
  /-- REPORT_SIGNED (R495): The root of trust finishes signing a report and delivers it. -/
  | reportSigned
  /-- BYPASS (R499): The JTAG BYPASS instruction. -/
  | bypass (bits : List Bool)
  /-- IDCODE (R499): The JTAG IDCODE instruction returns the device code. -/
  | idcode (trst : Bool := false)
  /-- SAMPLE_PRELOAD (R499): The JTAG SAMPLE/PRELOAD instruction on the sideband and strap
  contacts. -/
  | samplePreload (pins : List Bool) (cells : List Bool)
  /-- EXTEST (R499): The JTAG EXTEST instruction on the same contacts. -/
  | extest (pins : List Bool) (cells : List Bool)
  /-- DBGUNLOCK (R500): The JTAG unlock exchange checks a key and a signature over the challenge. -/
  | dbgunlock (key : List Byte) (sig : List Byte)
  /-- MGTACC (R499): A JTAG 64-bit access to a device address through the management processor. -/
  | mgtacc (write : Bool) (addr : Nat) (v : Word)
  /-- MGT_WATCHDOG (R502): The management watchdog expires: a FATAL stop. -/
  | mgtWatchdog
  /-- HALT (R501): PG_CTRL.HALT = 1 halts a tile or stops a mover starting pieces. -/
  | halt (page : Nat)
  /-- HALT_RELEASE (R501): PG_CTRL.HALT = 0 resumes a halted tile or mover. -/
  | haltRelease (page : Nat)
  /-- MGT_FLASH_WRITE (R503): In BOOT_FAIL, a write appends 8 bytes to the new SPI NOR image. -/
  | mgtFlashWrite (v : Word)
  /-- MGT_RD (R480): The management processor reads a tile register. -/
  | mgtRd (t : Nat)
  /-- MGT_WR (R480): The management processor writes a tile register. -/
  | mgtWr (t : Nat)
  /-- MGT_RESP (R480): A tile's answer to MGT_RD or MGT_WR reaches management. -/
  | mgtResp
  /-- MGT_RUNSTATE (R480): A tile updates its copy of the eight contexts' run states. -/
  | mgtRunstate (t : Nat)
  /-- MGT_ARM (R327): An entry tile is armed with the hold charge F. -/
  | mgtArm (t : Nat)
  /-- MGT_DISARM (R327): An entry tile's hold charge is disarmed. -/
  | mgtDisarm (t : Nat)
  /-- MGT_ARM_ACK (R480): An entry tile's arm acknowledgement reaches management. -/
  | mgtArmAck
  /-- PG_VER_WRITE (R515): A write of PG_VER.REQ negotiates the page's granted revision. -/
  | pgVerWrite (path : Nat) (page : Nat) (v : Word)
  /-- REG_WRITE (R524): A sideband command that queues a register write. -/
  | regWrite (x : SbXfer) (pec : Byte)
  /-- REG_READ (R524): A sideband command that queues a register read. -/
  | regRead (x : SbXfer) (pec : Byte := 0)
  /-- REG_RESULT (R524): A sideband command that returns the status and data of the last access. -/
  | regResult
  /-- DBG_WRITE (R524): A sideband scratchpad write through the debug window. -/
  | dbgWrite (x : SbXfer) (pec : Byte)
  /-- DBG_READ (R524): A sideband scratchpad read through the debug window. -/
  | dbgRead (x : SbXfer) (pec : Byte := 0)
  /-- REGISTER_WRITE (R508): A write to a register that has no row of its own, served indivisibly
  by the management processor. -/
  | registerWrite (path : Nat) (addr : Nat) (v : Word)
  /-- PACKET_DROP (R433): A Laniem packet that fails its CRC or arrives out of order is dropped
  with every later packet, and the receiver sets NAK with the SEQ it expects; one of a TYPE that no partner
  may send is discarded (R432). -/
  | packetDrop (p : Fin 8) (seq : Nat) (got : Arrived)
  /-- SUPERFRAME (R424): At the start of each 163.84 ns superframe the port sends a control block
  carrying SFSEQ, ACKSEQ, NAK, cumulative credits and its training state. -/
  | superframe (p : Fin 8) (fec : Codewords := {})
  /-- HELLO_SEND (R428): In HELLO state the port sends its hello record every 10 µs, with AGREED
  set once the partner's record is known. -/
  | helloSend (p : Fin 8)
  /-- REFRESH_RATE_CHANGE (R413): The refresh hardware loop moves an HBM3E stack or DDR5 channel
  between refresh rates as its temperature requires, shown in REFRATE. -/
  | refreshRateChange (u : Nat) (need : RefreshNeed)
  /-- FAILED_CHANNEL (R410): A DDR5 channel fails in service, its range ceases to be usable, and
  descriptors for it fail with MOV_RANGE. -/
  | failedChannel (ch : Fin 16)
  /-- POWER_REMOVED (R466): The 40 V input is removed and the device, nightwatch included, enters
  Off, losing the elapsed count. -/
  | powerRemoved
  /-- SETDASA (R530): In I3C mode the sideband accepts SETDASA and takes a dynamic address from
  its static address. -/
  | setdasa (sa : Nat) (da : Nat)
  /-- ENTDAA (R530): In I3C mode the sideband takes part in ENTDAA dynamic address assignment. -/
  | entdaa (da : Nat)
  deriving DecidableEq, Repr

end Sys2Proof
end

