-- ==== Sys2Proof/Decode.lean ====
section
/-! DEFINITION.
The words of the table: no row of spec/opcode_table.json gives bits, so no word spells a command. -/

namespace Sys2Proof

/-- The command that a word of `nbits` bits spells: none, since the rows give no bits. -/
def decodeTableWord (_nbits _w : Nat) : Option Instr := none

/-- The row of the table that a sideband command code names (R524). -/
def sidebandRow (code : Nat) : Option String :=
  match code with
  | 0x10 => some "REG_WRITE"
  | 0x11 => some "REG_READ"
  | 0x12 => some "REG_RESULT"
  | 0x13 => some "DBG_WRITE"
  | 0x14 => some "DBG_READ"
  | _ => none

end Sys2Proof
end

