-- ==== Sys2Proof/Config.lean ====
section
/-! DEFINITION.
Values the spec leaves open: opaque constants, so that no proof can see what they are. -/

namespace Sys2Proof.Config

/-- Contents of an accumulator that nothing has written since event `epoch` left it undefined
(R120): word and tag of accumulator i. -/
opaque freeAcc (epoch i : Nat) : BitVec 39

/-- A LINEAR curve evaluation whose segment position is no number, because X0 is a NaN or the
difference is Inf − Inf (R151 states no segment): the FP32 code of q for CTCTL, CTRANGE words. -/
opaque freeCurve (ctl range : Word) : BitVec 32

/-- Statistics of a row of no elements, which R156 does not state: the FP32 code recorded in S0
(`i` = 0) or S1 (`i` = 1) by row operation `op`. -/
opaque freeStat (op i : Nat) : BitVec 32

/-- SLOT of the tokens of a launch port whose SEQ_SRC landing port has no current slot and whose
descriptor sends no head token (R182 names no slot): tile and launch port. -/
opaque freeSlot (t la : Nat) : BitVec 3

/-- FLOOR (`i` = 0) and FREQ (`i` = 1) of an override record that covers every half: R473 does not say
whose they are. `n` counts the records. -/
opaque freeOvr (n i : Nat) : BitVec 10

/-- Tile rail voltage of half h at F = f MHz, in mV above 600: the fused curve, up to 850 mV (R470). -/
opaque tileVolt (h f : Nat) : Fin 251

/-- The management processor's copy of a unit's state has followed the unit when it acts for the n-th
time: R498 does not say when its copies are brought up to date. -/
opaque noticed (n : Nat) : Bool

/-- Bits that a failed program operation has blown all the same (R492): the n-th, of the field (`i` = 0)
and of its programmed mark (`i` = 1). -/
opaque blown (n i : Nat) : BitVec 256

/-- Digest of the ROM revision (R484). -/
opaque romDigest : BitVec 256

/-- The 16 random bytes of the n-th signature: R496 does not say what the signer draws. -/
opaque signRandom (n : Nat) : BitVec 128

/-- A low pulse on RST_N of more than 1 µs and less than 10 µs resets the device (R531 leaves it open). -/
opaque resetSeen (n : Nat) : Bool

/-- The n-th challenge of the unlock exchange, drawn afresh (R500). -/
opaque challenge (n : Nat) : BitVec 128

/-- What a register reads whose selector names nothing: a die, port, table kind or waiter that the
spec does not have, or the shadow table of a tile that is being poured. Page·512 + offset/8, selector. -/
opaque freeRead (key sel : Nat) : Word

end Sys2Proof.Config
end

