-- ==== Sys2Proof/Machine/Flags.lean ====
section
/-! DEFINITION.
The four arithmetic conditions of R92 and their place in TEN_FLAGS (R62). -/

namespace Sys2Proof.Machine

/-- The conditions an operation raises: invalid, overflow, underflow, inexact (R62, R92). -/
structure Flags where
  i : Bool := false
  o : Bool := false
  u : Bool := false
  x : Bool := false
  deriving DecidableEq, Repr

/-- No condition. -/
def Flags.none : Flags := {}

/-- Both operations' conditions: a sticky flag stays set (R62). -/
def Flags.or (a b : Flags) : Flags :=
  { i := a.i || b.i, o := a.o || b.o, u := a.u || b.u, x := a.x || b.x }

/-- The flag group's four bits: [0] invalid, [1] overflow, [2] underflow, [3] inexact (R62). -/
def Flags.toNat (f : Flags) : Nat :=
  f.i.toNat + 2 * f.o.toNat + 4 * f.u.toNat + 8 * f.x.toNat

/-- The four engine groups of TEN_FLAGS (R62), which are also the generators' numbers (R90). -/
inductive Group where
  | mtx
  | vec
  | row
  | cnv
  deriving DecidableEq, Repr

def Group.toNat : Group → Nat
  | .mtx => 0
  | .vec => 1
  | .row => 2
  | .cnv => 3

/-- Or the flags into the group's bits of TEN_FLAGS (R62). -/
def orFlags (old : BitVec 16) (g : Group) (f : Flags) : BitVec 16 :=
  old ||| BitVec.ofNat 16 (f.toNat <<< (4 * g.toNat))

end Sys2Proof.Machine
end

