-- ==== Sys2Proof/Machine/Num.lean ====
section
/-! DEFINITION.
Exact numbers and the roundings of chapter 03: a finite value is an integer times a power of two,
so every sum and product is exact and only a named rounding loses bits (R88, R95). -/

namespace Sys2Proof.Machine

/-- A decoded element (R73 to R76): a NaN (`sig`: signalling, R75), an infinity, or the finite
value ±m·2^e, with its sign kept when m is 0. -/
inductive Val where
  | nan (sig : Bool)
  | inf (neg : Bool)
  | fin (neg : Bool) (m : Nat) (e : Int)
  deriving DecidableEq, Repr

/-- +0. -/
def Val.zero : Val := .fin false 0 0

/-- −0. -/
def Val.negZero : Val := .fin true 0 0

/-- The integer n as a value. -/
def Val.ofInt (n : Int) : Val := .fin (n < 0) n.natAbs 0

def Val.isNaN : Val → Bool
  | .nan _ => true
  | _ => false

def Val.isSNaN : Val → Bool
  | .nan s => s
  | _ => false

def Val.isInf : Val → Bool
  | .inf _ => true
  | _ => false

def Val.isFin : Val → Bool
  | .fin .. => true
  | _ => false

/-- Zero of either sign. -/
def Val.isZero : Val → Bool
  | .fin _ m _ => m == 0
  | _ => false

def Val.isNegZero : Val → Bool
  | .fin n m _ => n && m == 0
  | _ => false

def Val.neg : Val → Bool
  | .nan _ => false
  | .inf n => n
  | .fin n _ _ => n

/-- Sign change (R139 NEG); a NaN keeps its kind. -/
def Val.negate : Val → Val
  | .nan s => .nan s
  | .inf n => .inf (!n)
  | .fin n m e => .fin (!n) m e

def Val.abs : Val → Val
  | .nan s => .nan s
  | .inf _ => .inf false
  | .fin _ m e => .fin false m e

/-- m·2^e as an integer at the lower exponent q ≤ e, with its sign. -/
def signedAt (n : Bool) (m : Nat) (e q : Int) : Int :=
  let k := (m * 2 ^ (e - q).toNat : Nat)
  if n then -(k : Int) else (k : Int)

/-- The exact sum of two finite values. An exact zero sum is −0 only for (−0) + (−0) (R96). -/
def addFin (n1 : Bool) (m1 : Nat) (e1 : Int) (n2 : Bool) (m2 : Nat) (e2 : Int) : Val :=
  if m1 = 0 ∧ m2 = 0 then .fin (n1 && n2) 0 0
  else if m1 = 0 then .fin n2 m2 e2
  else if m2 = 0 then .fin n1 m1 e1
  else
    let q := min e1 e2
    let t := signedAt n1 m1 e1 q + signedAt n2 m2 e2 q
    if t = 0 then .zero else .fin (t < 0) t.natAbs q

/-- The exact sum (R85, R92): opposite infinities give a NaN. -/
def Val.add (a b : Val) : Val :=
  match a, b with
  | .nan s, .nan s' => .nan (s || s')
  | .nan s, _ => .nan s
  | _, .nan s => .nan s
  | .inf n, .inf n' => if n = n' then .inf n else .nan false
  | .inf n, _ => .inf n
  | _, .inf n => .inf n
  | .fin n1 m1 e1, .fin n2 m2 e2 => addFin n1 m1 e1 n2 m2 e2

/-- The sum is Inf − Inf, which sets invalid (R92). -/
def Val.addInvalid (a b : Val) : Bool :=
  match a, b with
  | .inf n, .inf n' => n != n'
  | _, _ => false

def Val.sub (a b : Val) : Val := a.add b.negate

/-- The exact product: 0 × Inf gives a NaN (R92). -/
def Val.mul (a b : Val) : Val :=
  match a, b with
  | .nan s, .nan s' => .nan (s || s')
  | .nan s, _ => .nan s
  | _, .nan s => .nan s
  | .inf n, .inf n' => .inf (n != n')
  | .inf n, .fin n' m _ => if m = 0 then .nan false else .inf (n != n')
  | .fin n m _, .inf n' => if m = 0 then .nan false else .inf (n != n')
  | .fin n1 m1 e1, .fin n2 m2 e2 => .fin (n1 != n2) (m1 * m2) (e1 + e2)

/-- The product is 0 × Inf, which sets invalid (R92). -/
def Val.mulInvalid (a b : Val) : Bool :=
  (a.isZero && b.isInf) || (a.isInf && b.isZero)

/-- Multiply by 2^k. -/
def Val.scale (a : Val) (k : Int) : Val :=
  match a with
  | .fin n m e => .fin n m (e + k)
  | v => v

/-- a < b over non-NaN values; ±0 are equal. -/
def Val.lt (a b : Val) : Bool :=
  match a, b with
  | .nan _, _ => false
  | _, .nan _ => false
  | .inf n, .inf n' => n && !n'
  | .inf n, .fin .. => n
  | .fin .., .inf n => !n
  | .fin n1 m1 e1, .fin n2 m2 e2 =>
    let q := min e1 e2
    signedAt n1 m1 e1 q < signedAt n2 m2 e2 q

/-- a = b as values over non-NaN operands (−0 = +0). -/
def Val.eqv (a b : Val) : Bool :=
  !a.isNaN && !b.isNaN && !a.lt b && !b.lt a

/-- How a rounding settles the bits it drops (R88, R89): to nearest even, or stochastically with
the 16-bit draw u. -/
inductive Rnd where
  | rne
  | sr (u : Nat)
  deriving DecidableEq, Repr

/-- The exponent of the last place kept when m·2^e is rounded to p bits with last places no lower
than 2^qmin. -/
def lastPlace (p : Nat) (qmin : Int) (m : Nat) (e : Int) : Int :=
  max (e + (Nat.log2 m + 1 : Nat) - (p : Int)) qmin

/-- m divided by 2^s, rounded (R88, R89). -/
def roundShift (r : Rnd) (m s : Nat) : Nat :=
  let lo := m >>> s
  let rem := m - lo <<< s
  match r with
  | .rne =>
    let twice := 2 * rem
    if twice > 2 ^ s ∨ (twice = 2 ^ s ∧ lo % 2 = 1) then lo + 1 else lo
  | .sr u => if (65536 * rem) >>> s + u ≥ 65536 then lo + 1 else lo

/-- Round the nonzero magnitude m·2^e to p bits: the integer significand and its exponent. -/
def roundMag (r : Rnd) (p : Nat) (qmin : Int) (m : Nat) (e : Int) : Nat × Int :=
  let q := lastPlace p qmin m e
  if q ≤ e then (m * 2 ^ (e - q).toNat, q) else (roundShift r m (q - e).toNat, q)

/-- Round a finite value to p bits with last places no lower than 2^qmin and no upper limit. -/
def Val.roundTo (r : Rnd) (p : Nat) (qmin : Int) (v : Val) : Val :=
  match v with
  | .fin n 0 _ => .fin n 0 0
  | .fin n m e => let (m', q) := roundMag r p qmin m e; .fin n m' q
  | w => w

/-- Magnitudes compared exactly. -/
def magLt (m1 : Nat) (e1 : Int) (m2 : Nat) (e2 : Int) : Bool :=
  let q := min e1 e2
  m1 * 2 ^ (e1 - q).toNat < m2 * 2 ^ (e2 - q).toNat

def magEq (m1 : Nat) (e1 : Int) (m2 : Nat) (e2 : Int) : Bool :=
  let q := min e1 e2
  m1 * 2 ^ (e1 - q).toNat == m2 * 2 ^ (e2 - q).toNat

/-- ⌊log₂⌋ of the nonzero magnitude m·2^e (R80). -/
def magLog2 (m : Nat) (e : Int) : Int := e + (Nat.log2 m : Int)

/-- The quotient of two nonzero magnitudes, to at least `bits` bits, with one more place that is
nonzero when the division leaves a remainder: rounding it once equals rounding the quotient. -/
def divMag (bits : Nat) (m1 : Nat) (e1 : Int) (m2 : Nat) (e2 : Int) : Nat × Int :=
  let k := bits + Nat.log2 m2 + 1
  let num := m1 <<< k
  let q := num / m2
  let st := if num % m2 = 0 then 0 else 1
  (2 * q + st, e1 - e2 - k - 1)

/-- Integer square root by bits, from the top: `n` bits remain to be tried. -/
def isqrtGo (x : Nat) : Nat → Nat → Nat
  | 0, r => r
  | n + 1, r =>
    let c := r + 2 ^ n
    isqrtGo x n (if c * c ≤ x then c else r)

/-- ⌊√x⌋. -/
def isqrt (x : Nat) : Nat := isqrtGo x (Nat.log2 x / 2 + 1) 0

/-- 1/√(m·2^e) for a nonzero magnitude, to at least `bits` bits with a last sticky place. -/
def rsqrtMag (bits : Nat) (m : Nat) (e : Int) : Nat × Int :=
  -- make the exponent even, then 1/√m = √(2^(2k)/m) / 2^k
  let (m, e) := if e % 2 = 0 then (m, e) else (2 * m, e - 1)
  let k := bits + Nat.log2 m + 2
  let x := 2 ^ (2 * k) / m
  let r := isqrt x
  let exact := r * r = x ∧ 2 ^ (2 * k) % m = 0
  (2 * r + (if exact then 0 else 1), -(k : Int) - 1 - e / 2)

/-- √(m·2^e) likewise. -/
def sqrtMag (bits : Nat) (m : Nat) (e : Int) : Nat × Int :=
  let (m, e) := if e % 2 = 0 then (m, e) else (2 * m, e - 1)
  let x := m <<< (2 * bits)
  let r := isqrt x
  (2 * r + (if r * r = x then 0 else 1), e / 2 - bits - 1)

end Sys2Proof.Machine
end

