-- ==== Sys2Proof/Machine/Operands.lean ====
section
/-! DEFINITION.
Number formats, containers, pairs, MX blocks, table-defined formats and skewed tiles: every way an
engine reads an operand or writes a result (chapter 03; R31 to R35 of chapter 02). -/

namespace Sys2Proof.Machine

/-- The number formats of R71. -/
inductive Fmt where
  | fp32
  | bf16
  | fp16
  | p32
  | p16
  | e4m3
  | e5m2
  | e2m3
  | e3m2
  | e2m1
  | int8
  | int4
  | int32
  | tbl (t : Nat)
  deriving DecidableEq, Repr

/-- The 5-bit format code (R71); none: reserved. -/
def Fmt.ofCode (c : Nat) : Option Fmt :=
  match c with
  | 0x00 => some .fp32
  | 0x01 => some .bf16
  | 0x02 => some .fp16
  | 0x03 => some .p32
  | 0x04 => some .p16
  | 0x05 => some .e4m3
  | 0x06 => some .e5m2
  | 0x07 => some .e2m3
  | 0x08 => some .e3m2
  | 0x09 => some .e2m1
  | 0x0A => some .int8
  | 0x0B => some .int4
  | 0x0C => some .int32
  | 0x10 => some (.tbl 0)
  | 0x11 => some (.tbl 1)
  | 0x12 => some (.tbl 2)
  | 0x13 => some (.tbl 3)
  | _ => none

/-- Container width in bits (R71). A pair's two words stand in two such planes. -/
def Fmt.bits : Fmt → Nat
  | .fp32 => 32
  | .bf16 => 16
  | .fp16 => 16
  | .p32 => 32
  | .p16 => 16
  | .e4m3 => 8
  | .e5m2 => 8
  | .e2m3 => 8
  | .e3m2 => 8
  | .e2m1 => 4
  | .int8 => 8
  | .int4 => 4
  | .int32 => 32
  | .tbl _ => 8

/-- A pair format (R85). -/
def Fmt.isPair : Fmt → Bool
  | .p32 => true
  | .p16 => true
  | _ => false

def Fmt.isInt : Fmt → Bool
  | .int8 => true
  | .int4 => true
  | .int32 => true
  | _ => false

def Fmt.isTbl : Fmt → Bool
  | .tbl _ => true
  | _ => false

/-- May be an MX block's element type (R78); INT8 is then MXINT8. -/
def Fmt.isMxElem : Fmt → Bool
  | .e4m3 => true
  | .e5m2 => true
  | .e2m3 => true
  | .e3m2 => true
  | .e2m1 => true
  | .int8 => true
  | _ => false

/-- Which specials a floating-point layout has (R73). -/
inductive Specials where
  /-- exponent all ones: infinity and NaNs -/
  | ieee
  /-- E4M3: no infinity, one NaN code per sign -/
  | nanOnly
  /-- FP6 and FP4: none -/
  | finite
  deriving DecidableEq, Repr

/-- A floating-point layout (R73): exponent and fraction widths, bias, specials. -/
structure Layout where
  eb : Nat
  fb : Nat
  bias : Nat
  sp : Specials
  deriving DecidableEq, Repr

/-- The layout of each single-word floating-point format (R73). -/
def Fmt.layout : Fmt → Option Layout
  | .fp32 => some ⟨8, 23, 127, .ieee⟩
  | .bf16 => some ⟨8, 7, 127, .ieee⟩
  | .fp16 => some ⟨5, 10, 15, .ieee⟩
  | .e5m2 => some ⟨5, 2, 15, .ieee⟩
  | .e4m3 => some ⟨4, 3, 7, .nanOnly⟩
  | .e3m2 => some ⟨3, 2, 3, .finite⟩
  | .e2m3 => some ⟨2, 3, 1, .finite⟩
  | .e2m1 => some ⟨2, 1, 1, .finite⟩
  | _ => none

/-- Exponent of the last place of the subnormals. -/
def Layout.qmin (l : Layout) : Int := 1 - (l.bias : Int) - (l.fb : Int)

/-- Largest finite magnitude code, without the sign (R73). -/
def Layout.maxCode (l : Layout) : Nat :=
  match l.sp with
  | .ieee => (2 ^ l.eb - 1) * 2 ^ l.fb - 1
  | .nanOnly => 2 ^ (l.eb + l.fb) - 2
  | .finite => 2 ^ (l.eb + l.fb) - 1

/-- The magnitude of a finite code without its sign (R74: subnormals kept). -/
def Layout.mag (l : Layout) (c : Nat) : Nat × Int :=
  let e := c / 2 ^ l.fb
  let f := c % 2 ^ l.fb
  if e = 0 then (f, l.qmin) else (2 ^ l.fb + f, l.qmin + (e : Int) - 1)

/-- The minimum normal's exponent. -/
def Layout.emin (l : Layout) : Int := 1 - (l.bias : Int)

/-- Decode a floating-point code (R73 to R75). -/
def Layout.decode (l : Layout) (c : Nat) : Val :=
  let w := l.eb + l.fb
  let s := c / 2 ^ w % 2 == 1
  let c := c % 2 ^ w
  match l.sp with
  | .ieee =>
    if c / 2 ^ l.fb = 2 ^ l.eb - 1 then
      let f := c % 2 ^ l.fb
      if f = 0 then .inf s
      -- E5M2 NaNs are quiet (R75); otherwise the top fraction bit tells
      else .nan (l.eb + l.fb > 7 && f / 2 ^ (l.fb - 1) == 0)
    else let (m, e) := l.mag c; .fin s m e
  | .nanOnly =>
    if c = 2 ^ w - 1 then .nan false else let (m, e) := l.mag c; .fin s m e
  | .finite => let (m, e) := l.mag c; .fin s m e

/-- Two's complement of w bits. -/
def signedOf (w c : Nat) : Int :=
  let c := c % 2 ^ w
  if c < 2 ^ (w - 1) then (c : Int) else (c : Int) - (2 ^ w : Nat)

/-- Two's complement code of an integer. -/
def codeOf (w : Nat) (n : Int) : Nat := (n % (2 ^ w : Nat)).toNat

/-- One format table as the engines see it (R81 to R83): the decoded BF16 patterns, the thresholds
with their tie bits, the code ordering and the NaN code. -/
structure FmtTable where
  dec : List Nat
  enc : List (Nat × Bool)
  order : Nat
  nanCode : Nat
  deriving DecidableEq, Repr

/-- BF16's layout. -/
def bf16L : Layout := ⟨8, 7, 127, .ieee⟩

/-- FP32's layout. -/
def fp32L : Layout := ⟨8, 23, 127, .ieee⟩

/-- Decode a table-defined code (R81). -/
def FmtTable.decode (t : FmtTable) (c : Nat) : Val := bf16L.decode (t.dec.getD (c % 256) 0)

/-- Decode one single-word element (R71 to R77, R81). INT8 reads as the integer; MXINT8 is scaled
by its block (`mxDecode`). -/
def decodeElem (f : Fmt) (tab : Nat → FmtTable) (c : Nat) : Val :=
  match f with
  | .int8 => Val.ofInt (signedOf 8 c)
  | .int4 => Val.ofInt (signedOf 4 c)
  | .int32 => Val.ofInt (signedOf 32 c)
  | .tbl t => (tab t).decode c
  | .p16 => bf16L.decode c
  | .p32 => fp32L.decode c
  | g => match g.layout with
    | some l => l.decode (if l.eb + l.fb = 5 then c % 64 else c)
    | none => .zero

/-- The value of a pair and whether reading it is invalid (R85). -/
def pairVal (hi lo : Val) : Val × Bool := (hi.add lo, hi.addInvalid lo)

/-- Code of the default NaN (R73, R76). -/
def Layout.nanCode (l : Layout) : Nat :=
  match l.sp with
  | .ieee => (2 ^ l.eb - 1) * 2 ^ l.fb + 2 ^ (l.fb - 1)
  | _ => 2 ^ (l.eb + l.fb) - 1

/-- Sign bit of a layout. -/
def Layout.signBit (l : Layout) (s : Bool) : Nat := if s then 2 ^ (l.eb + l.fb) else 0

/-- Code of a magnitude m·2^q that `roundMag` produced for this layout, before any overflow test. -/
def Layout.code (l : Layout) (m : Nat) (q : Int) : Nat :=
  if m = 0 then 0
  else
    let len := Nat.log2 m + 1
    -- a normal number has fb + 1 significant bits; a carry out of rounding has one more
    if len ≤ l.fb then m * 2 ^ (q - l.qmin).toNat
    else
      let e := q + (len : Int) - 1 - (l.fb : Int) - l.qmin + 1
      e.toNat * 2 ^ l.fb + (m >>> (len - 1 - l.fb)) % 2 ^ l.fb

/-- The written code and the flags of a finite value in a floating-point layout (R89, R92, R93).
`sat`: OVF = SAT. -/
def Layout.encodeFin (l : Layout) (r : Rnd) (sat : Bool) (n : Bool) (m : Nat) (e : Int) :
    Nat × Flags :=
  let sgn := l.signBit n
  if m = 0 then (sgn, .none)
  else
    let (mm, me) := l.mag l.maxCode
    let (rm, rq) := roundMag r (l.fb + 1) l.qmin m e
    let beyond := match r with
      | .rne => magLt mm me rm rq
      | .sr _ => magLt mm me m e
    if beyond then
      if l.sp = .ieee ∧ !sat then
        (sgn + (2 ^ l.eb - 1) * 2 ^ l.fb, { o := true, x := true })
      else (sgn + l.maxCode, { o := true })
    else
      let inexact := !magEq rm rq m e
      let tiny := magLt m e 1 l.emin
      (sgn + l.code rm rq, { u := tiny && inexact, x := inexact })

/-- The written code and flags of any value in a floating-point layout (R93). -/
def Layout.encode (l : Layout) (r : Rnd) (sat : Bool) (v : Val) : Nat × Flags :=
  match v with
  | .nan sig =>
    if l.sp = .finite then (0, { i := true }) else (l.nanCode, { i := sig })
  | .inf n =>
    match l.sp with
    | .ieee => (l.signBit n + (2 ^ l.eb - 1) * 2 ^ l.fb, .none)
    | _ => (l.signBit n + l.maxCode, { o := true, x := true })
  | .fin n m e => l.encodeFin r sat n m e

/-- The written code and flags in a two's complement format of w bits (R77, R88, R93): always to
nearest even, out of range to the bound with invalid. -/
def encodeInt (w : Nat) (v : Val) : Nat × Flags :=
  let hi : Int := (2 ^ (w - 1) : Nat) - 1
  let lo : Int := -(2 ^ (w - 1) : Nat)
  match v with
  | .nan _ => (0, { i := true })
  | .inf n => (codeOf w (if n then lo else hi), { i := true })
  | .fin n m e =>
    let (k, inexact) := if e ≥ 0 then (m * 2 ^ e.toNat, false)
      else (roundShift .rne m (-e).toNat, m % 2 ^ (-e).toNat != 0)
    let z : Int := if n then -(k : Int) else (k : Int)
    if z > hi then (codeOf w hi, { i := true })
    else if z < lo then (codeOf w lo, { i := true })
    else (codeOf w z, { x := inexact })

/-- The rank of R82. -/
def FmtTable.rank (t : FmtTable) (v : Val) : Nat :=
  t.enc.foldl (fun r (th, tie) =>
    let tv := fp32L.decode th
    if tv.lt v || (tie && tv.eqv v) then r + 1 else r) 0

/-- The code of a rank under ORDER (R82). DESIGN CHOICE (assumption 105): ORDER 3, reserved, ranks as 0. -/
def FmtTable.codeOfRank (t : FmtTable) (r : Nat) : Nat :=
  match t.order with
  | 1 => if r ≤ 127 then 0xFF - r else r - 128
  | 2 => r ^^^ 0x80
  | _ => r

/-- Encode to a table-defined format (R82, R83). -/
def FmtTable.encode (t : FmtTable) (v : Val) : Nat × Flags :=
  match v with
  | .nan sig => (t.nanCode, { i := sig || !(t.decode t.nanCode).isNaN })
  | w =>
    let c := t.codeOfRank (t.rank w)
    let d := t.decode c
    let d0 := t.decode (t.codeOfRank 0)
    let d255 := t.decode (t.codeOfRank 255)
    (c, { x := !d.eqv w,
          o := w.isFin && ((w.lt d0 && d0.isFin) || (d255.lt w && d255.isFin)) })

/-- Write a value in a single-word format: the code and the flags (R71, R83, R88, R93). -/
def encodeElem (f : Fmt) (tab : Nat → FmtTable) (r : Rnd) (sat : Bool) (v : Val) : Nat × Flags :=
  match f with
  | .int8 => encodeInt 8 v
  | .int4 => encodeInt 4 v
  | .int32 => encodeInt 32 v
  | .tbl t => (tab t).encode v
  | .p16 => bf16L.encode r sat v
  | .p32 => fp32L.encode r sat v
  | g => match g.layout with
    | some l => l.encode r sat v
    | none => (0, .none)

/-- Write a value as a pair of words of layout l (R86, R88): hi to nearest even, lo = RN(v − hi). -/
def encodePair (l : Layout) (sat : Bool) (v : Val) : Nat × Nat × Flags :=
  let (hi, fl) := l.encode .rne sat v
  match v, l.decode hi with
  | .fin _ m _, .fin n' m' e' =>
    if m = 0 then (hi, 0, fl)
    else if fl.o then (hi, 0, fl)
    else
      let d := v.sub (.fin n' m' e')
      if d.isZero then (hi, 0, fl) else (hi, (l.encode .rne false d).1, fl)
  | _, _ => (hi, 0, fl)

/-- Round to BF16 as the convert unit does (R87, R100), as a value. -/
def rnBf16 (v : Val) : Val := bf16L.decode (bf16L.encode .rne false v).1

/-- Round to FP32 under nearest even, as a value. -/
def rnFp32 (v : Val) : Val := fp32L.decode (fp32L.encode .rne false v).1

/-! ## MX blocks (R78 to R80) -/

/-- The exponent an MX element type's largest power of two has (R80). -/
def Fmt.mxEmax : Fmt → Int
  | .e4m3 => 8
  | .e5m2 => 15
  | .e2m3 => 2
  | .e3m2 => 4
  | .e2m1 => 2
  | _ => 0

/-- Value of an MX element under scale X (R77, R78). -/
def mxDecode (f : Fmt) (x c : Nat) : Val :=
  if x % 256 = 255 then .nan false
  else
    let v := match f with
      | .int8 => (Val.ofInt (signedOf 8 c)).scale (-6)
      | g => decodeElem g (fun _ => ⟨[], [], 0, 0⟩) c
    v.scale ((x % 256 : Nat) - 127)

/-- The largest magnitude of a list of finite values. -/
def maxMag (vs : List Val) : Nat × Int :=
  vs.foldl (fun (m, e) v => match v with
    | .fin _ m' e' => if magLt m e m' e' then (m', e') else (m, e)
    | _ => (m, e)) (0, 0)

/-- The block scale of finite values (R80 step 3). -/
def mxScale (f : Fmt) (vs : List Val) : Nat :=
  let (m, e) := maxMag vs
  if m = 0 then 0x7F
  else
    let z := magLog2 m e - f.mxEmax + 127
    (max 0 (min 254 z)).toNat

/-- One element of an encoded block (R80 step 4): always saturated, saturation sets inexact. -/
def mxElem (f : Fmt) (r : Rnd) (x : Nat) (v : Val) : Nat × Flags :=
  let d := v.scale (127 - (x : Int))
  match f with
  | .int8 =>
    match d with
    | .fin n m e =>
      if m = 0 then (0, .none)
      else
        -- in units of 2^-6, rounded under the operation's mode
        let e' := e + 6
        let (k, inexact) := if e' ≥ 0 then (m * 2 ^ e'.toNat, false)
          else (roundShift r m (-e').toNat, m % 2 ^ (-e').toNat != 0)
        if k > 127 then (codeOf 8 (if n then -127 else 127), { x := true })
        else (codeOf 8 (if n then -(k : Int) else (k : Int)),
              { x := inexact })
    | _ => (0, .none)
  | g => match g.layout with
    | some l =>
      let (c, fl) := l.encode r true d
      if fl.o then (c, { x := true }) else (c, fl)
    | none => (0, .none)

/-- Encode 32 values to an MX block (R80): scale, element codes, flags. -/
def mxEncode (f : Fmt) (rs : List Rnd) (vs : List Val) : Nat × List Nat × Flags :=
  if vs.any Val.isNaN then
    (255, vs.map (fun _ => 0), { i := vs.any Val.isSNaN })
  else if vs.any Val.isInf then
    (255, vs.map (fun _ => 0), { o := true, x := true })
  else
    let x := mxScale f vs
    let out := List.zipWith (fun r v => mxElem f r x v) rs vs
    (x, out.map Prod.fst, out.foldl (fun a p => a.or p.2) .none)

/-! ## Minimum and maximum (R94) -/

/-- min (R94): the value and whether invalid is set. -/
def vmin (a b : Val) : Val × Bool :=
  if a.isNaN || b.isNaN then (.nan false, a.isSNaN || b.isSNaN)
  else if a.isZero && b.isZero then (if a.neg || b.neg then .negZero else .zero, false)
  else if b.lt a then (b, false) else (a, false)

/-- max (R94). -/
def vmax (a b : Val) : Val × Bool :=
  if a.isNaN || b.isNaN then (.nan false, a.isSNaN || b.isSNaN)
  else if a.isZero && b.isZero then (if a.neg && b.neg then .negZero else .zero, false)
  else if a.lt b then (b, false) else (a, false)

/-! ## Generators (R90) -/

/-- One step of the 32-bit Galois LFSR (R90). -/
def lfsrStep (s : Nat) : Nat := (s >>> 1) ^^^ (if s % 2 = 1 then 0x80200003 else 0)

/-- A draw (R90): 16 steps; the new state. -/
def lfsrDraw (s : Nat) : Nat := Nat.repeat lfsrStep 16 s

/-- Generator e's state at a recast or restart (R90): the seed rotated left by 8·e. -/
def seedOf (seed e : Nat) : Nat :=
  let s := if seed % 2 ^ 32 = 0 then 1 else seed % 2 ^ 32
  (s <<< (8 * e) ||| s >>> (32 - 8 * e)) % 2 ^ 32

/-- The roundings of n elements in order under ROUND: one draw each when stochastic (R88, R89). -/
def drawRnds (stoch : Bool) : Nat → Nat → List Rnd × Nat
  | 0, g => ([], g)
  | n + 1, g =>
    if stoch then
      let g' := lfsrDraw g
      let (rs, g'') := drawRnds stoch n g'
      (.sr (g' % 65536) :: rs, g'')
    else
      let (rs, g'') := drawRnds stoch n g
      (.rne :: rs, g'')

/-! ## Accumulation words (R95, R96) -/

/-- rn(): round to an accumulation word, to nearest even (R95, R96). -/
def rnAcc (v : Val) : Val := v.roundTo .rne 24 (-1045)

/-- An accumulation word's layout: the FP32 significand with binary64's exponent range (R95). -/
def accL : Layout := ⟨11, 23, 1023, .ieee⟩

/-- two_sum of R96. -/
def twoSum (a b : Val) : Val × Val :=
  let s := rnAcc (a.add b)
  let bb := rnAcc (s.sub a)
  let ab := rnAcc (s.sub bb)
  let db := rnAcc (b.sub bb)
  let da := rnAcc (a.sub ab)
  (s, rnAcc (da.add db))

/-- combine of R96: one block value into the running pair. -/
def combine (h l blk : Val) (pair : Bool) : Val × Val :=
  if blk.isZero then
    if h.isZero then
      if blk.isNegZero && h.isNegZero then (.negZero, .negZero) else (.zero, .negZero)
    else (h, l)
  else
    let bh := rnAcc blk
    let bl := rnAcc (blk.sub bh)
    let (s, e) := twoSum h bh
    let t := rnAcc ((rnAcc (l.add bl)).add e)
    let (h2, l2) := twoSum s t
    (h2, if pair then l2 else .negZero)

/-- The class tag of R97. -/
structure Tag where
  nan : Bool := false
  pinf : Bool := false
  ninf : Bool := false
  inv : Bool := false
  deriving DecidableEq, Repr

def Tag.or (a b : Tag) : Tag :=
  { nan := a.nan || b.nan, pinf := a.pinf || b.pinf, ninf := a.ninf || b.ninf, inv := a.inv || b.inv }

/-- What one product adds to the tag (R97). -/
def Tag.ofProduct (a b : Val) : Tag :=
  if a.isNaN || b.isNaN then { nan := true, inv := a.isSNaN || b.isSNaN }
  else if a.mulInvalid b then { nan := true, inv := true }
  else if a.isInf || b.isInf then
    if a.neg != b.neg then { ninf := true } else { pinf := true }
  else {}

def Tag.toNat (t : Tag) : Nat :=
  t.nan.toNat + 2 * t.pinf.toNat + 4 * t.ninf.toNat + 8 * t.inv.toNat

def Tag.ofNat (n : Nat) : Tag :=
  { nan := n % 2 == 1, pinf := n / 2 % 2 == 1, ninf := n / 4 % 2 == 1, inv := n / 8 % 2 == 1 }

/-- The value written for a dot product and the flags its tag gives (R98). -/
def tagResult (t : Tag) (h l : Val) : Val × Flags :=
  if t.nan || (t.pinf && t.ninf) then (.nan false, { i := t.inv || (t.pinf && t.ninf) })
  else if t.pinf then (.inf false, .none)
  else if t.ninf then (.inf true, .none)
  else (h.add l, .none)

end Sys2Proof.Machine
end

