-- ==== Sys2Proof/Machine/State.lean ====
section
/-! DEFINITION.
The state of the device: every register, queue, buffer, counter, mode and pin the spec names, as
plain data. Each structure's defaults are its state after reset. -/

namespace Sys2Proof.Machine

/-! ## Errors (R351, R365) -/

/-- The classes of R351, in rising order. -/
inductive ErrClass where
  | corrected
  | context
  | device
  | fatal
  deriving DecidableEq, Repr

/-- The page kinds of R512. -/
inductive Kind where
  | mgt
  | fus
  | att
  | err
  | pwr
  | cfg
  | ctx
  | mov
  | hbm
  | ddr
  | cxl
  | lnm
  | tct
  | tsp
  | tsc
  | ten
  deriving DecidableEq, Repr

/-- One entry of the error log, four words (R365). -/
structure LogEntry where
  w0 : Word := 0
  w1 : Word := 0
  w2 : Word := 0
  w3 : Word := 0
  deriving DecidableEq, Repr

/-- The error log (R365, R366): the ring, its pointers, and the two snapshots. -/
structure ErrLog where
  ring : SMap LogEntry := []
  wr : Nat := 0
  rd : Nat := 0
  unread : Nat := 0
  seq : Nat := 0
  firstV : Bool := false
  first : LogEntry := {}
  last : LogEntry := {}
  /-- the first entry logged at time `freshAt` (R509; the model's own) -/
  fresh : Option LogEntry := none
  freshAt : Nat := 0
  deriving DecidableEq, Repr

/-- The stored part of a page header (R513 to R519): error bits, mask, first-error detail, the
revision asked for and granted, HALT. -/
structure Hdr where
  err : Word := 0
  mask : Word := 0
  info : Word := 0
  req : Nat := 0
  grant : Nat := 1
  halt : Bool := false
  /-- bits that errors have set at time `freshAt`, the bits that stood set before them and still do, and the detail
  of the first that loads one (R509, R519; the model's own) -/
  fresh : Word := 0
  freshAt : Nat := 0
  older : Word := 0
  freshInfo : Option Word := none
  deriving DecidableEq, Repr

/-! ## Tile (chapters 02 to 08) -/

/-- Tile power states (R61, R462). -/
inductive PState where
  | active
  | idle
  | nap
  | off
  deriving DecidableEq, Repr

/-- `TCT_STATE.POUR` (R61). -/
inductive PourSt where
  | idle
  | pouring
  | armed
  | recasting
  deriving DecidableEq, Repr

/-- A unit of a tile that a CONTEXT error stops until the flush (R352). -/
inductive TUnit where
  | mtx
  | vec
  | row
  | nest (n : Nat)
  | steer (u : Nat)
  | port (p : Nat)
  | landing (p : Nat)
  | launch (p : Nat)
  | record (r : Nat)
  /-- the coordinator's list reads (R341) -/
  | coord
  deriving DecidableEq, Repr

/-- One token of a static network (R166 to R170), with what the switch keeps beside it. -/
structure Token where
  /-- payload: 64 bytes, a 32-bit word, or the control value [0] and tag [4:1] -/
  data : BitVec 512 := 0
  slot : Nat := 0
  head : Bool := false
  last : Bool := false
  /-- LIVE_SET bit of the sending tile (R299) -/
  set : Bool := false
  /-- a bound control token (R170) -/
  bound : Bool := false
  /-- order of bound traffic on one link (R170); 0: unordered -/
  ord : Nat := 0
  /-- tile cycle of entry into its input (R322) -/
  arr : Nat := 0
  /-- head token: the budgets that compete at departure, each with the cycle it counts from and its
  wake charge in ns (R322, R323, R464); none: charged in full already (R320) -/
  cands : List (Nat × Nat × Nat) := []
  /-- in a delay queue: the byte offset of its payload within the queue region, and its length (R184) -/
  place : Nat := 0
  width : Nat := 0
  deriving DecidableEq, Repr

/-- One of the 34 ports of R183: FIFO, delay queue, tokens crossing the link into it, and its
progress watch (R189). A queued token's payload stands in the scratchpad (R183, R184); `qpos` is the
region's byte offset behind the token queued last. -/
structure Port where
  fifo : List Token := []
  queue : List Token := []
  qpos : Nat := 0
  flight : List Token := []
  watch : Nat := 0
  deriving DecidableEq, Repr

/-- A slot record at a landing port (R180, R322). -/
structure SlotRec where
  seq : Nat := 0
  user : BitVec 448 := 0
  budget : Nat := 0
  arr : Nat := 0
  wake : Nat := 0
  deriving DecidableEq, Repr

/-- A landing port (R180, R296). -/
structure Landing where
  /-- the token that has left the switch for this port (R173) -/
  inp : Option Token := none
  k : Nat := 0
  cur : Option Nat := none
  recs : SMap (Option SlotRec) := []
  openSeq : Bool := false
  /-- a data token of the open sequence has landed (R296) -/
  landed : Bool := false
  watch : Nat := 0
  deriving DecidableEq, Repr

/-- What a launch port is sending (R182, R320). -/
structure Sending where
  handle : BitVec 32
  slot : Nat
  /-- next line to send -/
  line : Nat
  /-- the head of a request that waits for its output (R320): budget, stamp cycle, SEQ, USER -/
  entry : Option (Nat × Nat × Nat × BitVec 448)
  /-- bound entry slot of the context, when it is one -/
  bound : Option Nat
  deriving DecidableEq, Repr

/-- A launch port (R182, R296). -/
structure Launch where
  cur : Option Sending := none
  openSeq : Bool := false
  deriving DecidableEq, Repr

/-- A steering sequencer of one unit in one plane (R200). `live = false`: still at INIT. -/
structure Seqr where
  live : Bool := false
  state : Nat := 0
  remain : Nat := 0
  opened : Bool := false
  sel : Bool := false
  /-- the condition MERGE has taken while it awaits its data head (R198) -/
  cond : Option Bool := none
  deriving DecidableEq, Repr

/-- A sync counter's waiter record (R236). -/
structure Waiter where
  src : Nat
  ctx : Nat
  thresh : Nat
  epoch : Nat
  epv : Bool
  rcnt : Nat
  lostOk : Bool
  statEn : Bool
  tag : Nat
  deriving DecidableEq, Repr

/-- A sync counter (R232). -/
structure Counter where
  value : Nat := 0
  satHi : Bool := false
  satLo : Bool := false
  /-- when each flag was last set (R509; the model's own) -/
  hiAt : Option Nat := none
  loAt : Option Nat := none
  epoch : Nat := 0
  lost : Bool := false
  waiters : List (Option Waiter) := [none, none, none, none]
  deriving DecidableEq, Repr

/-- States of a channel record (R223, `TSC_CHSTATi.STATE`). -/
inductive ChState where
  | closed
  | opening
  | opened
  | closing
  | lost
  | bound
  deriving DecidableEq, Repr

/-- The running state of a message port record (R222 to R229). -/
structure ChRec where
  st : ChState := .closed
  credit : Nat := 0
  ptr : Nat := 0
  size : Nat := 0
  maxmsg : Nat := 0
  last : Nat := 0
  drops : Nat := 0
  seq : Nat := 0
  /-- marked handles not yet sent (R223) -/
  marked : Nat := 0
  /-- a close command has come since the open command (R223) -/
  closeReq : Bool := false
  /-- CH_CLOSE has been sent -/
  closeSent : Bool := false
  watch : Nat := 0
  /-- RECV: the bound sender and its record (R224) -/
  peer : Nat := 0
  peerRec : Nat := 0
  deriving DecidableEq, Repr

/-- A message (R212, R213): header words taken apart, word 1 raw, payload whole. -/
structure Msg where
  op : Nat
  src : Nat
  dest : Nat
  sctx : Nat := 0
  priv : Bool := false
  tctx : Nat := 0
  w1 : Word := 0
  tag : Nat := 0
  status : Nat := 0
  payload : List Byte := []
  deriving DecidableEq, Repr

/-- A packet of a message in the network (R212, R215). -/
structure Packet where
  msg : Msg
  pkt : Nat
  first : Bool
  last : Bool
  /-- a double-bit payload error met on the way (R216) -/
  bad : Bool := false
  deriving DecidableEq, Repr

/-- A message in a unit's inbox: packets received so far, and whether it may take effect. -/
structure InMsg where
  msg : Msg
  have_ : Nat := 1
  complete : Bool := false
  /-- a double-bit payload error (R216) -/
  bad : Bool := false
  /-- packets out of sequence or a PLEN that disagrees (R215) -/
  broken : Bool := false
  deriving DecidableEq, Repr

/-- An operation sent and not yet settled (R218 to R221, R546). -/
structure SentOp where
  msg : Msg
  /-- cycle at which a FROZEN answer came, until the resend (R219) -/
  frozenAt : Option Nat := none
  /-- a FROZEN answer has come: its target is frozen, until another answer settles it (R219, R229) -/
  frozen : Bool := false
  /-- the message port record that sent it -/
  rec_ : Option Nat := none
  /-- the nest whose action sent it -/
  nest : Option Nat := none
  deriving DecidableEq, Repr

/-- A FENCED operation held at its sender (R221): the tags of the earlier WRITEs to the fence
unit not yet acknowledged. -/
structure Fenced where
  msg : Msg
  funit : Nat
  tags : List Nat
  nest : Option Nat := none
  deriving DecidableEq, Repr

/-- The message port and the sync counters of a tile (chapter 07). -/
structure MsgPort where
  tag : Nat := 0
  sent : List SentOp := []
  fenced : List Fenced := []
  recs : SMap ChRec := []
  counters : SMap Counter := []
  /-- the tile's copy of the contexts' run states (R219) -/
  runStates : SMap Nat := []
  /-- answers that came while the tile was frozen, oldest first (R219, R239) -/
  parked : List InMsg := []
  deriving DecidableEq, Repr

/-- An MMA step whose checks have passed (R103 to R110): descriptor words, addresses, slot. -/
structure MtxStep where
  w0 : Word
  w1 : Word
  desc : Nat
  nest : Nat
  plane : Nat
  addrA : Nat
  addrB : Nat
  addrC : Nat
  slot : Nat
  /-- applies ACC_IN and opens the slot (R253) -/
  first : Bool
  /-- every accumulation level is at its last index (R253) -/
  last : Bool
  pass : Nat
  deriving DecidableEq, Repr

/-- An operand element of a step: its value, or the two words of a pair (R85). -/
structure Elt where
  hi : Val
  lo : Val
  deriving DecidableEq, Repr

/-- A buffered step: rows of A and columns of B, each d elements (R109). -/
structure MtxBuf where
  step : MtxStep
  a : List (List Elt)
  b : List (List Elt)
  deriving DecidableEq, Repr

/-- One row of block values waiting for the combine unit (R129). -/
structure RowBlk where
  step : MtxStep
  row : Nat
  /-- last block row of its step -/
  fin : Bool
  vals : List (Val × Tag)
  deriving DecidableEq, Repr

/-- An accumulator slot (R120, R253). -/
structure AccSlot where
  valid : Bool := false
  mode : Nat := 0
  opened : Bool := false
  addrC : Int := 0
  kstep : Nat := 0
  /-- nest that made the step last taken, as plane·8 + nest + 1: a step of another begins an operation (R105) -/
  nest : Nat := 0
  deriving DecidableEq, Repr

/-- The matrix engine (chapter 04). -/
structure Matrix where
  issued : List MtxStep := []
  bufs : List MtxBuf := []
  rows : List RowBlk := []
  drains : List MtxStep := []
  slots : SMap AccSlot := []
  /-- accumulators written since the last recast or restart: 35-bit word and tag (R118) -/
  acc : SMap (Option (BitVec 39)) := []
  /-- counts the events after which unwritten accumulators are undefined (R120) -/
  epoch : Nat := 0
  /-- descriptor, slot and pass last shown by `TEN_MTXSTAT`, and the accumulation mode that numbers the
  slot (R119, R130) -/
  desc : Nat := 0
  slot : Nat := 0
  pass : Nat := 0
  mode : Nat := 0
  deriving DecidableEq, Repr

/-- The sources of one vector group that has been read (R154). -/
structure VecGroup where
  elems : List (Nat × Val × Val × Val)
  /-- reading a source pair was invalid (R85) -/
  inv : List Bool
  deriving DecidableEq, Repr

/-- A vector firing in progress (R154). -/
structure VecFire where
  w0 : Word
  w1 : Word
  desc : Nat
  nest : Nat
  plane : Nat
  addrA : Nat
  addrB : Nat
  addrC : Nat
  len : Nat
  s2w : Option Nat
  s3w : Option Nat
  /-- next element to be read -/
  nextRead : Nat
  groups : List VecGroup
  /-- elements written -/
  written : Nat
  /-- results that wait for their MX block to complete (R154) -/
  mxWait : List Val
  /-- the values written so far, for the reduction unit (R147) -/
  red : List Val
  deriving DecidableEq, Repr

/-- A reduction the unit is emitting: the finished firing's REDOP, OVF and values (R147, R149). -/
structure RedPending where
  op : Nat
  ovf : Bool
  vals : List Val
  deriving DecidableEq, Repr

/-- The vector engine and the reduction unit (chapter 05). -/
structure Vector where
  fire : Option VecFire := none
  /-- firings whose reads are done and whose writes are not (R154 step 3) -/
  tail : List VecFire := []
  red : List RedPending := []
  /-- words not yet accepted by scalar input 4 (R149) -/
  held : List Nat := []
  vlen : SMap Nat := []
  desc : Nat := 0
  deriving DecidableEq, Repr

/-- A side memory entry (R158). -/
structure SideEntry where
  data : Word := 0
  valid : Bool := false
  kind : Nat := 0
  n : Nat := 0
  deriving DecidableEq, Repr

/-- The row engine (chapter 05). -/
structure RowEng where
  side : SMap SideEntry := []
  desc : Nat := 0
  entry : Nat := 0
  deriving DecidableEq, Repr

/-- What a nest still has to do before its next firing (R257). -/
inductive NItem where
  /-- end point of a level (7: the run) -/
  | endPt (lvl : Nat)
  /-- start point of a level (7: the run) -/
  | startPt (lvl : Nat)
  /-- a level begins: take its range (R252) -/
  | begin (lvl : Nat)
  /-- pop a handle for an operand (R260) -/
  | pop (opnd : Nat)
  /-- run action a -/
  | act (a : Nat)
  /-- fire the descriptor -/
  | fire
  /-- move to the next tuple from level position p -/
  | advance (pos : Nat)
  /-- the run ends -/
  | finish (stop : Bool)
  deriving DecidableEq, Repr

/-- A loop nest of one plane (R251 to R261). `live = false`: still at the start of run 0. -/
structure Nest where
  live : Bool := false
  idx : SMap Nat := []
  hi : SMap Nat := []
  todo : List NItem := []
  runs : Nat := 0
  /-- claim register: value, count, status (R259) -/
  claim : Option (Nat × Nat × Nat) := none
  /-- a CLAIM message has been sent and its answer is awaited -/
  claimSent : Bool := false
  handles : SMap (BitVec 32) := []
  /-- firings begun and not yet wholly written (R257) -/
  out : Nat := 0
  done : Bool := false
  deriving DecidableEq, Repr

/-- The recorded nest fault (R263). -/
structure NestFault where
  a : Word := 0
  b : Word := 0
  /-- when it was recorded (R509; the model's own) -/
  at_ : Option Nat := none
  deriving DecidableEq, Repr

/-- The static fabric of a tile (chapter 06). -/
structure Fabric where
  ports : SMap Port := []
  landings : SMap Landing := []
  launches : SMap Launch := []
  seqrs : SMap Seqr := []
  vecWord : Option Nat := none
  /-- words at the loop nest input; `true`: placed by a local CLAIM (R252) -/
  nestWords : List (Bool × Nat) := []
  /-- per output link, the last order number given (R170) -/
  linkOrd : SMap Nat := []
  /-- markers collected and not yet acted on: locally injected BOUNDARY and RECAST (R178) -/
  injBoundary : Nat := 0
  injRecast : Bool := false
  /-- tile cycles of the current dwell (R202) -/
  dwell : Nat := 0
  /-- a plane switch is due, and the running cycles since (R202) -/
  switchDue : Bool := false
  switchOver : Nat := 0
  deriving DecidableEq, Repr

/-- Commit-group records of a tile (R345, R346). -/
structure CgPart where
  st : Nat := 0
  round : Nat := 0
  swaps : Nat := 0
  /-- acted on a decision since the tile last collected a BOUNDARY marker (R343) -/
  acted : Bool := false
  deriving DecidableEq, Repr

structure CgCoord where
  st : Nat := 0
  round : Nat := 0
  go : Bool := false
  last : Nat := 0
  commits : Nat := 0
  aborts : Nat := 0
  /-- decision being notified or fanned out: 1 commit, 2 abort -/
  decision : Nat := 0
  /-- tile cycle of the round's first staged acknowledgement (R339) -/
  firstAck : Option Nat := none
  /-- list entries already sent of the fan-out in progress (R341) -/
  fan : Nat := 0
  deriving DecidableEq, Repr

structure Groups where
  coord : CgCoord := {}
  parts : SMap CgPart := []
  /-- a commit has been acted on whose BOUNDARY marker is not yet injected (R344) -/
  inject : Bool := false
  /-- cycles in which a sequence closed that calls for a BOUNDARY marker (R344) -/
  closed : List Nat := []
  deriving DecidableEq, Repr

/-- Clock and power of a tile (chapter 15): cycle count, phase within a cycle in 2^-16 ns, the
period in force and the periods before it (R454, R456), timers. -/
structure TileClk where
  pstate : PState := .off
  cyc : Nat := 0
  phase : Nat := 0
  per : Nat := 0
  /-- earlier periods: (first cycle, period), newest first -/
  hist : List (Nat × Nat) := []
  idleCnt : Nat := 0
  /-- the check phase of NAP entry is running (R465) -/
  napCheck : Bool := false
  napCnt : Nat := 0
  /-- tile cycle at which the check phase of NAP entry began (R465) -/
  napAt : Nat := 0
  /-- a floor refused NAP in this idle period (R463) -/
  refused : Bool := false
  deriving DecidableEq, Repr

/-- Configuration state of a tile (R56 to R61, chapter 09). -/
structure TileCfg where
  liveSet : Bool := false
  plane : Nat := 0
  step : Nat := 0
  pour : PourSt := .idle
  owned : Bool := false
  ctx : Nat := 0
  halted : Bool := false
  /-- configuration words of sets A and B, keyed plane·1,024 + frame·256 + word -/
  wordsA : SMap Word := []
  wordsB : SMap Word := []
  /-- registers a casting writes: live and shadow copies, keyed page·512 + offset/8 (R58) -/
  live : SMap Word := []
  shadow : SMap Word := []
  /-- table entries: live and shadow, keyed kind·4,096 + table·256 + entry (R91, R150) -/
  tblLive : SMap Word := []
  tblShadow : SMap Word := []
  /-- registers only management writes (R207, R245, R269, R368) -/
  own : SMap Word := []
  /-- banks that hold data (R38, R40) -/
  powered : BitVec 16 := 0
  /-- 0 none; 1 filling; 2 filled (R40) -/
  fill : Nat := 0
  /-- shadow read-back: 0 none; 1 running; 2 done; 3 failed (R293) -/
  readback : Nat := 0
  /-- the tile has a recast request as origin (R295) -/
  origin : Bool := false
  /-- hold charge armed at this entry tile, and the tile cycle at which it was armed (R327) -/
  hold : Option Nat := none
  holdFrom : Nat := 0
  /-- earlier armings since the last reset of the fabric: first cycle, cycle after the last, charge -/
  holds : List (Nat × Nat × Nat) := []
  /-- the fence stands at this tile (R303, R304) -/
  fence : Bool := false
  /-- from step 1 to the end of step 5 of a restart: requests answered OWNER_LOST (R358) -/
  contained : Bool := false
  /-- from step 3 to the end of step 5 of a restart, and from a teardown to the next exchange: the
  engines are stopped (R356, R314) -/
  flushed : Bool := false
  /-- counters and records are frozen with the pre-empted context (R239, R329) -/
  frozen : Bool := false
  deriving DecidableEq, Repr

/-- One tile (R28). -/
structure Tile where
  clk : TileClk := {}
  cfg : TileCfg := {}
  sp : SMap Byte := []
  hq : SMap (List (BitVec 32)) := []
  mtx : Matrix := {}
  vec : Vector := {}
  row : RowEng := {}
  /-- generator states (R90); 1 is the Cold value -/
  gens : SMap Nat := []
  flags : BitVec 16 := 0
  fab : Fabric := {}
  nests : SMap Nest := []
  fault : NestFault := {}
  mp : MsgPort := {}
  cg : Groups := {}
  /-- units stopped by a CONTEXT error (R352) -/
  stopped : List TUnit := []
  /-- consecutive waits of each requester (R36) -/
  waits : SMap Nat := []
  /-- the line last returned to each requester; none where its last read returned nothing or nothing
  usable (R39, R41; the model's own) -/
  ret : SMap (Option (List Byte)) := []
  /-- pops of a handle queue: the tile cycle of the last, and how many that cycle has seen (R54; the
  model's own) -/
  pops : SMap (Nat × Nat) := []
  /-- flags that an engine has set in tile cycle `flagCyc` (R63; the model's own) -/
  flagCyc : Nat := 0
  flagNew : BitVec 16 := 0
  /-- a firing has begun in this tile cycle (R333; the model's own) -/
  fired : Bool := false
  deriving DecidableEq, Repr

/-- A cold tile (R61: OFF). -/
def Tile.cold : Tile := {}

/-! ## Contexts (chapters 10 and 11) -/

/-- `CTX_STATE.STATE` (R312, R334). -/
inductive CState where
  | free
  | bound
  | running
  | preempting
  | preempted
  | restarting
  | teardown
  deriving DecidableEq, Repr

/-- A mould: first and last global logical column, first and last die row (R271). -/
structure Mould where
  x0 : Nat
  x1 : Nat
  dy0 : Nat
  dy1 : Nat
  deriving DecidableEq, Repr

/-- The handling of a restart or teardown that the management die drives (R356, R314). -/
structure Handling where
  /-- step in progress, 1 to 6 of R356 or 1 to 5 of R314; 0: none -/
  step : Nat := 0
  start : Nat := 0
  /-- tiles whose step completion is awaited -/
  waiting : List Nat := []
  /-- an error was queued after the end of step 3 (R354) -/
  again : Bool := false
  /-- a tile raised SCRUB_FAIL (R359) -/
  scrubFail : Bool := false
  /-- part of a device restart (R361) -/
  device : Bool := false
  deriving DecidableEq, Repr

/-- One context as the management die holds it (R312 to R334, R352 to R356). -/
structure Ctx where
  st : CState := .free
  mould : Option Mould := none
  /-- a casting is live (R272) -/
  live : Bool := false
  restarts : Nat := 0
  pend : Bool := false
  /-- a PREEMPT held while the pour is RECASTING (R312) -/
  held : Bool := false
  /-- time at which the drain began (R329) -/
  drainAt : Nat := 0
  /-- the fence of the mould stands (R303, R304, R356) -/
  fence : Bool := false
  /-- start of the hold being measured (R327) -/
  holdAt : Option Nat := none
  lastF : Nat := 0
  /-- entry tiles that are armed: their disarm is not acknowledged (R327) -/
  armedAt : List Nat := []
  /-- those of them that have been sent their disarm notice (R327) -/
  noticed : List Nat := []
  /-- entry tiles whose arm acknowledgement is awaited (R327) -/
  armWait : List Nat := []
  /-- time of the last release of held requests (R327) -/
  releasedAt : Nat := 0
  /-- what the arming serves: 0 nothing; 1 a recast; 2 a restart (R302, R356) -/
  armFor : Nat := 0
  /-- round table: GID·256 + ROUND to the decision, 1 commit, 2 abort (R481) -/
  rounds : SMap Nat := []
  /-- what is accounted (R333), since CREATE: 0 to 2 bytes of the tiers, 3 to 10 of the Laniem ports, 16 + h engine
  time on half h in 2^-16 ns; since the last update: 64 + h engine cycles in half h, 128 + h those of every context, 192 + d bytes
  moved on stack d, 224 + d those of every context -/
  acct : SMap Nat := []
  /-- clock floor of the live casting in MHz (R274) -/
  floor : Nat := 0
  handling : Handling := {}
  deriving DecidableEq, Repr

/-- Device restart and FATAL stop (R355, R361, R362). -/
structure DevStop where
  /-- a device restart is in progress, since when -/
  restart : Option Nat := none
  /-- an error was queued with it after step 3 (R353) -/
  queued : Bool := false
  fatal : Bool := false
  deriving DecidableEq, Repr

/-! ## Laniem ports (chapter 14) -/

/-- An event record waiting at a port (R444). -/
structure EvRec where
  words : List Word
  deriving DecidableEq, Repr

/-- Port states (R426), in the order of `LNM_STAT.LSTATE`. -/
inductive LState where
  | disabled
  | dark
  | lock
  | eq
  | align
  | hello
  | up
  | down
  deriving DecidableEq, Repr

/-- Roles (R430). -/
inductive Role where
  | none
  | control
  | peer
  deriving DecidableEq, Repr

/-- A packet waiting to leave (R443): its TYPE, its source (0 to 7 a context, 8 the management
die), and the tile message that its entry into the replay buffer answers (R442). -/
structure OutPkt where
  typ : Nat
  src : Nat
  pk : LnmPkt
  ackOf : Option Msg := none
  deriving DecidableEq, Repr

/-- A partner message, complete or in assembly (R438). -/
structure InWrite where
  tctx : Nat
  tag : Nat
  ackreq : Bool
  target : Word
  /-- packets placed so far -/
  pkts : Nat
  bytes : List Byte
  /-- a tier write (R440) -/
  tier : Bool := false
  deriving DecidableEq, Repr

/-- A WRITE the engine has issued and not seen answered (R438, R439). -/
structure Issued where
  msg : Msg
  tag : Nat
  ackreq : Bool
  /-- the data that follow a STORE descriptor once it is accepted (R440) -/
  data : List Byte := []
  frozenAt : Option Nat := none
  deriving DecidableEq, Repr

/-- A Laniem port and its engine (chapter 14). -/
structure LnmPort where
  st : LState := .disabled
  role : Role := .none
  pkind : Nat := 0
  version : Nat := 0
  cause : Nat := 0
  linkups : Nat := 0
  /-- time at which the state was entered -/
  since : Nat := 0
  /-- the partner's hello record, and AGREED of the last HELLO sent (R429) -/
  partner : Option HelloRec := none
  sentAgreed : Nat := 0
  helloAt : Option Nat := none
  /-- identity of the partner of the last link (R449) -/
  lastId : BitVec 128 := 0
  /-- SEQ of the next packet sent, and the SEQ expected (R433) -/
  txSeq : Nat := 0
  rxSeq : Nat := 0
  nak : Bool := false
  /-- sent packets that ACKSEQ does not cover yet, oldest first -/
  replay : List (Nat × OutPkt) := []
  /-- the next replayed packet, while a replay runs -/
  replayPos : Option Nat := none
  /-- how often in succession the same SEQ has been replayed (R427) -/
  replaySeq : Nat := 0
  replays : Nat := 0
  /-- blocks the partner has granted in all and blocks sent, per VC; its last CRED values (R434) -/
  grant0 : Nat := 0
  grant1 : Nat := 0
  used0 : Nat := 0
  used1 : Nat := 0
  cred0 : Nat := 0
  cred1 : Nat := 0
  /-- blocks of the own receive buffers freed since link-up (R425) -/
  freed0 : Nat := 0
  freed1 : Nat := 0
  sfSeq : Nat := 0
  /-- 64-byte blocks formed and not yet on the line, oldest first; the superframe sent last: its control
  block and 256 data blocks (R424) -/
  line : List (List Byte) := []
  frame : List (List Byte) := []
  /-- transmit swing step that answers the partner's last request (R427) -/
  swing : Nat := 0
  /-- superframes in succession without a valid control block (R427) -/
  badSf : Nat := 0
  /-- valid control blocks in succession in ALIGN (R426) -/
  goodCtl : Nat := 0
  downReq : Bool := false
  outq : List OutPkt := []
  /-- source served last (R443) -/
  rrSrc : Nat := 8
  /-- complete messages per context, the hold buffers, and the message in assembly (R436, R438) -/
  ctxq : SMap (List InWrite) := []
  holdq : SMap (List InWrite) := []
  asm : Option InWrite := none
  rrCtx : Nat := 7
  issued : List Issued := []
  /-- message packets per context that wait for the context's turn (R438) -/
  cur : SMap (List Packet) := []
  nextTag : Nat := 0
  /-- an attestation request of this port waits or is being answered (R447) -/
  attBusy : Bool := false
  /-- grants: TID·16 + window to lines and granting context (R437) -/
  grants : SMap (Nat × Nat) := []
  /-- tile writes to DOWNMODE 1 windows that wait for a link (R448) -/
  held : List Msg := []
  evq : List EvRec := []
  evseq : Nat := 0
  deriving DecidableEq, Repr

/-! ## Castings (chapter 09) -/

/-- A configuration session (R446): its port, the credit granted and spent in bytes, the bytes the
configuration engine has consumed, and whether its stream is over. -/
structure Session where
  port : Nat
  spent : Nat := 0
  /-- bytes the configuration engine has consumed, and credit granted in all (R446) -/
  consumed : Nat := 0
  granted : Nat := 65536
  ended : Bool := false
  deriving DecidableEq, Repr

/-- The pour of one context (R292). -/
structure Pour where
  st : PourSt := .idle
  /-- stream bytes received and not yet taken -/
  inb : List Byte := []
  hdr : List Byte := []
  segs : Nat := 0
  /-- tags of the segments that have passed -/
  tags : List Byte := []
  /-- plaintext body words: those executed, newest first; those verified and not executed -/
  done : List Word := []
  words : List Word := []
  far : Option Nat := none
  /-- frames of the current WRITE_FRAMES still to be written -/
  left : Nat := 0
  moulded : Bool := false
  armed : Bool := false
  ended : Bool := false
  finalOk : Bool := false
  closed : Bool := false
  auto : Bool := false
  group : Nat := 0
  /-- coordinator, its counter SC and its round when ARM executed (R348) -/
  coord : Nat := 0
  sc : Nat := 0
  round : Nat := 0
  /-- row-0 tiles whose die column has finished fill and read-back; those staged with the group -/
  cols : List Nat := []
  acked : List Nat := []
  /-- row-0 tiles of the die columns whose read-back failed (R293) -/
  bad : List Nat := []
  /-- tiles that have not exchanged (R302) -/
  pending : List Nat := []
  lastByteAt : Nat := 0
  commitAt : Nat := 0
  deriving DecidableEq, Repr

/-- The configuration engine: pours and sessions by context (R292, R446). -/
structure Casting where
  pours : SMap Pour := []
  sess : SMap (Option Session) := []
  deriving DecidableEq, Repr

/-! ## Gradient export (chapter 12) -/

/-- A record that waits for its port (R383, R386). -/
structure GxRec where
  port : Nat
  ctx : Nat
  stream : Nat
  addr : Word
  bytes : List Byte
  deriving DecidableEq, Repr

/-- A gradient export engine (R378): its formed records, oldest first. -/
structure GxEngine where
  held : List GxRec := []
  deriving DecidableEq, Repr

/-! ## Memory movers and tiers (chapter 13) -/

/-- A WRITE of a LOAD that is not settled (R403, R406). -/
structure MovWrite where
  msg : Msg
  frozenAt : Option Nat := none
  deriving DecidableEq, Repr

/-- An accepted descriptor (R401): its source and context, its eight words, how far it has got. -/
structure Desc where
  src : Nat
  ctx : Nat
  ws : List Word
  /-- the mover's count of acceptances when it accepted the descriptor (R407) -/
  seq : Nat := 0
  /-- bytes read (LOAD) or received and written (STORE) -/
  pos : Nat := 0
  /-- data messages of a STORE not wholly written, oldest first, each with its acceptance; bytes of the first
  that are written (R404, R408) -/
  fill : List (Nat × Msg) := []
  part : Nat := 0
  /-- bytes read and not yet sent -/
  buf : List Byte := []
  /-- bytes handed to WRITEs -/
  sent : Nat := 0
  writes : List MovWrite := []
  /-- old contents of granules that a later STORE overwrote before this LOAD read them (R407):
  device address to byte + 1 -/
  old : SMap Nat := []
  /-- those of them that held an uncorrectable error: device addresses (R407, R419) -/
  oldBad : List Nat := []
  /-- a descriptor accepted earlier from its source for its context has ended without completing (R405) -/
  spoiled : Bool := false
  /-- complete, its staged acknowledgement waits for earlier descriptors (R405) -/
  done : Bool := false
  deriving DecidableEq, Repr

/-- A memory mover (R397 to R410). -/
structure Mover where
  queue : List Desc := []
  /-- descriptors and data messages accepted so far (R407) -/
  seq : Nat := 0
  tag : Nat := 0
  /-- increments sent, kept for a FROZEN answer (R219) -/
  incs : List MovWrite := []
  /-- source·8 + context: a descriptor ended without completing since the context's restart (R405) -/
  ended : SMap Bool := []
  /-- grants: TID·16 + window to lines and granting context (R409) -/
  grants : SMap (Nat × Nat) := []
  /-- context served last, and the source served last of each context (R408) -/
  rrCtx : Nat := 7
  rrSrc : SMap Nat := []
  deriving DecidableEq, Repr

/-- An HBM stack (R412, R413, R420). -/
structure Hbm where
  trained : Bool := false
  /-- its memory has ceased to be usable (R410) -/
  failed : Bool := false
  temp : Nat := 0
  refrate : Nat := 0
  sr : Bool := false
  deriving DecidableEq, Repr

/-- A DDR5 channel (R414, R415, R420). -/
structure Ddr where
  found : Bool := false
  trained : Bool := false
  /-- its memory has ceased to be usable (R410) -/
  failed : Bool := false
  size : Nat := 0
  speed : Nat := 0
  sr : Bool := false
  temp : Nat := 0
  refrate : Nat := 0
  deriving DecidableEq, Repr

/-- States of a CXL link (R417), in the order of `CXL_LSTAT.STATE`. -/
inductive CxlSt where
  | empty
  | enumerating
  | ready
  | online
  | offlining
  | rejected
  deriving DecidableEq, Repr

/-- A CXL link (R416, R417, R420). -/
structure Cxl where
  st : CxlSt := .empty
  /-- the link rests in L1 (R466) -/
  l1 : Bool := false
  width : Nat := 0
  rate : Bool := false
  cap : Nat := 0
  lat : Nat := 0
  deriving DecidableEq, Repr

/-- The three tiers (chapter 13). -/
structure Tiers where
  hbm : SMap Hbm := []
  ddr : SMap Ddr := []
  /-- groups in 4-way mode (R415) -/
  fourWay : SMap Bool := []
  /-- links by 2·port + half -/
  cxl : SMap Cxl := []
  /-- ports in x16 since power-on (`CXL_MAP.SPLIT` = 0), and ports asked to interleave (R416, R420) -/
  wide : SMap Bool := []
  ilv : SMap Bool := []
  /-- ports whose 2-way interleave is in force (R416) -/
  twoWay : SMap Bool := []
  /-- contents: member·2^48 + member address. Members: stack d, channel 32 + c, link 64 + 2·port + half -/
  bytes : SMap Byte := []
  /-- granules that hold an uncorrectable error (R419): member·2^48 + address / 64 -/
  bad : SMap Bool := []
  deriving DecidableEq, Repr

/-! ## Power (chapter 15) -/

/-- One half of a compute die (R454, R461, R470 to R472). -/
structure Half where
  /-- the tile rail is on -/
  on : Bool := false
  /-- F in MHz; 0 while the rail is off -/
  freq : Nat := 0
  /-- the most the power cap loop and the thermal loop let F be -/
  capF : Nat := 700
  thF : Nat := 700
  /-- hottest junction in 0.1 °C, rail power in 0.01 W, energy in µJ, as last measured -/
  tj : Nat := 0
  power : Nat := 0
  energy : Nat := 0
  /-- junction override: 0 none; 1 falling; 2 rising (R472) -/
  hot : Nat := 0
  /-- time of the last override step -/
  stepAt : Nat := 0
  /-- end of the last junction override (R473) -/
  hotEnd : Option Nat := none
  /-- since when the thermal target is missed at the floor, and whether that has been raised (R471) -/
  missFrom : Option Nat := none
  missTold : Bool := false
  /-- the floor above the ceiling has been raised (R458) -/
  floorTold : Bool := false
  /-- an ON = 0 request stands refused (R461) -/
  offReq : Bool := false
  deriving DecidableEq, Repr

/-- An entry to a device state (R468): 1 D-idle or 2 D-standby, and whether it is in its commit phase. -/
structure Entering where
  target : Nat
  commit : Bool := false
  /-- `PWR_WAKE` bits of the wake events latched in the commit phase (R468) -/
  latched : Word := 0
  deriving DecidableEq, Repr

/-- Power management and the nightwatch (R454 to R475). -/
structure Power where
  /-- nightwatch time in ns since 40 V was applied (R474) -/
  nwNs : Nat := 0
  /-- repair map of each die: 16 physical columns, 31 marks an absent one (R66); [] no repair -/
  maps : SMap (List Nat) := []
  /-- spare of each die as die entry byte 11 of R497 names it -/
  spare : SMap Nat := []
  ovrDl : Nat := 0
  halves : SMap Half := []
  /-- 0 D0; 1 D-idle; 2 D-standby -/
  dstate : Nat := 0
  entering : Option Entering := none
  /-- input voltage (0.01 V), current (0.1 A), power (W), energy charged to no context (µJ) -/
  vin : Nat := 0
  iin : Nat := 0
  pin : Nat := 0
  eovh : Nat := 0
  /-- overrides of every half by input current and input voltage: 0 none; 1 in force; 2 rising (R472) -/
  cur : Nat := 0
  vlt : Nat := 0
  /-- since when the current is above 115 A, the voltage outside 35–45 V, within 36–44 V -/
  curFrom : Option Nat := none
  vltFrom : Option Nat := none
  vltOkFrom : Option Nat := none
  /-- end of the last override of every half (R473) -/
  allEnd : Option Nat := none
  /-- since when the cap, and the 110 A limit, is missed, and whether that has been raised (R471, R536) -/
  capFrom : Option Nat := none
  capTold : Bool := false
  ampFrom : Option Nat := none
  ampTold : Bool := false
  /-- alarms that have fired since their last write (R475) -/
  alarm0 : Bool := false
  alarm1 : Bool := false
  /-- since when no condition refuses D-idle (R467) -/
  didleFrom : Option Nat := none
  deriving DecidableEq, Repr

def Power.half (p : Power) (h : Nat) : Half := p.halves.foldr (fun e a => if e.1 = h then e.2 else a) {}

/-- An override of half h is in force, or ended less than 1 ms before time t (R473). -/
def Power.overrideNear (p : Power) (h t : Nat) : Bool :=
  let soon (o : Option Nat) := match o with
    | some e => decide (t < e + 1000000)
    | none => false
  (p.half h).hot != 0 || p.cur != 0 || p.vlt != 0 || soon (p.half h).hotEnd || soon p.allEnd

/-! ## Management die (chapters 16 and 17) -/

/-- Fuses (R491). Unprogrammed after reset: the model's stand-in for what manufacture puts there. -/
structure Fuses where
  seed : BitVec 256 := 0
  id : BitVec 128 := 0
  grade : Nat := 0
  /-- factory repair maps (R66); [] no repair -/
  maps : SMap (List Nat) := []
  /-- field repair records: die to failed physical column + 1 -/
  repairs : SMap Nat := []
  keys : SMap (BitVec 256) := []
  prog : BitVec 8 := 0
  revoked : BitVec 8 := 0
  dbgHash : BitVec 256 := 0
  policy : BitVec 8 := 0
  deriving DecidableEq, Repr

/-- A retained image (R487): generation, Kept register fields by register key, error masks by page. -/
structure Image where
  gen : Nat := 0
  regs : SMap Word := []
  masks : SMap Word := []
  deriving DecidableEq, Repr

/-- A program operation in progress (R492): KIND, INDEX, PVAL and the key data. -/
structure FuseOp where
  kind : Nat
  index : Nat
  pval : Nat
  data : BitVec 256
  deriving DecidableEq, Repr

/-- The device's key pair (R493): the three seeds, and PK.root, which they determine. -/
structure IdKey where
  skSeed : BitVec 128 := 0
  skPrf : BitVec 128 := 0
  pkSeed : BitVec 128 := 0
  pkRoot : BitVec 128 := 0
  deriving DecidableEq, Repr

/-- An attestation request (R494): a port 0 to 7, or 8 the register path. -/
structure AttReq where
  src : Nat
  tctx : Nat := 0
  tag : Nat := 0
  nonce : BitVec 256
  deriving DecidableEq, Repr

/-- A report being signed or ready (R495, R496): who asked, REPORTSEQ, body, signature once signed. -/
structure Report where
  req : AttReq
  seq : Nat
  body : List Byte
  sig : List Byte := []
  deriving DecidableEq, Repr

/-- A register access on one of the ten paths (R506): 0 sideband, 1 JTAG, 2 to 9 Laniem ports; `dbg`:
of a debug window; `ans`: TCTX and TAG of the REGRESP awaited. -/
structure Access where
  path : Nat
  write : Bool
  addr : Nat
  v : Word := 0
  dbg : Bool := false
  ans : Option (Nat × Nat) := none
  deriving DecidableEq, Repr

/-- The management die (R479 to R503, R524). -/
structure Mgt where
  fuses : Fuses := {}
  /-- `MGT_STAT` BOOT, COLD, CAUSE (R503) -/
  boot : Nat := 0
  cold : Bool := false
  cause : Nat := 0
  /-- retained copies A and B, and the copy selected: true B (R487, R488) -/
  copyA : Option Image := none
  copyB : Option Image := none
  selB : Bool := false
  /-- a save in progress with the fields as they stood, and a latched request (R489) -/
  saving : Option Image := none
  saveAgain : Bool := false
  saves : Nat := 0
  retHash : BitVec 256 := 0
  debugged : Bool := false
  /-- measurement slots (R486) -/
  slots : SMap (BitVec 256) := []
  /-- SPI NOR image written through `MGT_FLASH`, and the one being written (R485, R503) -/
  flash : List Byte := []
  flashNew : List Byte := []
  /-- factory certificate chain (R493) -/
  certs : List Byte := []
  /-- the Firmware region of the retained store, at most 1,792 KiB (R487) -/
  fwData : List Byte := []
  /-- the key pair, derived at step 4 of R482 (R493) -/
  idKey : IdKey := {}
  fuseOp : Option FuseOp := none
  fuseResult : Nat := 0
  /-- requests that wait, the report being signed, the report of the register path, reports signed -/
  attQ : List AttReq := []
  signing : Option Report := none
  report : Option Report := none
  reportSeq : Nat := 0
  /-- JTAG: instruction, port unlocked, challenges drawn, time the next is offered (R499, R500) -/
  ir : Nat := 1
  unlocked : Bool := false
  challenges : Nat := 0
  unlockAt : Nat := 0
  /-- accesses that wait, by path, and the one whose tile answer is awaited (R480, R508) -/
  accQ : SMap (List Access) := []
  flying : SMap (Option Access) := []
  /-- the path served last (R508) -/
  turn : Nat := 9
  /-- sideband status and data of the last access (R524) -/
  sbStatus : Nat := 0
  sbData : Word := 0
  /-- the processor's copies of state registers by register key (R498) -/
  copies : SMap Nat := []
  deriving DecidableEq, Repr

/-- Board signals and what the device drives or shifts out (R527 to R539). -/
structure Board where
  v40 : Bool := false
  pwren : Bool := false
  /-- RST_N is high -/
  rstn : Bool := true
  pwrgd : Bool := false
  /-- straps as sampled at step 2 of R482 -/
  sbsel : Bool := false
  sbaddr : Nat := 0
  /-- dynamic I3C address (R530) -/
  da : Option Nat := none
  /-- bytes of the last REG_RESULT read, with the PEC of an SMBus transfer (R524) -/
  sbOut : List Byte := []
  /-- the last transfer was refused after its address: data not acknowledged, or a NACK (R530) -/
  sbNack : Bool := false
  /-- bits shifted out of TDO last, the cells preloaded, EXTEST drives them (R499) -/
  tdo : List Bool := []
  preload : List Bool := []
  extest : Bool := false
  /-- reference clocks that are lost: 0 to 3 CXL, 4 to 7 Laniem, 8 memory (R533, R534) -/
  lostClk : SMap Bool := []
  deriving DecidableEq, Repr

/-! ## The whole machine -/

/-- Why the model stops with a fault. -/
inductive Fault where
  /-- A command names a tile that the part does not have: a die field of 20 or more, or a logical
  column that the die does not expose (R2, R18). Raised by every command over a tile. Safe: the
  device has nothing that could act. -/
  | noSuchTile
  deriving DecidableEq, Repr

/-- Why the model refuses a command. -/
inductive Refusal where
  /-- The command has no meaning yet; `mnemonic` is its row of spec/opcode_table.json. Raised by
  Machine/Dispatch.lean only. Safe: nothing is claimed about the command. -/
  | notModelled (mnemonic : String)
  deriving DecidableEq, Repr

/-- The state of the device. Keys: a tile by TID (R18); a page header by page index (R512); a
device register by page index·512 + offset/8 (R507); a router input by node·16,384 +
the node the packets come from (R193); an inbox by unit address (R209). -/
structure State where
  /-- commands waiting, first in first out (the model's own) -/
  pending : List Instr := []
  /-- wall time in ns (the model's own; R8) -/
  time : Nat := 0
  /-- counts the opaque values taken (the model's own) -/
  freeCtr : Nat := 0
  tiles : SMap Tile := []
  ctxs : SMap Ctx := []
  hdrs : SMap Hdr := []
  stats : SMap Nat := []
  dev : SMap Word := []
  log : ErrLog := {}
  /-- by register key, W1C and W1S bits that hardware has set, with the time (R509; the model's own) -/
  fresh : SMap (Nat × Word) := []
  /-- packets in router input queues -/
  routers : SMap (List Packet) := []
  /-- round-robin pointers: node·16,384 + the next node, to the input served last (R193) -/
  rr : SMap Nat := []
  inbox : SMap (List InMsg) := []
  stop : DevStop := {}
  lnm : SMap LnmPort := []
  cast : Casting := {}
  gx : SMap GxEngine := []
  /-- mask words of the gradient streams, context·4,096 + word (R381) -/
  gxMask : SMap Word := []
  mov : SMap Mover := []
  mem : Tiers := {}
  pwr : Power := {}
  mgt : Mgt := {}
  brd : Board := {}
  deriving DecidableEq, Repr

/-- The device right after reset (R9, R11): every register at its Cold value, every queue empty,
tiles OFF, contexts FREE; before the boot of R482, which POWER_ENABLE and RESET_DEASSERT run. -/
def State.reset : State := {}

end Sys2Proof.Machine
end

