-- ==== Sys2Proof/Machine/Errors.lean ====
section
/-! DEFINITION.
Every error of the device with its `PG_ERR` bit and class: the error tables of R65, R102, R131,
R165, R208, R246, R270, R311, R335, R370, R394, R421, R452, R478, R504, R525 and R534. -/

namespace Sys2Proof.Machine

/-- The errors of the device. PROGRESS of the TCT page is `fabProgress` (R208), that of the TSC
page `chProgress` (R246). The HBM entries serve the DDR and CXL pages too (R421). -/
inductive Err where
  /-- SP_CORRECTED of the TSP page (R65) -/
  | spCorrected
  /-- SP_UNCORRECTABLE of the TSP page (R65) -/
  | spUncorrectable
  /-- BANK_CONFLICT of the TSP page (R65) -/
  | bankConflict
  /-- BANK_OFF of the TSP page (R65) -/
  | bankOff
  /-- SP_ALIGN of the TSP page (R65) -/
  | spAlign
  /-- WIN_BOUNDS of the TSP page (R65) -/
  | winBounds
  /-- WIN_FOREIGN of the TSP page (R65) -/
  | winForeign
  /-- WIN_CLASS of the TSP page (R65) -/
  | winClass
  /-- WIN_CLOSED of the TSP page (R65) -/
  | winClosed
  /-- HQ_OVERFLOW of the TSP page (R65) -/
  | hqOverflow
  /-- HANDLE_BOUNDS of the TSP page (R65) -/
  | handleBounds
  /-- WIN_ENTRY of the TSP page (R65) -/
  | winEntry
  /-- CFG_CORRECTED of the TCT page (R65) -/
  | cfgCorrected
  /-- CFG_UNCORRECTABLE of the TCT page (R65) -/
  | cfgUncorrectable
  /-- CFG_ACCESS of the TCT page (R65) -/
  | cfgAccess
  /-- FMT_RESERVED of the TEN page (R102) -/
  | fmtReserved
  /-- FMT_UNDEFINED of the TEN page (R102) -/
  | fmtUndefined
  /-- MX_ALIGN of the TEN page (R102) -/
  | mxAlign
  /-- MTX_FORMAT of the TEN page (R131) -/
  | mtxFormat
  /-- MTX_SPLIT_ORDER of the TEN page (R131) -/
  | mtxSplitOrder
  /-- MTX_STATE of the TEN page (R131) -/
  | mtxState
  /-- ACC_CORRECTED of the TEN page (R131) -/
  | accCorrected
  /-- ACC_UNCORRECTABLE of the TEN page (R131) -/
  | accUncorrectable
  /-- VEC_FORMAT of the TEN page (R165) -/
  | vecFormat
  /-- CURVE_UNDEFINED of the TEN page (R165) -/
  | curveUndefined
  /-- VLEN_RANGE of the TEN page (R165) -/
  | vlenRange
  /-- ROW_FORMAT of the TEN page (R165) -/
  | rowFormat
  /-- ROW_SIDE of the TEN page (R165) -/
  | rowSide
  /-- ROW_STATS of the TEN page (R165) -/
  | rowStats
  /-- SIDE_CORRECTED of the TEN page (R165) -/
  | sideCorrected
  /-- SIDE_UNCORRECTABLE of the TEN page (R165) -/
  | sideUncorrectable
  /-- PROGRESS of the TCT page (R208) -/
  | fabProgress
  /-- STEER_TAG of the TCT page (R208) -/
  | steerTag
  /-- STEER_SEQ of the TCT page (R208) -/
  | steerSeq
  /-- SLOT_MIX of the TCT page (R208) -/
  | slotMix
  /-- MARK_STRAY of the TCT page (R208) -/
  | markStray
  /-- MSG_DEST of the TSC page (R246) -/
  | msgDest
  /-- MSG_OP of the TSC page (R246) -/
  | msgOp
  /-- MSG_CORRECTED of the TSC page (R246) -/
  | msgCorrected
  /-- MSG_UNCORRECTABLE of the TSC page (R246) -/
  | msgUncorrectable
  /-- MSG_HEADER of the TSC page (R246) -/
  | msgHeader
  /-- CNT_FOREIGN of the TSC page (R246) -/
  | cntForeign
  /-- CNT_SATURATED of the TSC page (R246) -/
  | cntSaturated
  /-- WAIT_FULL of the TSC page (R246) -/
  | waitFull
  /-- CNT_EPOCH of the TSC page (R246) -/
  | cntEpoch
  /-- OWNER_LOST of the TSC page (R246) -/
  | ownerLost
  /-- CNT_HANDSET of the TSC page (R246) -/
  | cntHandset
  /-- CNT_RESIDUE of the TSC page (R246) -/
  | cntResidue
  /-- CH_TOOLONG of the TSC page (R246) -/
  | chToolong
  /-- CH_CREDIT of the TSC page (R246) -/
  | chCredit
  /-- PROGRESS of the TSC page (R246) -/
  | chProgress
  /-- CG_SETUP of the TSC page (R370) -/
  | cgSetup
  /-- CG_TIMEOUT of the TSC page (R370) -/
  | cgTimeout
  /-- WAIT_REFUSED of the TSC page (R246) -/
  | waitRefused
  /-- ACC_OVERFLOW of the TCT page (R270) -/
  | accOverflow
  /-- NEST_BOUNDS of the TCT page (R270) -/
  | nestBounds
  /-- NEST_WORD of the TCT page (R270) -/
  | nestWord
  /-- CAST_FORMAT of the CFG page (R311) -/
  | castFormat
  /-- CAST_VERSION of the CFG page (R311) -/
  | castVersion
  /-- CAST_KEY of the CFG page (R311) -/
  | castKey
  /-- CAST_PLAINTEXT of the CFG page (R311) -/
  | castPlaintext
  /-- CAST_TAG of the CFG page (R311) -/
  | castTag
  /-- CAST_MOULD of the CFG page (R311) -/
  | castMould
  /-- CAST_GEOMETRY of the CFG page (R311) -/
  | castGeometry
  /-- CAST_BUSY of the CFG page (R311) -/
  | castBusy
  /-- CAST_PARTIAL_BASE of the CFG page (R311) -/
  | castPartialBase
  /-- CAST_OUT_OF_MOULD of the CFG page (R311) -/
  | castOutOfMould
  /-- CAST_CREG_INVALID of the CFG page (R311) -/
  | castCregInvalid
  /-- CAST_HASH of the CFG page (R311) -/
  | castHash
  /-- CAST_FABRIC_INVALID of the CFG page (R311) -/
  | castFabricInvalid
  /-- CAST_QUEUE_SPACE of the CFG page (R311) -/
  | castQueueSpace
  /-- CAST_NEST_INVALID of the CFG page (R311) -/
  | castNestInvalid
  /-- CAST_ENGINE_INVALID of the CFG page (R311) -/
  | castEngineInvalid
  /-- CAST_TABLE_INVALID of the CFG page (R311) -/
  | castTableInvalid
  /-- CAST_ROUTE_UNAVAILABLE of the CFG page (R311) -/
  | castRouteUnavailable
  /-- CAST_MARKER of the CFG page (R311) -/
  | castMarker
  /-- CAST_SHADOW_ECC of the CFG page (R311) -/
  | castShadowEcc
  /-- CAST_ABORTED of the CFG page (R311) -/
  | castAborted
  /-- CAST_RECAST_TIMEOUT of the CFG page (R311) -/
  | castRecastTimeout
  /-- CAST_CONTEXT_STATE of the CFG page (R311) -/
  | castContextState
  /-- CMD_STATE of the CTX page (R335) -/
  | cmdState
  /-- SEG_ENTRY of the CTX page (R335) -/
  | segEntry
  /-- PREEMPT_TIMEOUT of the CTX page (R335) -/
  | preemptTimeout
  /-- DEADLINE of the TCT page (R335) -/
  | deadline
  /-- REQ_HEADER of the TCT page (R335) -/
  | reqHeader
  /-- REQ_LATE of the TCT page (R335) -/
  | reqLate
  /-- ENTRY_UNBOUND of the TCT page (R335) -/
  | entryUnbound
  /-- SCRUB_FAIL of the CTX page (R370) -/
  | scrubFail
  /-- RESTART_TIMEOUT of the CTX page (R370) -/
  | restartTimeout
  /-- DEVICE_STUCK of the ERR page (R370) -/
  | deviceStuck
  /-- LOG_OVERFLOW of the ERR page (R370) -/
  | logOverflow
  /-- GX_STREAM of the CTX page (R394) -/
  | gxStream
  /-- GX_FORMAT of the CTX page (R394) -/
  | gxFormat
  /-- GX_SETUP of the CTX page (R394) -/
  | gxSetup
  /-- SEG_VIOLATION of the MOV page (R421) -/
  | segViolation
  /-- MOV_FORMAT of the MOV page (R421) -/
  | movFormat
  /-- MOV_RANGE of the MOV page (R421) -/
  | movRange
  /-- MOV_CREDIT of the MOV page (R421) -/
  | movCredit
  /-- MOV_GRANT_FULL of the MOV page (R421) -/
  | movGrantFull
  /-- MEM_CORRECTED of the HBM page (R421) -/
  | memCorrected
  /-- MEM_UNCORRECTABLE of the HBM page (R421) -/
  | memUncorrectable
  /-- MEM_UE_PATROL of the HBM page (R421) -/
  | memUePatrol
  /-- DDR_MAP_FALLBACK of the DDR page (R421) -/
  | ddrMapFallback
  /-- EXPANDER_REMOVED of the CXL page (R421) -/
  | expanderRemoved
  /-- CXL_BUSY of the CXL page (R421) -/
  | cxlBusy
  /-- CXL_REJECTED of the CXL page (R421) -/
  | cxlRejected
  /-- LNM_LINK_DOWN of the LNM page (R452) -/
  | lnmLinkDown
  /-- LNM_PROTO of the LNM page (R452) -/
  | lnmProto
  /-- LNM_REFUSED of the LNM page (R452) -/
  | lnmRefused
  /-- LNM_GRANT_FULL of the LNM page (R452) -/
  | lnmGrantFull
  /-- LNM_EGRESS of the LNM page (R452) -/
  | lnmEgress
  /-- LNM_SETUP of the LNM page (R452) -/
  | lnmSetup
  /-- PWR_OVERRIDE of the PWR page (R478) -/
  | pwrOverride
  /-- PWR_REFUSED of the PWR page (R478) -/
  | pwrRefused
  /-- BOUND_CONFLICT of the PWR page (R478) -/
  | boundConflict
  /-- PWR_SETUP of the PWR page (R478) -/
  | pwrSetup
  /-- THERM_TRIP of the PWR page (R478) -/
  | thermTrip
  /-- VIN_FAULT of the PWR page (R478) -/
  | vinFault
  /-- REFCLK_LOSS of the PWR page (R534) -/
  | refclkLoss
  /-- CLK_GUARD of the TCT page (R478) -/
  | clkGuard
  /-- STATE_MISMATCH of the MGT page (R504) -/
  | stateMismatch
  /-- RET_RESTORE of the MGT page (R504) -/
  | retRestore
  /-- RET_SAVE_FAIL of the MGT page (R504) -/
  | retSaveFail
  /-- DBG_DENIED of the MGT page (R504) -/
  | dbgDenied
  /-- MGT_WATCHDOG of the MGT page (R504) -/
  | mgtWatchdogErr
  /-- REG_ACCESS of the MGT page (R525) -/
  | regAccess
  /-- FUS_REFUSED of the FUS page (R504) -/
  | fusRefused
  /-- FUS_PROG_FAIL of the FUS page (R504) -/
  | fusProgFail
  /-- ATT_BUSY of the ATT page (R504) -/
  | attBusy
  /-- ATT_SLOT of the ATT page (R504) -/
  | attSlot
  deriving DecidableEq, Repr

/-- Bit of the error in its page's `PG_ERR`. -/
def Err.bit : Err → Nat
  | .spCorrected => 0
  | .spUncorrectable => 1
  | .bankConflict => 2
  | .bankOff => 3
  | .spAlign => 4
  | .winBounds => 5
  | .winForeign => 6
  | .winClass => 7
  | .winClosed => 8
  | .hqOverflow => 9
  | .handleBounds => 10
  | .winEntry => 11
  | .cfgCorrected => 0
  | .cfgUncorrectable => 1
  | .cfgAccess => 2
  | .fmtReserved => 0
  | .fmtUndefined => 1
  | .mxAlign => 2
  | .mtxFormat => 3
  | .mtxSplitOrder => 4
  | .mtxState => 5
  | .accCorrected => 6
  | .accUncorrectable => 7
  | .vecFormat => 8
  | .curveUndefined => 9
  | .vlenRange => 10
  | .rowFormat => 11
  | .rowSide => 12
  | .rowStats => 13
  | .sideCorrected => 14
  | .sideUncorrectable => 15
  | .fabProgress => 3
  | .steerTag => 4
  | .steerSeq => 5
  | .slotMix => 6
  | .markStray => 7
  | .msgDest => 0
  | .msgOp => 1
  | .msgCorrected => 2
  | .msgUncorrectable => 3
  | .msgHeader => 4
  | .cntForeign => 5
  | .cntSaturated => 6
  | .waitFull => 7
  | .cntEpoch => 8
  | .ownerLost => 9
  | .cntHandset => 10
  | .cntResidue => 11
  | .chToolong => 12
  | .chCredit => 13
  | .chProgress => 14
  | .cgSetup => 15
  | .cgTimeout => 16
  | .waitRefused => 17
  | .accOverflow => 8
  | .nestBounds => 9
  | .nestWord => 10
  | .castFormat => 0
  | .castVersion => 1
  | .castKey => 2
  | .castPlaintext => 3
  | .castTag => 4
  | .castMould => 5
  | .castGeometry => 6
  | .castBusy => 7
  | .castPartialBase => 8
  | .castOutOfMould => 9
  | .castCregInvalid => 10
  | .castHash => 11
  | .castFabricInvalid => 12
  | .castQueueSpace => 13
  | .castNestInvalid => 14
  | .castEngineInvalid => 15
  | .castTableInvalid => 16
  | .castRouteUnavailable => 17
  | .castMarker => 18
  | .castShadowEcc => 19
  | .castAborted => 20
  | .castRecastTimeout => 21
  | .castContextState => 22
  | .cmdState => 0
  | .segEntry => 1
  | .preemptTimeout => 2
  | .deadline => 11
  | .reqHeader => 12
  | .reqLate => 13
  | .entryUnbound => 14
  | .scrubFail => 3
  | .restartTimeout => 4
  | .deviceStuck => 0
  | .logOverflow => 1
  | .gxStream => 5
  | .gxFormat => 6
  | .gxSetup => 7
  | .segViolation => 0
  | .movFormat => 1
  | .movRange => 2
  | .movCredit => 3
  | .movGrantFull => 4
  | .memCorrected => 0
  | .memUncorrectable => 1
  | .memUePatrol => 2
  | .ddrMapFallback => 3
  | .expanderRemoved => 3
  | .cxlBusy => 4
  | .cxlRejected => 5
  | .lnmLinkDown => 0
  | .lnmProto => 1
  | .lnmRefused => 2
  | .lnmGrantFull => 3
  | .lnmEgress => 4
  | .lnmSetup => 5
  | .pwrOverride => 0
  | .pwrRefused => 1
  | .boundConflict => 2
  | .pwrSetup => 3
  | .thermTrip => 4
  | .vinFault => 5
  | .refclkLoss => 6
  | .clkGuard => 15
  | .stateMismatch => 0
  | .retRestore => 1
  | .retSaveFail => 2
  | .dbgDenied => 3
  | .mgtWatchdogErr => 4
  | .regAccess => 5
  | .fusRefused => 0
  | .fusProgFail => 1
  | .attBusy => 0
  | .attSlot => 1

/-- Class of the error. -/
def Err.cls : Err → ErrClass
  | .spCorrected => .corrected
  | .spUncorrectable => .context
  | .bankConflict => .context
  | .bankOff => .context
  | .spAlign => .context
  | .winBounds => .context
  | .winForeign => .context
  | .winClass => .context
  | .winClosed => .context
  | .hqOverflow => .context
  | .handleBounds => .context
  | .winEntry => .corrected
  | .cfgCorrected => .corrected
  | .cfgUncorrectable => .context
  | .cfgAccess => .corrected
  | .fmtReserved => .context
  | .fmtUndefined => .context
  | .mxAlign => .context
  | .mtxFormat => .context
  | .mtxSplitOrder => .context
  | .mtxState => .context
  | .accCorrected => .corrected
  | .accUncorrectable => .context
  | .vecFormat => .context
  | .curveUndefined => .context
  | .vlenRange => .context
  | .rowFormat => .context
  | .rowSide => .context
  | .rowStats => .context
  | .sideCorrected => .corrected
  | .sideUncorrectable => .context
  | .fabProgress => .context
  | .steerTag => .context
  | .steerSeq => .context
  | .slotMix => .context
  | .markStray => .context
  | .msgDest => .context
  | .msgOp => .context
  | .msgCorrected => .corrected
  | .msgUncorrectable => .context
  | .msgHeader => .device
  | .cntForeign => .context
  | .cntSaturated => .corrected
  | .waitFull => .context
  | .cntEpoch => .context
  | .ownerLost => .context
  | .cntHandset => .corrected
  | .cntResidue => .corrected
  | .chToolong => .context
  | .chCredit => .context
  | .chProgress => .context
  | .cgSetup => .corrected
  | .cgTimeout => .corrected
  | .waitRefused => .context
  | .accOverflow => .context
  | .nestBounds => .context
  | .nestWord => .context
  | .castFormat => .corrected
  | .castVersion => .corrected
  | .castKey => .corrected
  | .castPlaintext => .corrected
  | .castTag => .corrected
  | .castMould => .corrected
  | .castGeometry => .corrected
  | .castBusy => .corrected
  | .castPartialBase => .corrected
  | .castOutOfMould => .corrected
  | .castCregInvalid => .corrected
  | .castHash => .corrected
  | .castFabricInvalid => .corrected
  | .castQueueSpace => .corrected
  | .castNestInvalid => .corrected
  | .castEngineInvalid => .corrected
  | .castTableInvalid => .corrected
  | .castRouteUnavailable => .corrected
  | .castMarker => .corrected
  | .castShadowEcc => .corrected
  | .castAborted => .corrected
  | .castRecastTimeout => .context
  | .castContextState => .corrected
  | .cmdState => .corrected
  | .segEntry => .corrected
  | .preemptTimeout => .context
  | .deadline => .context
  | .reqHeader => .corrected
  | .reqLate => .corrected
  | .entryUnbound => .context
  | .scrubFail => .context
  | .restartTimeout => .device
  | .deviceStuck => .fatal
  | .logOverflow => .corrected
  | .gxStream => .context
  | .gxFormat => .context
  | .gxSetup => .corrected
  | .segViolation => .context
  | .movFormat => .context
  | .movRange => .context
  | .movCredit => .context
  | .movGrantFull => .context
  | .memCorrected => .corrected
  | .memUncorrectable => .context
  | .memUePatrol => .corrected
  | .ddrMapFallback => .corrected
  | .expanderRemoved => .context
  | .cxlBusy => .corrected
  | .cxlRejected => .corrected
  | .lnmLinkDown => .corrected
  | .lnmProto => .corrected
  | .lnmRefused => .corrected
  | .lnmGrantFull => .context
  | .lnmEgress => .context
  | .lnmSetup => .corrected
  | .pwrOverride => .corrected
  | .pwrRefused => .corrected
  | .boundConflict => .corrected
  | .pwrSetup => .corrected
  | .thermTrip => .fatal
  | .vinFault => .fatal
  | .refclkLoss => .fatal
  | .clkGuard => .context
  | .stateMismatch => .corrected
  | .retRestore => .corrected
  | .retSaveFail => .corrected
  | .dbgDenied => .corrected
  | .mgtWatchdogErr => .fatal
  | .regAccess => .corrected
  | .fusRefused => .corrected
  | .fusProgFail => .corrected
  | .attBusy => .corrected
  | .attSlot => .corrected

/-- The page kind that reports the error; a tile error goes to the tile's own page k (R29). -/
def Err.kind : Err → Kind
  | .spCorrected => .tsp
  | .spUncorrectable => .tsp
  | .bankConflict => .tsp
  | .bankOff => .tsp
  | .spAlign => .tsp
  | .winBounds => .tsp
  | .winForeign => .tsp
  | .winClass => .tsp
  | .winClosed => .tsp
  | .hqOverflow => .tsp
  | .handleBounds => .tsp
  | .winEntry => .tsp
  | .cfgCorrected => .tct
  | .cfgUncorrectable => .tct
  | .cfgAccess => .tct
  | .fmtReserved => .ten
  | .fmtUndefined => .ten
  | .mxAlign => .ten
  | .mtxFormat => .ten
  | .mtxSplitOrder => .ten
  | .mtxState => .ten
  | .accCorrected => .ten
  | .accUncorrectable => .ten
  | .vecFormat => .ten
  | .curveUndefined => .ten
  | .vlenRange => .ten
  | .rowFormat => .ten
  | .rowSide => .ten
  | .rowStats => .ten
  | .sideCorrected => .ten
  | .sideUncorrectable => .ten
  | .fabProgress => .tct
  | .steerTag => .tct
  | .steerSeq => .tct
  | .slotMix => .tct
  | .markStray => .tct
  | .msgDest => .tsc
  | .msgOp => .tsc
  | .msgCorrected => .tsc
  | .msgUncorrectable => .tsc
  | .msgHeader => .tsc
  | .cntForeign => .tsc
  | .cntSaturated => .tsc
  | .waitFull => .tsc
  | .cntEpoch => .tsc
  | .ownerLost => .tsc
  | .cntHandset => .tsc
  | .cntResidue => .tsc
  | .chToolong => .tsc
  | .chCredit => .tsc
  | .chProgress => .tsc
  | .cgSetup => .tsc
  | .cgTimeout => .tsc
  | .waitRefused => .tsc
  | .accOverflow => .tct
  | .nestBounds => .tct
  | .nestWord => .tct
  | .castFormat => .cfg
  | .castVersion => .cfg
  | .castKey => .cfg
  | .castPlaintext => .cfg
  | .castTag => .cfg
  | .castMould => .cfg
  | .castGeometry => .cfg
  | .castBusy => .cfg
  | .castPartialBase => .cfg
  | .castOutOfMould => .cfg
  | .castCregInvalid => .cfg
  | .castHash => .cfg
  | .castFabricInvalid => .cfg
  | .castQueueSpace => .cfg
  | .castNestInvalid => .cfg
  | .castEngineInvalid => .cfg
  | .castTableInvalid => .cfg
  | .castRouteUnavailable => .cfg
  | .castMarker => .cfg
  | .castShadowEcc => .cfg
  | .castAborted => .cfg
  | .castRecastTimeout => .cfg
  | .castContextState => .cfg
  | .cmdState => .ctx
  | .segEntry => .ctx
  | .preemptTimeout => .ctx
  | .deadline => .tct
  | .reqHeader => .tct
  | .reqLate => .tct
  | .entryUnbound => .tct
  | .scrubFail => .ctx
  | .restartTimeout => .ctx
  | .deviceStuck => .err
  | .logOverflow => .err
  | .gxStream => .ctx
  | .gxFormat => .ctx
  | .gxSetup => .ctx
  | .segViolation => .mov
  | .movFormat => .mov
  | .movRange => .mov
  | .movCredit => .mov
  | .movGrantFull => .mov
  | .memCorrected => .hbm
  | .memUncorrectable => .hbm
  | .memUePatrol => .hbm
  | .ddrMapFallback => .ddr
  | .expanderRemoved => .cxl
  | .cxlBusy => .cxl
  | .cxlRejected => .cxl
  | .lnmLinkDown => .lnm
  | .lnmProto => .lnm
  | .lnmRefused => .lnm
  | .lnmGrantFull => .lnm
  | .lnmEgress => .lnm
  | .lnmSetup => .lnm
  | .pwrOverride => .pwr
  | .pwrRefused => .pwr
  | .boundConflict => .pwr
  | .pwrSetup => .pwr
  | .thermTrip => .pwr
  | .vinFault => .pwr
  | .refclkLoss => .pwr
  | .clkGuard => .tct
  | .stateMismatch => .mgt
  | .retRestore => .mgt
  | .retSaveFail => .mgt
  | .dbgDenied => .mgt
  | .mgtWatchdogErr => .mgt
  | .regAccess => .mgt
  | .fusRefused => .fus
  | .fusProgFail => .fus
  | .attBusy => .att
  | .attSlot => .att

/-- The bits of a page's `PG_ERR` whose errors are CORRECTED, those that its mask can suppress (R367). -/
def Kind.corrected : Kind → Nat
  | .mgt => 47
  | .fus => 3
  | .att => 3
  | .err => 2
  | .pwr => 15
  | .cfg => 6291455
  | .ctx => 131
  | .mov => 0
  | .hbm => 5
  | .ddr => 13
  | .cxl => 49
  | .lnm => 39
  | .tct => 12293
  | .tsp => 2049
  | .tsc => 101444
  | .ten => 16448

end Sys2Proof.Machine
end

