-- ==== Sys2Proof/Machine/Ops.lean ====
section
/-! DEFINITION.
The named operations every meaning is written over: sparse maps, bit fields, tiles and their
registers, wall time and tile cycles, messages, event records, and the raising of an error. -/

namespace Sys2Proof

/-- Read a sparse map; an unlisted key reads as `d`. -/
def SMap.get {α : Type} : SMap α → Nat → α → α
  | [], _, d => d
  | (j, v) :: m, k, d => if k = j then v else SMap.get m k d

/-- List a value under a key, the keys rising. -/
def SMap.ins {α : Type} : SMap α → Nat → α → SMap α
  | [], k, v => [(k, v)]
  | (j, w) :: m, k, v =>
    if k < j then (k, v) :: (j, w) :: m
    else if k = j then (k, v) :: m
    else (j, w) :: SMap.ins m k v

/-- Write a sparse map, keeping its canonical form: keys rise, and a value equal to the key's
default `d` is not listed. -/
def SMap.put {α : Type} [DecidableEq α] (m : SMap α) (k : Nat) (v d : α) : SMap α :=
  if v = d then m.filter (fun e => e.1 != k) else m.ins k v

/-- Change one entry of a sparse map. -/
def SMap.upd {α : Type} [DecidableEq α] (m : SMap α) (k : Nat) (d : α) (f : α → α) : SMap α :=
  m.put k (f (m.get k d)) d

/-- The canonical form: keys rise and no entry equals its key's default. -/
def SMap.wf {α : Type} [DecidableEq α] (d : Nat → α) : SMap α → Bool
  | [] => true
  | (j, v) :: m => v != d j && (match m with | [] => true | (k, _) :: _ => decide (j < k)) && SMap.wf d m

end Sys2Proof

namespace Sys2Proof.Machine

/-! ## Bit fields -/

/-- Bits [lo + n − 1 : lo] of a register. -/
def fld (w : Word) (lo n : Nat) : Nat := w.toNat / 2 ^ lo % 2 ^ n

/-- One bit of a register. -/
def bit (w : Word) (i : Nat) : Bool := w.toNat / 2 ^ i % 2 == 1

/-- A signed field. -/
def sfld (w : Word) (lo n : Nat) : Int := signedOf n (fld w lo n)

/-- Replace bits [lo + n − 1 : lo]. -/
def setFld (w : Word) (lo n v : Nat) : Word :=
  let x := w.toNat
  BitVec.ofNat 64 (x - fld w lo n * 2 ^ lo + v % 2 ^ n * 2 ^ lo)

/-- Pack fields (width, value) from bit 0 upward. -/
def pack : List (Nat × Nat) → Nat
  | [] => 0
  | (n, v) :: fs => v % 2 ^ n + 2 ^ n * pack fs

/-- The same as a register word. -/
def packW (fs : List (Nat × Nat)) : Word := BitVec.ofNat 64 (pack fs)

/-- A Bool as a field value. -/
def b2n (b : Bool) : Nat := if b then 1 else 0

/-- min for a saturating field. -/
def satTo (top v : Nat) : Nat := if v > top then top else v

/-- Little-endian bytes of a number. -/
def leBytes : Nat → Nat → List Byte
  | 0, _ => []
  | n + 1, v => BitVec.ofNat 8 v :: leBytes n (v / 256)

/-- The number little-endian bytes spell. -/
def leNat : List Byte → Nat
  | [] => 0
  | b :: bs => b.toNat + 256 * leNat bs

/-- ⌈a / b⌉. -/
def cdiv (a b : Nat) : Nat := (a + b - 1) / b

/-! ## Tiles (R2, R17, R18, R66) -/

def State.tile (s : State) (t : Nat) : Tile := s.tiles.get t Tile.cold

def State.setTile (s : State) (t : Nat) (x : Tile) : State :=
  { s with tiles := s.tiles.put t x Tile.cold }

def State.onTile (s : State) (t : Nat) (f : Tile → Tile) : State := s.setTile t (f (s.tile t))

def State.ctx (s : State) (c : Nat) : Ctx := s.ctxs.get c {}

def State.onCtx (s : State) (c : Nat) (f : Ctx → Ctx) : State :=
  { s with ctxs := s.ctxs.upd c {} f }

/-- The map of a die without repair (R66). -/
def noRepair : List Nat := [0, 1, 2, 3, 4, 5, 6, 7, 9, 10, 11, 12, 13, 14, 15, 16]

/-- Physical column of a die's logical column; 31 marks it absent (R66). -/
def State.physCol (s : State) (die col : Nat) : Nat :=
  match s.pwr.maps.get die [] with
  | [] => noRepair.getD col 31
  | m => m.getD col 31

def tidDie (t : Nat) : Nat := t / 256
def tidRow (t : Nat) : Nat := t / 16 % 16
def tidCol (t : Nat) : Nat := t % 16

/-- Global coordinates of a tile (R17). -/
def tidX (t : Nat) : Nat := tidDie t % 5 * 16 + tidCol t
def tidY (t : Nat) : Nat := tidDie t / 5 * 16 + tidRow t

/-- The TID at global coordinates (R17, R18). -/
def tidAt (x y : Nat) : Nat := (y / 16 * 5 + x / 16) * 256 + y % 16 * 16 + x % 16

/-- The TID names a tile of the part (R2, R18). -/
def State.present (s : State) (t : Nat) : Bool :=
  decide (tidDie t < 20) && s.physCol (tidDie t) (tidCol t) != 31

/-- Half of a tile: die·2, plus 1 for the east half (R19; R67: its logical column decides). -/
def halfOf (t : Nat) : Nat := tidDie t * 2 + (if tidCol t < 8 then 0 else 1)

/-- Do what a command does at a tile; a TID that names no tile stops the model (R18). -/
def State.atTile (s : State) (t : Nat) (f : State → State) : Host.Outcome State Fault Refusal :=
  if s.present t then .next (f s) else .fault .noSuchTile

/-- Tiles of a mould: the present tiles of its rectangle (R271). -/
def State.mouldTiles (s : State) (m : Mould) : List Nat :=
  (List.range' (m.dy0 * 16) ((m.dy1 + 1 - m.dy0) * 16)).flatMap (fun y =>
    (List.range' m.x0 (m.x1 + 1 - m.x0)).filterMap (fun x =>
      let t := tidAt x y
      if s.present t then some t else none))

/-- Tiles of a context's mould. -/
def State.ctxTiles (s : State) (c : Nat) : List Nat :=
  match (s.ctx c).mould with
  | some m => s.mouldTiles m
  | none => []

/-- The context that owns a tile (R61). -/
def Tile.owner (x : Tile) : Option Nat := if x.cfg.owned then some x.cfg.ctx else none

/-! ## Pages and registers (R512) -/

def pgMgt : Nat := 0
def pgFus : Nat := 1
def pgAtt : Nat := 2
def pgErr : Nat := 3
def pgPwr : Nat := 4
def pgCfg : Nat := 5
def pgCtx (c : Nat) : Nat := 0x10 + c
def pgMov (m : Nat) : Nat := 0x20 + m
def pgHbm (n : Nat) : Nat := 0x40 + n
def pgDdr (n : Nat) : Nat := 0x60 + n
def pgCxl (n : Nat) : Nat := 0x70 + n
def pgLnm (n : Nat) : Nat := 0x80 + n

/-- Page index of page k of a tile (R29): 0 TCT, 1 TSP, 2 TSC, 3 TEN. -/
def pgTile (t k : Nat) : Nat := 0x8000 + 4 * t + k

/-- Where an error of a router or unit is logged that has no page: the routers of the rim dies and the
units there whose chapter gives their message errors no bit (DESIGN CHOICE, log 99). -/
def pgNone : Nat := 0xFFFF

/-- Key of a register: page·512 + offset/8. -/
def rkey (pg off : Nat) : Nat := pg * 512 + off / 8

/-- Cold values of the registers a casting writes (R64, R91, R164, R207, R245). -/
def tileCold (key : Nat) : Word :=
  let off := key % 512 * 8
  match key / 512 with
  | 0 => if off = 0x108 then 1 else if off = 0x140 then 0x400 else 0
  | 2 => if 0x200 ≤ off ∧ off < 0x240 then 0x10000000 else 0
  | 3 =>
    if off = 0x108 then 1
    else if 0x170 ≤ off ∧ off < 0x1B0 then 0x3F80000000000000
    else 0
  | _ => 0

/-- Live copy of a casting-written register (R58). -/
def Tile.reg (x : Tile) (k off : Nat) : Word := x.cfg.live.get (rkey k off) (tileCold (rkey k off))

def Tile.setReg (x : Tile) (k off : Nat) (v : Word) : Tile :=
  { x with cfg := { x.cfg with live := x.cfg.live.put (rkey k off) v (tileCold (rkey k off)) } }

def Tile.shadowReg (x : Tile) (k off : Nat) : Word :=
  x.cfg.shadow.get (rkey k off) (tileCold (rkey k off))

def Tile.setShadowReg (x : Tile) (k off : Nat) (v : Word) : Tile :=
  { x with cfg := { x.cfg with shadow := x.cfg.shadow.put (rkey k off) v (tileCold (rkey k off)) } }

/-- A register only management writes. -/
def Tile.own (x : Tile) (k off : Nat) : Word := x.cfg.own.get (rkey k off) 0

def Tile.setOwn (x : Tile) (k off : Nat) (v : Word) : Tile :=
  { x with cfg := { x.cfg with own := x.cfg.own.put (rkey k off) v 0 } }

/-- Word w of frame f of plane p of the live set (R56, R57). -/
def Tile.cword (x : Tile) (p f w : Nat) : Word :=
  (if x.cfg.liveSet then x.cfg.wordsB else x.cfg.wordsA).get (p * 1024 + f * 256 + w) 0

/-- The same word of the shadow set. -/
def Tile.scword (x : Tile) (p f w : Nat) : Word :=
  (if x.cfg.liveSet then x.cfg.wordsA else x.cfg.wordsB).get (p * 1024 + f * 256 + w) 0

/-- Cold values of the device pages' registers that are not zero (chapters 09 to 16). -/
def devCold (key : Nat) : Word :=
  let pg := key / 512
  let off := key % 512 * 8
  if pg = 3 ∧ off = 0x100 then 2
  else if 0x10 ≤ pg ∧ pg < 0x18 ∧ off = 0x110 then 0x3E8
  else if 0x80 ≤ pg ∧ pg < 0x88 ∧ off = 0x100 then 0xFFC03FFF
  else if 0x80 ≤ pg ∧ pg < 0x88 ∧ off = 0x120 then 0x0AF0
  else if pg = 4 then
    (if off = 0x100 then 0x5A1068
    else if off = 0x108 then 0x207D0
    else if off = 0x140 then 0x5A1B855F1FF
    else if 0x200 ≤ off ∧ off < 0x340 then 0x101000040AF064
    else 0)
  else if pg = 5 ∧ off = 0x188 then 0x6401F4
  else if 0x40 ≤ pg ∧ pg < 0x54 ∧ off = 0x108 then 0x18
  else if 0x60 ≤ pg ∧ pg < 0x70 ∧ off = 0x110 then 0x18
  else if 0x70 ≤ pg ∧ pg < 0x74 ∧ off = 0x118 then 1
  else 0

def State.devReg (s : State) (pg off : Nat) : Word := s.dev.get (rkey pg off) (devCold (rkey pg off))

def State.setDevReg (s : State) (pg off : Nat) (v : Word) : State :=
  { s with dev := s.dev.put (rkey pg off) v (devCold (rkey pg off)) }

def State.hdr (s : State) (pg : Nat) : Hdr := s.hdrs.get pg {}

def State.onHdr (s : State) (pg : Nat) (f : Hdr → Hdr) : State :=
  { s with hdrs := s.hdrs.upd pg {} f }

/-- Count a statistic (R521, R522); the tile pages' start when the tile leaves OFF. -/
def State.stat (s : State) (pg off n : Nat) : State :=
  { s with stats := s.stats.upd (rkey pg off) 0 (fun v => (v + n) % 2 ^ 64) }

/-! ## Time (R8, R321, R454, R456, R474) -/

/-- Sum of the periods of cycles [c0, c1), newest period first, in 2^-16 ns. -/
def sumPeriods : List (Nat × Nat) → Nat → Nat → Nat
  | [], _, _ => 0
  | (st, p) :: h, c0, c1 =>
    if c1 ≤ c0 then 0
    else
      let b := if st > c0 then st else c0
      let here := if c1 > b then (c1 - b) * p else 0
      here + (if st > c0 then sumPeriods h c0 (if c1 < st then c1 else st) else 0)

/-- Cycles [c0, c1) of a tile in ns, rounded up once (R321, R456). -/
def Tile.ns (x : Tile) (c0 c1 : Nat) : Nat :=
  cdiv (sumPeriods x.clk.hist c0 c1) 65536

/-- P for a frequency of f MHz, in 2^-16 ns rounded up (R454). -/
def periodOf (f : Nat) : Nat := cdiv 65536000 f

/-- A new period from the next cycle on (R456). -/
def Tile.setPer (x : Tile) (p : Nat) : Tile :=
  let rest := match x.clk.hist with
    | (c, q) :: h => if c = x.clk.cyc then h else (c, q) :: h
    | [] => []
  { x with clk := { x.clk with per := p, hist := (x.clk.cyc, p) :: rest } }

/-- An IDLE or NAP tile: its clock is gated, and what arrives waits until TILE_WAKE (R464). -/
def Tile.gated (x : Tile) : Bool := x.clk.pstate == .idle || x.clk.pstate == .nap

/-- The nightwatch elapsed count in µs (R474). -/
def State.elapsed (s : State) : Nat := s.pwr.nwNs / 1000

/-! ## Event records (R444, R445) -/

/-- Queue an event record at one port: EVSEQ counts it, a full queue of 256 loses it. -/
def queueEvent (p : Nat) (kind : Nat) (c : Option Nat) (ws : List Word) (s : State) : State :=
  let q := s.lnm.get p {}
  let w0 := packW [(32, q.evseq), (16, kind), (1, b2n c.isSome), (3, c.getD 0)]
  let rec_ : EvRec := ⟨w0 :: BitVec.ofNat 64 s.elapsed :: ws⟩
  let evq := if q.evq.length < 256 then q.evq ++ [rec_] else q.evq
  let q' := { q with evseq := (q.evseq + 1) % 2 ^ 32, evq := evq }
  let s := { s with lnm := s.lnm.put p q' {} }
  if q.evq.length < 256 then s else s.stat (pgLnm p) 0x78 1

/-- A port takes records of context c (`LNM_CFG.EVCTX`) or device records (EVDEV) (R445). -/
def portTakes (cfg : Word) (c : Option Nat) : Bool :=
  match c with
  | some k => bit cfg (22 + k)
  | none => bit cfg 30

/-- Queue an event record on every port that takes it, save one that it reports (R445). -/
def emit (kind : Nat) (c : Option Nat) (ws : List Word) (save : Option Nat) (s : State) : State :=
  (List.range 8).foldl (fun s p =>
    if portTakes (s.devReg (pgLnm p) 0x100) c && save != some p then queueEvent p kind c ws s else s) s

/-! ## Messages cut into packets (R212 to R215) -/

/-- Length of a message of `op` whose row of R214, R308 or R480 fixes it or whose word 1 carries MLEN. -/
def msgLen (op : Nat) (w1 : Word) : Nat :=
  if op = 0x01 ∨ op = 0x03 then fld w1 24 13
  else if op = 0x21 then 2048
  else if op = 0x22 ∨ op = 0x31 then 8
  else 0

/-- Payload cut into packets of 256 bytes. -/
def chunks : Nat → List Byte → List (List Byte)
  | 0, _ => []
  | n + 1, bs => bs.take 256 :: chunks n (bs.drop 256)

/-- Word 1 of packet i of a message: OFF of a WRITE is that of the packet's first byte (R213, R215). -/
def packetW1 (op : Nat) (w1 : Word) (i : Nat) : Word :=
  if op = 0x01 ∧ i ≠ 0 then setFld w1 4 20 (fld w1 4 20 + 256 * i) else w1

/-- The packets of a message (R215). -/
def packets (m : Msg) : List Packet :=
  let n := max 1 (cdiv m.payload.length 256)
  (chunks n m.payload).zipIdx.map (fun (bs, i) =>
    { msg := { m with payload := bs, w1 := packetW1 m.op m.w1 i }, pkt := i, first := i == 0, last := i + 1 == n })

/-- Key of a router input: the node and where its packets come from (R193). -/
def rkeyOf (node prev : Nat) : Nat := node * 16384 + prev

/-- Queue packets at a router input. -/
def enqueue (node prev : Nat) (ps : List Packet) (s : State) : State :=
  { s with routers := s.routers.upd (rkeyOf node prev) [] (· ++ ps) }

/-! ## Management and configuration messages (R308, R480) -/

/-- Units of the management die (R479): the management processor and the configuration engine. -/
def unitMgt : Nat := 0x1800
def unitCfg : Nat := 0x1810

/-- The router of the management die. -/
def nodeM : Nat := 24 * 256

/-- The management die sends messages: they wait at its router's local input, in the order sent (R15, R20). -/
def sendAll (ms : List Msg) (s : State) : State := enqueue nodeM nodeM (ms.flatMap packets) s

/-- A message of the management processor about context c. -/
def mgtMsg (op c t : Nat) (w1 : Word) (tag status : Nat) (bs : List Byte) : Msg :=
  { op := op, src := unitMgt, dest := t, sctx := c, tctx := c, priv := true, w1 := w1, tag := tag, status := status,
    payload := bs }

/-- A message of the configuration engine about context c (R308). -/
def cfgMsg (op c t : Nat) (w1 : Word) (status : Nat) (bs : List Byte) : Msg :=
  { op := op, src := unitCfg, dest := t, sctx := c, tctx := c, priv := true, w1 := w1, status := status, payload := bs }

/-- A tile sends a message to a unit of the management die. -/
def tileToMgt (t op dest c : Nat) (w1 : Word) (tag status : Nat) (bs : List Byte) (s : State) : State :=
  enqueue t t (packets { op := op, src := t, dest := dest, sctx := c, tctx := c, w1 := w1, tag := tag, status := status,
                         payload := bs }) s

/-! ## Contexts: state changes (R312, R444) -/

def CState.toNat : CState → Nat
  | .free => 0
  | .bound => 1
  | .running => 2
  | .preempting => 3
  | .preempted => 4
  | .restarting => 5
  | .teardown => 6

/-- `CTX_STATE` as it reads (R334). -/
def State.ctxState (s : State) (c : Nat) : Word :=
  let x := s.ctx c
  let (v, m) := match x.mould with
    | some m => (1, m)
    | none => (0, ⟨0, 0, 0, 0⟩)
  packW [(3, x.st.toNat), (7, m.x0), (7, m.x1), (2, m.dy0), (2, m.dy1), (1, v), (8, x.restarts),
    (1, b2n x.pend)]

/-- The run states of the 8 contexts as MGT_RUNSTATE carries them (R480). -/
def State.runStates (s : State) : Word :=
  packW ((List.range 8).map (fun c => (3, (s.ctx c).st.toNat)))

/-- Take a new state: every tile that is not OFF is told (MGT_RUNSTATE, R219, R480) and a
CONTEXT_STATE record is queued (R444). -/
def setCState (c : Nat) (st : CState) (s : State) : State :=
  let s := s.onCtx c (fun x => { x with st := st })
  let w := s.runStates
  let s := sendAll (s.tiles.filterMap (fun (t, x) =>
    if x.clk.pstate == .off then none else some (mgtMsg 0x33 c t w 0 0 []))) s
  emit 0x0011 (some c) [s.ctxState c] none s

/-- Hold or release a context's requests at every port engine (`LNM_HOLD.HOLD`, R436). -/
def setHold (c : Nat) (on : Bool) (s : State) : State :=
  (List.range 8).foldl (fun s p =>
    s.setDevReg (pgLnm p) 0x130 (setFld (s.devReg (pgLnm p) 0x130) c 1 (b2n on))) s

/-- Keys of a context's counts (R333): engine time on a half's island; engine cycles of a half, its own and every context's; bytes on
a stack, its own and every context's. -/
def acctTime : Nat := 16
def acctEng : Nat := 64
def acctEngAll : Nat := 128
def acctStack : Nat := 192
def acctStackAll : Nat := 224

/-- Count for a context (R333). -/
def account (c item n : Nat) (s : State) : State :=
  s.onCtx c (fun x => { x with acct := x.acct.upd item 0 (· + n) })

/-- Count for every context that is not FREE. -/
def accountAll (item n : Nat) (s : State) : State :=
  (List.range 8).foldl (fun s k => if (s.ctx k).st = .free then s else account k item n s) s

/-- Start the hold measurement of R327. -/
def startHold (c : Nat) (s : State) : State :=
  s.onCtx c (fun x => { x with holdAt := some (x.holdAt.getD s.time) })

/-- MGT_STEP to tiles (R356, R480): step n of a restart or a teardown. -/
def stepMsgs (c n : Nat) (td : Bool) (ts : List Nat) : List Msg :=
  ts.map (fun t => mgtMsg 0x38 c t (packW [(3, n), (1, b2n td)]) 0 0 [])

/-- Send step n of a restart (or teardown) to every tile of the mould (R356, R480). -/
def sendStep (c n : Nat) (td : Bool) (s : State) : State :=
  let ts := s.ctxTiles c
  let s := s.onCtx c (fun x => { x with handling := { x.handling with step := n, waiting := ts } })
  sendAll (stepMsgs c n td ts) s

/-- MGT_ARM that arms a tile with F, and the disarm notice, which management knows again by its TAG of 1 (R327, R480;
that TAG is a DESIGN CHOICE, log 124). -/
def armMsg (c f t : Nat) : Msg := mgtMsg 0x36 c t (packW [(32, f)]) 0 0 []
def disarmMsg (c t : Nat) : Msg := mgtMsg 0x36 c t (setFld 0 32 1 1) 1 0 []

/-- MGT_RD or MGT_WR of an access whose tile answer is awaited (R480). -/
def accMsg (a : Access) : Msg :=
  let pg := a.addr / 4096
  mgtMsg (if a.write then 0x31 else 0x30) 0 ((pg - 0x8000) / 4) (packW [(2, (pg - 0x8000) % 4), (12, a.addr % 4096)])
    a.path 0 (if a.write then leBytes 8 a.v.toNat else [])

/-- Every router discards every packet it holds, and with it goes each message that lost one (R361). The
management die sends anew what it knows to be outstanding: the run states, the steps of teardowns, what arms and
disarms an entry tile and the accesses that await a tile (DESIGN CHOICE, log 5). -/
def discardPackets (s : State) : State :=
  let s := { s with routers := [],
                    inbox := s.inbox.filterMap (fun (u, q) => match q.filter (·.complete) with
                      | [] => none
                      | q => some (u, q)),
                    lnm := s.lnm.map (fun (p, q) => (p, { q with
                      cur := q.cur.filterMap (fun (c, ps) => match ps.dropWhile (fun k => !k.first) with
                        | [] => none
                        | ps => some (c, ps)) })) }
  let s := sendAll (s.tiles.filterMap (fun (t, x) =>
    if x.clk.pstate == .off then none else some (mgtMsg 0x33 0 t s.runStates 0 0 []))) s
  let s := sendAll ((List.range 8).flatMap (fun c =>
    let x := s.ctx c
    (if x.st = .teardown then stepMsgs c x.handling.step true x.handling.waiting else []) ++
    (if x.armFor = 1 then x.armWait.map (armMsg c x.lastF) else []) ++ x.noticed.map (disarmMsg c))) s
  sendAll (s.mgt.flying.filterMap (fun (_, a) => a.map accMsg)) s

/-- Start the restart of a context: step 1 of R356 begins; the fence rises, the ingress holds and
the hold measurement starts; a restart out of PREEMPTING sets PREEMPT_PEND (R312, R327, R352, R356). -/
def startRestart (c : Nat) (device : Bool) (s : State) : State :=
  let s := s.onCtx c (fun x =>
    { x with restarts := satTo 255 (x.restarts + 1), fence := true,
             pend := x.pend || x.st == .preempting, armWait := [], armFor := 0,
             handling := { step := 1, start := s.time, device := device } })
  let s := setCState c .restarting s
  sendStep c 1 false (startHold c (setHold c true s))

/-- Every context that a device restart restarts (R361). -/
def restartable (st : CState) : Bool :=
  match st with
  | .running => true
  | .preempting => true
  | .restarting => true
  | _ => false

/-- Start the device restart of R361: steps 1 to 6 for every such context at once. -/
def startDeviceRestart (s : State) : State :=
  let any_ := (List.range 8).any (fun c => restartable (s.ctx c).st)
  -- with no context to restart, the routers' discard is all of it
  let s := if any_ then s else discardPackets s
  let s := { s with stop := { s.stop with restart := if any_ then some s.time else none, queued := false } }
  (List.range 8).foldl (fun s c =>
    if restartable (s.ctx c).st then startRestart c true s else s) s

/-- The FATAL stop of R362: tiles halt, admission stops, memory goes to self-refresh, the alert is
asserted (the alert and the admission read `stop.fatal`). -/
def fatalStop (s : State) : State :=
  { s with stop := { s.stop with fatal := true },
           tiles := s.tiles.map (fun (t, x) => (t, { x with cfg := { x.cfg with halted := true } })) }

/-! ## Raising an error (R351 to R354, R365 to R367, R518 to R520) -/

def ErrClass.toNat : ErrClass → Nat
  | .corrected => 0
  | .context => 1
  | .device => 2
  | .fatal => 3

/-- DETAIL of R520: items (width, value) from bit 6; an item that does not fit whole below bit 63
is not stored, later ones that fit are. -/
def packDetail : List (Nat × Nat) → Nat → Nat → Nat
  | [], _, acc => acc
  | (n, v) :: fs, pos, acc =>
    if pos + n ≤ 63 then packDetail fs (pos + n) (acc + v % 2 ^ n * 2 ^ pos)
    else packDetail fs pos acc

/-- `PG_ERRINFO` of an error (R519, R520). -/
def errInfo (e : Err) (items : List (Nat × Nat)) (flag : Bool) : Word :=
  BitVec.ofNat 64 (packDetail items 6 (e.bit + (if flag then 2 ^ 63 else 0)))

/-- Write an entry into the ring (R365): a full ring loses its oldest unread entry. Answers whether
an unread entry was overwritten. -/
def logPut (now : Nat) (en : LogEntry) (g : ErrLog) : ErrLog × Bool :=
  let g := if g.freshAt = now ∧ g.fresh.isSome then g else { g with fresh := some en, freshAt := now }
  let g' := { g with ring := g.ring.put g.wr en {}, wr := (g.wr + 1) % 1024, last := en,
                     seq := (g.seq + 1) % 2 ^ 32,
                     firstV := true, first := if g.firstV then g.first else en }
  if g.unread < 1024 then ({ g' with unread := g.unread + 1 }, false)
  else ({ g' with rd := (g.rd + 1) % 1024 }, true)

/-- The entry of an error (R365). -/
def mkEntry (s : State) (pg : Nat) (e : Err) (info : Word) (charge : Option Nat) (action : Nat) :
    LogEntry :=
  { w0 := packW [(32, s.log.seq), (2, e.cls.toNat), (4, action), (1, b2n charge.isSome),
      (3, charge.getD 0)],
    w1 := packW [(16, pg), (6, e.bit)],
    w2 := info,
    w3 := BitVec.ofNat 64 s.elapsed }

/-- Log one error and report it (R365, R444). -/
def logOne (pg : Nat) (e : Err) (info : Word) (charge : Option Nat) (action : Nat) (s : State) :
    State × Bool :=
  let en := mkEntry s pg e info charge action
  let (g, full) := logPut s.time en s.log
  let s := { s with log := g }
  let s := if full then
      let v := s.devReg pgErr 0x110
      s.setDevReg pgErr 0x110 (setFld v 0 32 (satTo (2 ^ 32 - 1) (fld v 0 32 + 1)))
    else s
  let s := (List.range 8).foldl (fun s p =>
    let cfg := s.devReg (pgLnm p) 0x100
    if portTakes cfg charge && fld cfg 31 2 ≤ e.cls.toNat then
      queueEvent p 0x0010 charge [en.w0, en.w1, en.w2, en.w3] s
    else s) s
  (s, full)

/-- A header at whose time `now` an error sets its bit and loads its detail (R518, R519). -/
def Hdr.mark (now : Nat) (e : Err) (info : Word) (h : Hdr) : Hdr :=
  let masked := e.cls == .corrected && bit h.mask e.bit
  let w := BitVec.ofNat 64 (2 ^ e.bit)
  let same := h.freshAt == now
  let first := if same then h.freshInfo else none
  { h with err := h.err ||| w, info := if h.err = 0 && !masked then info else h.info,
           fresh := (if same then h.fresh else 0) ||| w, freshAt := now, older := if same then h.older else h.err,
           freshInfo := if masked then first else some (first.getD info) }

/-- A write clears error bits: those that errors have set at the same time stay, and where it clears every older
bit the first of these has loaded its detail (R509, R519). -/
def Hdr.clear (now : Nat) (v : Word) (h : Hdr) : Hdr :=
  let same := h.freshAt == now
  { h with err := (h.err &&& ~~~v) ||| (if same then h.fresh else 0), older := h.older &&& ~~~v,
           info := if same && h.older != 0 && h.older &&& ~~~v == 0 then h.freshInfo.getD h.info else h.info }

/-- FIRST_V is cleared at time `now`: an entry logged at the same time sets it and is the first (R365, R509). -/
def ErrLog.clearFirst (now : Nat) (g : ErrLog) : ErrLog :=
  match g.fresh with
  | some en => if g.freshAt = now then { g with firstV := true, first := en } else { g with firstV := false }
  | none => { g with firstV := false }

/-- Hardware sets W1C or W1S bits of a register (R509). -/
def noteSet (key : Nat) (bits : Word) (s : State) : State :=
  let (at_, w) := s.fresh.get key (0, 0)
  { s with fresh := s.fresh.put key (s.time, (if at_ = s.time then w else 0) ||| bits) (0, 0) }

/-- Those of them that a write at the same time leaves set (R509). -/
def State.justSet (s : State) (key : Nat) : Word :=
  let (at_, w) := s.fresh.get key (0, 0)
  if at_ = s.time then w else 0

/-- Set a page's error bit and load its detail (R518, R519). -/
def markErr (pg : Nat) (e : Err) (info : Word) (s : State) : State :=
  if pg = pgNone then s else s.onHdr pg (Hdr.mark s.time e info)

/-- What the handlers do about an error, and its ACTION code (R351 to R354, R365). -/
def handleErr (e : Err) (charge : Option Nat) (s : State) : Nat × State :=
  if s.stop.fatal then (0, s)
  else match e.cls with
  | .corrected => (0, s)
  | .context =>
    match charge with
    | none => (0, s)
    | some c =>
      if e = .scrubFail then (0, s)
      else match (s.ctx c).st with
      | .running => (1, startRestart c false s)
      | .preempting => (1, startRestart c false s)
      | .restarting =>
        if (s.ctx c).handling.step ≤ 3 then (3, s)
        else (7, s.onCtx c (fun x => { x with handling := { x.handling with again := true } }))
      | _ => (0, s)
  | .device =>
    if s.stop.restart.isSome then (2, { s with stop := { s.stop with queued := true } })
    else
      let busy := (List.range 8).any (fun c => (s.ctx c).st == .restarting)
      (if busy then 4 else 5, startDeviceRestart s)
  | .fatal => (6, fatalStop s)

/-- Raise an error at a page (R351, R365, R518 to R520). Only a CONTEXT error charges a context: the
error tables name none for the other classes. -/
def raiseF (pg : Nat) (e : Err) (items : List (Nat × Nat)) (charge : Option Nat) (flag : Bool)
    (s : State) : State :=
  let charge := if e.cls == .context then charge else none
  let info := errInfo e items flag
  let masked := e.cls == .corrected && bit (s.hdr pg).mask e.bit
  let s := markErr pg e info s
  if masked then s
  else
    let (action, s') := handleErr e charge s
    -- the entry is written with the action taken; the handling itself logs nothing
    let (s', full) := logOne pg e info charge action s'
    if full && e != .logOverflow then
      let ov := errInfo .logOverflow [] false
      let m := bit (s'.hdr pgErr).mask Err.logOverflow.bit
      let s' := markErr pgErr .logOverflow ov s'
      if m then s' else (logOne pgErr .logOverflow ov none 0 s').1
    else s'

def raise (pg : Nat) (e : Err) (items : List (Nat × Nat)) (charge : Option Nat) (s : State) : State :=
  raiseF pg e items charge false s

/-! ## Read before act (R498, R508) -/

/-- The management processor reads a unit's state register before it acts on the unit: where the value
differs from its copy, STATE_MISMATCH is raised and the copy replaced. When the copy follows a unit by
itself the spec does not say: a free value. -/
def readFirst (pg off : Nat) (v : Word) (s : State) : State :=
  let k := rkey pg off
  let now := v.toNat
  let n := s.freeCtr
  let old := if Config.noticed n then now else s.mgt.copies.get k 0
  let s := { s with freeCtr := n + 1, mgt := { s.mgt with copies := s.mgt.copies.put k now 0 } }
  if old = now then s
  else raise pgMgt .stateMismatch [(16, pg), (9, off / 8), (16, old), (16, now)] none s

/-- The management processor serves a command: its firmware runs (R482, R485). -/
def served (f : State → State) (s : State) : State := if s.mgt.boot = 2 then f s else s

/-- The sideband serves transfers: from the end of step 3 of R482, and in BOOT_FAIL (R530). -/
def State.sideband (s : State) : Bool := s.mgt.boot == 2 || s.mgt.boot == 3

/-- Likewise for a register of the MGT, FUS and ATT pages, which the ROM serves in BOOT_FAIL too (R485). -/
def servedLow (f : State → State) (s : State) : State := if s.sideband then f s else s

/-- It acts on a unit, whose state register it reads anew first. -/
def acted (pg off : Nat) (v : State → Word) (f : State → State) : State → State :=
  served (fun s => f (readFirst pg off (v s) s))

/-- `TCT_STATE.PSTATE`. -/
def PState.toNat : PState → Nat
  | .active => 0
  | .idle => 1
  | .nap => 2
  | .off => 3

def PourSt.toNat : PourSt → Nat
  | .idle => 0
  | .pouring => 1
  | .armed => 2
  | .recasting => 3

/-- `TCT_STATE` as it reads (R61); HALTED also while the context is PREEMPTED (R329). -/
def State.tctState (s : State) (t : Nat) : Word :=
  let x := s.tile t
  packW [(2, x.clk.pstate.toNat), (1, b2n x.cfg.liveSet), (2, x.cfg.plane), (4, x.cfg.step), (2, x.cfg.pour.toNat),
    (1, b2n x.cfg.owned), (3, x.cfg.ctx), (1, b2n ((s.hdr (pgTile t 0)).halt || x.cfg.halted)),
    (5, s.physCol (tidDie t) (tidCol t)), (1, halfOf t % 2)]

/-- Management acts on a context. -/
def actedCtx (c : Nat) (f : State → State) : State → State := acted (pgCtx c) 0x100 (fun s => s.ctxState c) f

/-- A debug operation has been accepted (R501). -/
def markDebugged (s : State) : State := { s with mgt := { s.mgt with debugged := true } }

/-- The wake charge of 1,000 ns on every head token in the tile's inputs (R464). -/
def Tile.chargeWake (x : Tile) : Tile :=
  let more (k : Token) : Token := { k with cands := k.cands.map (fun (b, c, w) => (b, c, w + 1000)) }
  { x with fab := { x.fab with ports := x.fab.ports.map (fun (p, q) =>
      (p, { q with fifo := q.fifo.map more, queue := q.queue.map more })) } }

/-- The tile is ACTIVE again. -/
def Tile.activate (x : Tile) (cyc : Nat) : Tile :=
  { x with clk := { x.clk with pstate := .active, cyc := cyc, idleCnt := 0, napCnt := 0, napCheck := false } }

/-- An IDLE tile wakes in 2 cycles, a NAP tile with the wake charge (R464). -/
def Tile.wake (x : Tile) : Tile :=
  match x.clk.pstate with
  | .idle => x.activate (x.clk.cyc + 2)
  | .nap => (x.chargeWake).activate x.clk.cyc
  | _ => x

/-- Count a refused entry to a power state (R467, R477): 0 NAP, 1 half off, 2 D-idle, 3 D-standby. -/
def acctRefuse (k id : Nat) (s : State) : State :=
  let v := s.devReg pgPwr (0x160 + 8 * k)
  s.setDevReg pgPwr (0x160 + 8 * k) (setFld (setFld v 0 24 (satTo 0xFFFFFF (fld v 0 24 + 1))) 48 16 id)

/-- Count an aborted entry. -/
def acctAbort (k : Nat) (s : State) : State :=
  let v := s.devReg pgPwr (0x160 + 8 * k)
  s.setDevReg pgPwr (0x160 + 8 * k) (setFld v 24 24 (satTo 0xFFFFFF (fld v 24 24 + 1)))

/-- An arrival in the check phase aborts the entry to NAP (R465). -/
def abortNap (t : Nat) (s : State) : State :=
  acctAbort 0 (s.onTile t (fun x => { x with clk := { x.clk with napCheck := false, napCnt := 0 } }))

/-- An access of management wakes an IDLE or NAP tile (R464, R511); in the check phase of NAP entry it first aborts
the entry (R465). -/
def wakeTile (t : Nat) (s : State) : State :=
  let x := s.tile t
  (if x.clk.pstate = .idle ∧ x.clk.napCheck then abortNap t s else s).onTile t Tile.wake

/-- Set a bit of `PWR_WAKE` (R477). -/
def setWake (i : Nat) (s : State) : State :=
  noteSet (rkey pgPwr 0x120) (setFld 0 i 1 1) (s.setDevReg pgPwr 0x120 (setFld (s.devReg pgPwr 0x120) i 1 1))

/-- `PWR_WAKE` with only one bit set. -/
def wakeBit (i : Nat) : Word := setFld 0 i 1 1

/-- Management writes a register of a tile page: the tile wakes for it; one in OFF takes no write
(R498, R507 cause 4, R511). -/
def actedTile (t : Nat) (f : State → State) : State → State :=
  acted (pgTile t 0) 0x100 (fun s => s.tctState t) (fun s =>
    if (s.tile t).clk.pstate = .off then s else f (wakeTile t s))

/-- Page k of a tile page kind. -/
def Kind.tilePage : Kind → Nat
  | .tsp => 1
  | .tsc => 2
  | .ten => 3
  | _ => 0

/-- A unit of a tile raises an error charged to the tile's owner; a CONTEXT error stops that unit
until the flush (R352). -/
def raiseT (t : Nat) (e : Err) (items : List (Nat × Nat)) (u : Option TUnit) (s : State) : State :=
  let s := match u, e.cls with
    | some u, .context => s.onTile t (fun x =>
        if x.stopped.contains u then x else { x with stopped := x.stopped ++ [u] })
    | _, _ => s
  raise (pgTile t e.kind.tilePage) e items (s.tile t).owner s

/-- The unit may start new work: not stopped by an error (R352), the tile clocked and not halted
(R501), and the device not stopped (R362). -/
def Tile.runs (x : Tile) (u : TUnit) : Bool :=
  !x.stopped.contains u && !x.cfg.halted && !x.cfg.flushed && x.clk.pstate == .active

/-- The unit runs and no CONTEXT error has stopped it. -/
def State.unitRuns (s : State) (t : Nat) (u : TUnit) : Bool :=
  (s.tile t).runs u && !s.stop.fatal

end Sys2Proof.Machine
end

