-- ==== Sys2Proof/Machine/Network.lean ====
section
/-! DEFINITION.
The message network (R193, R209 to R216, R304, R398, R399, R545): units and routes, packets in
router queues, delivery into a unit's inbox. A node is a tile's TID or, for a rim die, die·256. -/

namespace Sys2Proof.Machine

/-! ## Units (R15, R18, R209, R397, R436, R378, R479) -/

/-- Unit address of mover m (R397). -/
def movUnit (m : Nat) : Nat :=
  if m < 20 then 0x1880 + m else if m < 24 then m * 256 + 0x10 else (m - 4) * 256 + 0x18

/-- The mover at a unit address. -/
def movOf (u : Nat) : Option Nat := (List.range 28).find? (fun m => movUnit m == u)

/-- Unit address of the engine of Laniem port p (R436). -/
def lnmUnit (p : Nat) : Nat := (20 + p / 2) * 256 + 0x20 + 8 * (p % 2)

def lnmOf (u : Nat) : Option Nat := (List.range 8).find? (fun p => lnmUnit p == u)

/-- Unit address of gradient export engine e (R378). -/
def gxUnit (e : Nat) : Nat := (20 + e) * 256 + 0x40

def gxOf (u : Nat) : Option Nat := (List.range 4).find? (fun e => gxUnit e == u)

/-- The address names a unit (R209). -/
def State.unitExists (s : State) (u : Nat) : Bool :=
  if tidDie u < 20 then s.present u
  else (movOf u).isSome || (lnmOf u).isSome || (gxOf u).isSome || u == unitMgt || u == unitCfg

/-! ## Coordinates and neighbours (R13 to R17, R68) -/

/-- Logical columns that a die exposes (R2). -/
def State.cols (s : State) (die : Nat) : Nat := if s.physCol die 15 = 31 then 15 else 16

/-- The tile east of t, across the die edge where t lies at it (R68). -/
def State.east (s : State) (t : Nat) : Option Nat :=
  if tidCol t + 1 < s.cols (tidDie t) then some (t + 1)
  else if tidDie t % 5 < 4 then some (t + 256 - tidCol t) else none

def State.west (s : State) (t : Nat) : Option Nat :=
  if tidCol t > 0 then some (t - 1)
  else if tidDie t % 5 > 0 then some (t - 256 + (s.cols (tidDie t - 1) - 1)) else none

/-- The tile north of t; none where the die above lacks the column. -/
def State.north (s : State) (t : Nat) : Option Nat :=
  if tidRow t < 15 then some (t + 16)
  else if tidDie t < 15 then
    let u := t + 5 * 256 - 240
    if s.present u then some u else none
  else none

def State.south (s : State) (t : Nat) : Option Nat :=
  if tidRow t > 0 then some (t - 16)
  else if tidDie t ≥ 5 then
    let u := t - 5 * 256 + 240
    if s.present u then some u else none
  else none

/-- The neighbour in direction 0 N, 1 E, 2 S, 3 W (R171). -/
def State.neighbour (s : State) (t d : Nat) : Option Nat :=
  match d with
  | 0 => s.north t
  | 1 => s.east t
  | 2 => s.south t
  | 3 => s.west t
  | _ => none

/-! ## Routes -/

def nodeE (k : Nat) : Nat := (20 + k) * 256

/-- A die of die column dx between two die rows lacks logical column 15 (R210). -/
def State.lacks15 (s : State) (dx dy0 dy1 : Nat) : Bool :=
  (List.range' (min dy0 dy1) (max dy0 dy1 + 1 - min dy0 dy1)).any (fun dy =>
    s.cols (dy * 5 + dx) == 15)

/-- X first, then Y, from tile n to tile d for a packet that entered at row y0: with the step to
column 14 where the Y leg would run in an absent column 15 (R210, R399). none: arrived. -/
def State.hopTile (s : State) (n d y0 : Nat) : Option Nat :=
  let avoid := tidCol d == 15 && s.lacks15 (tidDie d % 5) (y0 / 16) (tidDie d / 5)
  let tx := if avoid && tidY n != tidY d then tidX d - 1 else tidX d
  if tidX n < tx then s.east n
  else if tidX n > tx then s.west n
  else if tidY n < tidY d then s.north n
  else if tidY n > tidY d then s.south n
  else none

/-- The router at which a Tier 1 mover of die dm meets the tile at (row, col) (R398). -/
def attach (dm row col : Nat) : Nat := dm * 256 + row * 16 + 4 * (col / 4) + 1

/-- The straight line from tile n to edge die k (R399); in column 14 where the column is absent. -/
def State.hopEdge (s : State) (n k src : Nat) : Nat :=
  let line (o : Option Nat) := o.getD (nodeE k)
  match k with
  | 0 => line (s.west n)
  | 1 => line (s.east n)
  | 2 => if tidCol n == 15 && tidDie src < 20 && s.lacks15 (tidDie n % 5) 0 (tidDie src / 5)
      then n - 1 else line (s.south n)
  | _ => if tidCol n == 15 && tidDie src < 20 && s.lacks15 (tidDie n % 5) (tidDie src / 5) 3
      then n - 1 else line (s.north n)

/-- Where edge die k hands a packet for tile d into the mesh (R399). -/
def State.enterTile (s : State) (k d : Nat) : Nat :=
  let x := tidX d
  let xl := if tidCol d == 15 && s.lacks15 (tidDie d % 5)
      (if k = 2 then 0 else tidDie d / 5) (if k = 2 then tidDie d / 5 else 3) then x - 1 else x
  match k with
  | 0 => tidAt 0 (tidY d)
  | 1 => let die := tidDie d / 5 * 5 + 4; die * 256 + tidRow d * 16 + (s.cols die - 1)
  | 2 => tidAt xl 0
  | _ => tidAt xl 63

/-- The corner tile at an end of a row (R545): the last column the die exposes. -/
def State.cornerE (s : State) (die row : Nat) : Nat := die * 256 + row * 16 + (s.cols die - 1)

/-- Next node of a packet between rim dies a and b (0 to 3 edge dies, 4 the management die) that
stands at node n (R545). none: arrived. -/
def State.hopRim (s : State) (n b : Nat) (src : Nat) : Option Nat :=
  let at_ (k : Nat) : Nat := if k = 4 then nodeM else nodeE k
  if n = at_ b then none
  else if n = nodeM then
    some (match b with | 0 => nodeE 0 | 2 => nodeE 2 | 1 => nodeE 2 | _ => nodeE 0)
  else if tidDie n ≥ 20 then
    match tidDie n - 20, b with
    | 0, 1 => some (tidAt 0 0)
    | 0, 3 => some (tidAt 0 63)
    | 0, _ => some nodeM
    | 1, 0 => some (s.cornerE 4 0)
    | 1, 3 => some (s.cornerE 19 15)
    | 1, _ => some (s.cornerE 4 0)
    | 2, 1 => some (s.cornerE 4 0)
    | 2, 3 => some (tidAt 0 0)
    | 2, _ => some nodeM
    | _, 1 => some (s.cornerE 19 15)
    | _, 2 => some (tidAt 0 63)
    | _, _ => some (tidAt 0 63)
  else
    -- in transit through compute tiles
    let from_ := tidDie src - 20
    match b with
    | 0 => if from_ = 3 then some (nodeE 0) else some ((s.west n).getD (nodeE 0))
    | 1 => if from_ = 0 then some ((s.east n).getD (nodeE 1)) else some (nodeE 1)
    | 2 => if from_ = 3 then some ((s.south n).getD (nodeE 2)) else some (nodeE 2)
    | 3 => if from_ = 2 then some ((s.north n).getD (nodeE 3)) else some (nodeE 3)
    | _ => if from_ = 1 then some (nodeE 2) else some (nodeE 0)

/-- The next node on a packet's route from node n; none: delivered at n (R210, R398, R399, R545). -/
def State.nextHop (s : State) (n : Nat) (m : Msg) : Option Nat :=
  let sd := tidDie m.src
  let dd := tidDie m.dest
  match (if dd = 24 then movOf m.dest else none) with
  | some dm =>
    -- a Tier 1 mover: delivered where it attaches for the sender's row and column
    let target := if sd < 20 then attach dm (tidRow m.src) (tidCol m.src) else attach dm 0 0
    if tidDie n ≥ 20 then some (s.enterTile (min (tidDie n - 20) 3) target)
    else s.hopTile n target (if sd < 20 then tidY m.src else tidY n)
  | none =>
    if dd < 20 then
      if tidDie n < 20 then
        let y0 := if sd < 20 then tidY m.src
          else match movOf m.src with
          | some dm => if dm < 20 then tidY (attach dm (tidRow m.dest) (tidCol m.dest)) else tidY n
          | none => tidY n
        -- a packet from E2 or E3 runs its column first (R399)
        let fromCol := sd == 22 || sd == 23
        if fromCol && tidY n != tidY m.dest then
          (if tidY n < tidY m.dest then s.north n else s.south n)
        else s.hopTile n m.dest y0
      else if n = nodeM then some (nodeE 0)
      else some (s.enterTile (tidDie n - 20) m.dest)
    else if sd < 20 then
      -- from a tile to the rim; the management die is reached through E0 (DEDUCED, R14)
      if dd = 24 then
        if n = nodeM then none else if tidDie n < 20 then some (s.hopEdge n 0 m.src) else some nodeM
      else if tidDie n < 20 then some (s.hopEdge n (dd - 20) m.src) else none
    else match (if sd = 24 then movOf m.src else none) with
      | some _ =>
        if tidDie n < 20 then some (s.hopEdge n (dd - 20) m.src) else if n = dd * 256 then none else some nodeM
      | none => s.hopRim n (dd - 20) m.src

/-! ## Message fields (R213) -/

def Msg.win (m : Msg) : Nat := fld m.w1 0 4
def Msg.off (m : Msg) : Nat := fld m.w1 4 20
def Msg.mlen (m : Msg) : Nat := fld m.w1 24 13
def Msg.cnt (m : Msg) : Nat := fld m.w1 0 4
def Msg.epoch (m : Msg) : Nat := fld m.w1 4 8
def Msg.epv (m : Msg) : Bool := bit m.w1 12
def Msg.amt (m : Msg) : Nat := fld m.w1 13 24
def Msg.rcnt (m : Msg) : Nat := fld m.w1 37 4
def Msg.rwin (m : Msg) : Nat := fld m.w1 41 4
def Msg.roff (m : Msg) : Nat := fld m.w1 45 14
def Msg.lostOk (m : Msg) : Bool := bit m.w1 59
def Msg.statEn (m : Msg) : Bool := bit m.w1 60
def Msg.crec (m : Msg) : Nat := fld m.w1 4 3
/-- Credit lines; 0 encodes 16,384 (R213). -/
def Msg.lines (m : Msg) : Nat := if fld m.w1 7 14 = 0 then 16384 else fld m.w1 7 14
def Msg.maxmsg (m : Msg) : Nat := fld m.w1 21 14

/-! ## Sending (R209, R212, R398) -/

/-- The node and input at which a unit's packets enter the network (R398): a node's local input is
keyed by the node itself, a Tier 1 mover's share of it by 8,192. -/
def entryPoint (m : Msg) : Nat × Nat :=
  match (if tidDie m.src = 24 then movOf m.src else none) with
  | some dm =>
    let n := if tidDie m.dest < 20 then attach dm (tidRow m.dest) (tidCol m.dest) else attach dm 0 0
    (n, 8192)
  | none =>
    let n := if tidDie m.src < 20 then m.src else tidDie m.src * 256
    (n, n)

/-- What R246 stores of a message besides OP, SRC, DEST and TAG: its counter or its record, with the field's width. -/
def Msg.index (m : Msg) : Nat × Nat :=
  if m.op ≥ 0x10 ∧ m.op < 0x20 then (3, m.crec) else if m.op ≥ 8 ∧ m.op < 0x10 then (4, m.cnt) else (4, 0)

/-- Send a message. One whose address names no unit is not delivered; a tile that sent it raises
MSG_DEST with the address (R209, R246). -/
def sendMsg (m : Msg) (s : State) : State :=
  if s.unitExists m.dest then
    let (n, p) := entryPoint m
    enqueue n p (packets m) s
  else if tidDie m.src < 20 then
    raise (pgTile m.src 2) .msgDest [(6, m.op), (13, m.dest), (32, m.tag), m.index] (some m.sctx) s
  else s

/-- The unit address a tile, with its context, sends from. -/
def fromTile (s : State) (t : Nat) (op dest tctx : Nat) (w1 : Word) (tag : Nat) : Msg :=
  { op := op, src := t, dest := dest, sctx := (s.tile t).cfg.ctx, tctx := tctx, w1 := w1, tag := tag }

/-- The unit sends with PRIV = 1: a memory mover, a Laniem ingress engine, the management die (R212). -/
def privUnit (u : Nat) : Bool := (movOf u).isSome || (lnmOf u).isSome || u == unitMgt || u == unitCfg

/-- An answer to message m: TAG copied, the asker's context as target (R213). -/
def answer (m : Msg) (op status : Nat) (w1 : Word) : Msg :=
  { op := op, src := m.dest, dest := m.src, sctx := m.tctx, tctx := m.sctx, w1 := w1,
    tag := m.tag, status := status, priv := privUnit m.dest }

/-- The same from a tile, which sends from its own context whichever the message names (R212). -/
def tileAnswer (s : State) (t : Nat) (m : Msg) (op status : Nat) (w1 : Word) : Msg :=
  { answer m op status w1 with sctx := (s.tile t).cfg.ctx }

/-! ## What a unit takes (R213, R214, R308, R480) -/

/-- OPs of data traffic (R214). -/
def opKnown (op : Nat) : Bool := (1 ≤ op && op ≤ 4) || (8 ≤ op && op ≤ 14) || (0x10 ≤ op && op ≤ 0x15)

/-- OPs a tile takes from the configuration engine (R308) and from the management processor (R480). -/
def cfgOp (op : Nat) : Bool :=
  op == 0x20 || op == 0x21 || op == 0x22 || op == 0x23 || op == 0x25 || op == 0x27 || op == 0x28
def mgtOp (op : Nat) : Bool :=
  op == 0x30 || op == 0x31 || op == 0x33 || op == 0x35 || op == 0x36 || op == 0x38

/-- The units of the management die take only what R308 and R480 send them, from tiles, and the ACK of a
refused operation, which they discard (R546). -/
def dieOp (u op : Nat) : Bool :=
  if u = unitMgt then op == 0x32 || op == 0x34 || op == 0x37 || op == 0x39
  else if u = unitCfg then op == 0x24 || op == 0x26
  else false

/-- The message's OP is one that its destination takes from its sender (R214, R308, R480). -/
def Msg.taken (m : Msg) : Bool :=
  if tidDie m.dest < 20 then
    opKnown m.op || (cfgOp m.op && m.priv && tidDie m.src == 24) || (mgtOp m.op && m.priv && m.src == unitMgt)
  else if m.dest = unitMgt ∨ m.dest = unitCfg then (dieOp m.dest m.op && decide (tidDie m.src < 20)) || m.op == 0x04
  else opKnown m.op

/-- Bits of word 1 that a message's row gives a meaning (R213, R308, R480). -/
def rowBits (op : Nat) : Nat :=
  if op ≤ 4 then 37
  else if op ≤ 14 then 61
  else if op ≤ 0x15 then 35
  else if op = 0x21 then 17
  else if op = 0x22 then 29
  else if op = 0x28 then 1
  else if op = 0x30 ∨ op = 0x31 then 14
  else if op = 0x33 then 24
  else if op = 0x34 ∨ op = 0x35 then 18
  else if op = 0x36 then 33
  else if op = 0x38 ∨ op = 0x39 then 4
  else 0

/-- A message keeps its row: no reserved bit of word 1 is set, and its payload has the row's length
(R213, R214). -/
def Msg.rowOk (m : Msg) : Bool :=
  decide (m.w1.toNat < 2 ^ rowBits m.op) &&
  (m.payload.length == msgLen m.op m.w1 || (m.op == 0x32 && m.payload.length == 8)) &&
  (m.op != 0x01 || (decide (1 ≤ m.payload.length) && decide (m.payload.length ≤ 4096))) &&
  (m.op != 0x03 || m.payload.length == 4)

/-! ## Delivery (R211, R214 to R216) -/

/-- The message of m's source and OP whose packets are still arriving. -/
def InMsg.openFrom (m : Msg) (x : InMsg) : Bool := !x.complete && x.msg.src == m.src && x.msg.op == m.op

/-- The packet stands where its place in the message puts it: PKT, OFF, PLEN and LAST agree with the
message's first packet and length (R215). -/
def Packet.fits (p : Packet) (first : Msg) (i : Nat) : Bool :=
  let n := msgLen first.op first.w1
  p.pkt == i && p.msg.w1 == packetW1 first.op first.w1 i &&
  (first.op == 0x32 || (p.msg.payload.length == min 256 (n - 256 * i) && p.last == decide (n ≤ 256 * (i + 1))))

/-- The inbox after one more packet (R215): a first packet opens a message and breaks off one of its
source that has not ended; another joins its source's open message, and breaks it where it is out of
sequence. -/
def joinPacket (p : Packet) (q : List InMsg) : List InMsg :=
  if p.first then
    q.map (fun x => if x.openFrom p.msg then { x with complete := true, broken := true } else x) ++
    [{ msg := p.msg, have_ := 1, complete := p.last, bad := p.bad, broken := !p.fits p.msg 0 }]
  else
    match q with
    | [] => []
    | x :: xs =>
      if x.openFrom p.msg then
        { msg := { x.msg with payload := x.msg.payload ++ p.msg.payload }, have_ := x.have_ + 1,
          complete := p.last, bad := x.bad || p.bad, broken := x.broken || !p.fits x.msg x.have_ } :: xs
      else x :: joinPacket p xs

/-- The packet opens a message or continues one (R215). -/
def State.joins (s : State) (p : Packet) : Bool :=
  p.first || (s.inbox.get p.msg.dest []).any (InMsg.openFrom p.msg)

/-- Page that an error at a node's router or at a unit sets: a tile's TSC page (R246); a rim die has none. -/
def pageAt (u : Nat) : Nat := if tidDie u < 20 then pgTile u 2 else pgNone

/-- Detail of R246: OP, SRC, DEST and TAG; an address that is the page's own tile is not stored (R520). -/
def pktItems (u : Nat) (m : Msg) : List (Nat × Nat) :=
  [(6, m.op)] ++ (if m.src = u then [] else [(13, m.src)]) ++ (if m.dest = u then [] else [(13, m.dest)]) ++
  [(32, m.tag), m.index]

/-- A packet reaches the unit its message names. One of no message, and the first of one whose OP the
unit does not take, raise MSG_OP; nothing of such a message is kept (R214, R215). -/
def deliver (p : Packet) (s : State) : State :=
  let u := p.msg.dest
  let wrong (s : State) : State := raise (pageAt u) .msgOp (pktItems u p.msg) (some p.msg.sctx) s
  if !p.msg.taken then (if p.first then wrong s else s)
  else if s.joins p then
    if (u = unitMgt ∨ u = unitCfg) ∧ p.msg.op = 0x04 then s
    else
      let s := { s with inbox := s.inbox.upd u [] (joinPacket p) }
      if tidDie u < 20 && p.first then s.stat (pgTile u 2) 0x40 1 else s
  else wrong s

/-- The complete message at the head of a unit's inbox (R211). -/
def State.headMsg (s : State) (u : Nat) : Option InMsg :=
  match s.inbox.get u [] with
  | x :: _ => if x.complete then some x else none
  | [] => none

/-- Take the head message of a unit's inbox. -/
def dropMsg (u : Nat) (s : State) : State := { s with inbox := s.inbox.upd u [] List.tail }

/-- The first complete message that `f` accepts, none of its source before it, and the rest
(packets of one source stay in order, R210). -/
def pickIn (f : Msg → Bool) : List Nat → List InMsg → Option (InMsg × List InMsg)
  | _, [] => none
  | seen, m :: ms =>
    if m.complete && f m.msg && !seen.contains m.msg.src then some (m, ms)
    else (pickIn f (m.msg.src :: seen) ms).map (fun (k, r) => (k, m :: r))

/-- Why nothing of a whole message may take effect: packets out of place or fields that break its row,
else a bad payload (R214 to R216). -/
def msgFault (im : InMsg) : Option Err :=
  if im.broken || !im.msg.rowOk then some .msgOp else if im.bad then some .msgUncorrectable else none

/-- A unit of the management die takes its first message of OP `op` that none of its source precedes. -/
def onUnit (u op : Nat) (f : Msg → State → State) (s : State) : State :=
  match pickIn (fun m => m.op == op) [] (s.inbox.get u []) with
  | none => s
  | some (im, rest) =>
    let s := { s with inbox := s.inbox.put u rest [] }
    match msgFault im with
    | some e => raise pgNone e (pktItems u im.msg) (some im.msg.sctx) s
    | none => f im.msg s

/-- Operations the fence holds (R304). -/
def fenceHolds (op : Nat) : Bool :=
  op == 1 || op == 2 || op == 3 || op == 8 || op == 9 || op == 10 || op == 12 || op == 14 ||
  op == 0x10 || op == 0x12 || op == 0x13 || op == 0x14

/-- The node lies in the mould of the tile that a message names. -/
def State.inMouldOf (s : State) (node dest : Nat) : Bool :=
  tidDie node < 20 && tidDie dest < 20 && (s.tile node).cfg.owned && (s.tile dest).cfg.owned &&
  (s.tile node).cfg.ctx == (s.tile dest).cfg.ctx

/-- The packet is held at this router by the fence: it came from outside the mould of its
destination and this is the first router of the mould (R304). -/
def State.fenced (s : State) (node prev : Nat) (p : Packet) : Bool :=
  fenceHolds p.msg.op && s.inMouldOf node p.msg.dest && (s.tile node).cfg.fence &&
  prev != node && !(prev < 8192 && s.inMouldOf prev p.msg.dest)

/-- The packet passes a fence that holds others of its input: an answer to a unit of this mould, and
configuration and management traffic (R304). -/
def State.passes (s : State) (node : Nat) (p : Packet) : Bool :=
  p.msg.op ≥ 0x20 || (!fenceHolds p.msg.op && s.inMouldOf node p.msg.dest)

/-- The first of the packets behind those in `seen` (last first) that may pass them: none of its own
source to its own destination stands ahead, which a message of the management die need not regard
(R210, R304). -/
def takePast (f : Packet → Bool) : List Packet → List Packet → Option (Packet × List Packet)
  | _, [] => none
  | seen, q :: qs =>
    if f q && (q.msg.op ≥ 0x20 || !seen.any (fun p => p.msg.src == q.msg.src && p.msg.dest == q.msg.dest)) then
      some (q, seen.reverse ++ qs)
    else takePast f (q :: seen) qs

/-- The packet that an input of a router offers, and what stays: the first; where the fence holds that
one, the first behind it that passes the fence (R304). -/
def State.offer (s : State) (node prev : Nat) : Option (Packet × List Packet) :=
  match s.routers.get (rkeyOf node prev) [] with
  | [] => none
  | p :: ps =>
    if s.fenced node prev p then takePast (s.passes node) [p] ps else some (p, ps)

/-- Bytes in the 64 KiB buffer of gradient export engine e: every message whole from its first packet on, and the
records that wait (R380, R386; that both share the buffer is a DESIGN CHOICE, assumption 19). -/
def State.gxUsed (s : State) (e : Nat) : Nat :=
  ((s.inbox.get (gxUnit e) []).map (fun m => max m.msg.payload.length (msgLen m.msg.op m.msg.w1))).sum +
  ((s.gx.get e {}).held.map (fun r => r.bytes.length)).sum

/-- The unit takes the packet: an export engine while its buffer has room for the whole message (R380, R386),
every other unit at any time. -/
def State.unitRoom (s : State) (p : Packet) : Bool :=
  match gxOf p.msg.dest with
  | none => true
  | some e => !p.first || decide (s.gxUsed e + msgLen p.msg.op p.msg.w1 ≤ 65536)

/-- A message for the unit waits in the network because its buffer is full: its senders wait (R380, R386; that one
message that waits holds up them all is a DESIGN CHOICE, log 135). -/
def State.heldUp (s : State) (u : Nat) : Bool :=
  (gxOf u).isSome && s.routers.any (fun (k, ps) => k / 16384 == u / 256 * 256 &&
    ps.any (fun p => p.msg.dest == u && !s.unitRoom p))

/-- May the packet that input `prev` offers leave through `out` (the next node; the node itself for the
local port)? -/
def State.mayLeave (s : State) (node out prev : Nat) : Bool :=
  match s.offer node prev with
  | some (p, _) => (s.nextHop node p.msg).getD node == out && (out != node || s.unitRoom p)
  | none => false

/-- Which of its two sharers, the node's own unit (keyed by the node) and a Tier 1 mover (8,192), the local
input offers: the one that did not go last, where both have a packet to offer (R398). -/
def State.localSide (s : State) (node : Nat) : Nat :=
  let last := s.rr.get (rkeyOf node 16383) 0
  match (s.offer node node).isSome, (s.offer node 8192).isSome with
  | true, true => if last = node + 1 then 8192 else node
  | false, true => 8192
  | _, _ => node

/-- The inputs of a node: its links in rising order of the node they come from, and the local input. -/
def State.inputs (s : State) (node : Nat) : List Nat :=
  let ks := s.routers.filterMap (fun (k, _) => if k / 16384 = node then some (k % 16384) else none)
  ks.filter (fun p => p != node && p != 8192) ++ [s.localSide node]

/-- Order of an input among a node's five: a link by the node it comes from, the local input by the node's
own number (R193). -/
def portOrd (node prev : Nat) : Nat := if prev = 8192 then node else prev

/-- The element of `l` with the least order, among those of order `last` or more where there are any. -/
def rrPick (ord : Nat → Nat) (last : Nat) (l : List Nat) : Option Nat :=
  let least (l : List Nat) : Option Nat := l.find? (fun p => l.all (fun q => decide (ord p ≤ ord q)))
  (least (l.filter (fun p => decide (last ≤ ord p)))).orElse (fun _ => least l)

/-- The input an output serves next: round-robin after the one it served last (R193); the pointer holds
that input's order plus one. -/
def State.granted (s : State) (node out : Nat) : Option Nat :=
  rrPick (portOrd node) (s.rr.get (rkeyOf node out) 0) ((s.inputs node).filter (s.mayLeave node out))

/-- Errors of a packet's words met in a router or on a link (R216). Words 0 to 3 are the header
flit. Answers whether the packet goes on and whether its payload is bad. -/
def packetEcc (node : Nat) (p : Packet) (ecc : List Upset) (s : State) : State × Bool × Bool :=
  let hdrBad := ecc.any (fun u => u.dbl && u.addr < 4)
  let payBad := ecc.any (fun u => u.dbl && u.addr ≥ 4)
  let single := ecc.any (fun u => !u.dbl)
  let items := pktItems node p.msg
  let s := if single then raise (pageAt node) .msgCorrected items none s else s
  let s := if hdrBad then raise (pageAt node) .msgHeader items none s else s
  (s, !hdrBad, payBad)

/-- PACKET_ROUTE (R193, R216, R304): output `out` of a router serves one whole packet. -/
def packetRoute (node out : Nat) (ecc : List Upset) (s : State) : State :=
  match s.granted node out with
  | none => s
  | some prev =>
    match s.offer node prev with
    | none => s
    | some (p, rest) =>
      let s := { s with routers := s.routers.put (rkeyOf node prev) rest []
                        rr := s.rr.put (rkeyOf node out) (portOrd node prev + 1) 0 }
      let s := if prev = node ∨ prev = 8192 then
          { s with rr := s.rr.put (rkeyOf node 16383) (prev + 1) 0 } else s
      let (s, goes, bad) := packetEcc node p ecc s
      let p := { p with bad := p.bad || bad }
      if !goes then s
      else if out = node then deliver p s
      else enqueue out node [p] s

/-- PACKET_ROUTE: a tile's router needs its tile; a rim die's router is always there. -/
def execPacketRoute (node out : Nat) (ecc : List Upset) (s : State) :
    Host.Outcome State Fault Refusal :=
  if node < 0x1900 ∧ tidDie node ≥ 20 then .next (packetRoute node out ecc s)
  else s.atTile node (packetRoute node out ecc)

end Sys2Proof.Machine
end

