-- ==== Sys2Proof/Machine/Scratch.lean ====
section
/-! DEFINITION.
The scratchpad: interleaves, banks, reads and writes, skewed tiles, arbitration, windows as tables
(R30 to R43), handles (R51, R52). Bytes are kept by bank, line and byte, so that a change of
interleave reinterprets the same bits (R40). -/

namespace Sys2Proof.Machine

/-! ## Addressing (R31) -/

/-- Bank of byte offset a under an interleave. -/
def bankOf (ilv a : Nat) : Nat :=
  match ilv with
  | 1 => a / 2 ^ 19 % 2 * 8 + a / 64 % 8
  | 2 => a / 2 ^ 18 % 4 * 4 + a / 64 % 4
  | _ => a / 64 % 16

/-- Line within the bank. -/
def lineOf (ilv a : Nat) : Nat :=
  match ilv with
  | 1 => a / 512 % 1024
  | 2 => a / 256 % 1024
  | _ => a / 1024 % 1024

/-- The place of a byte: bank, line, byte in the line. -/
def spKey (ilv a : Nat) : Nat := bankOf ilv a * 65536 + lineOf ilv a * 64 + a % 64

/-- `TSP_SPCTRL` of the live set (R64). -/
def Tile.spctrl (x : Tile) : Word := x.reg 1 0x100

def Tile.ilv (x : Tile) : Nat := fld x.spctrl 16 2

/-- The bank holds data (R38). -/
def Tile.bankOn (x : Tile) (b : Nat) : Bool := bit x.spctrl b

/-- Every line of [a, a + n) lies in the scratchpad and in an enabled bank (R39). -/
def Tile.linesOn (x : Tile) (a n : Nat) : Bool :=
  n == 0 || (decide (a + n ≤ 2 ^ 20) &&
    (List.range ((a + n - 1) / 64 + 1 - a / 64)).all (fun i =>
      x.bankOn (bankOf x.ilv (a / 64 * 64 + 64 * i))))

/-- One byte as stored. -/
def Tile.rd1 (x : Tile) (a : Nat) : Byte := x.sp.get (spKey x.ilv a) 0

/-- n bytes from byte offset a. -/
def Tile.rd (x : Tile) (a : Nat) : Nat → List Byte
  | 0 => []
  | n + 1 => x.rd1 a :: x.rd (a + 1) n

/-- Little-endian number of n bytes. -/
def Tile.rdN (x : Tile) (a n : Nat) : Nat := leNat (x.rd a n)

/-- Write one byte; a byte of a bank that is off leaves nothing behind (R39). -/
def Tile.wr1 (x : Tile) (a : Nat) (b : Byte) : Tile :=
  if x.bankOn (bankOf x.ilv a) then { x with sp := x.sp.put (spKey x.ilv a) b 0 } else x

/-- Write a run of bytes. -/
def Tile.wr (x : Tile) (a : Nat) : List Byte → Tile
  | [] => x
  | b :: bs => (x.wr1 a b).wr (a + 1) bs

/-- Write the masked bits of one byte; the others stay (R30). -/
def Tile.wrMask (x : Tile) (a : Nat) (v m : Byte) : Tile :=
  x.wr1 a ((x.rd1 a &&& ~~~m) ||| (v &&& m))

/-- Element i of a container of w bits at byte offset a (R72). -/
def Tile.rdElem (x : Tile) (w a i : Nat) : Nat :=
  match w with
  | 4 => (x.rd1 (a + i / 2)).toNat / (if i % 2 = 0 then 1 else 16) % 16
  | 8 => (x.rd1 (a + i)).toNat
  | 16 => x.rdN (a + 2 * i) 2
  | 32 => x.rdN (a + 4 * i) 4
  | _ => x.rdN (a + 8 * i) 8

/-- Write element i of a container of w bits (R30, R72). -/
def Tile.wrElem (x : Tile) (w a i c : Nat) : Tile :=
  match w with
  | 4 => x.wrMask (a + i / 2) (BitVec.ofNat 8 (if i % 2 = 0 then c % 16 else c % 16 * 16))
      (if i % 2 = 0 then 0x0F else 0xF0)
  | 8 => x.wr (a + i) (leBytes 1 c)
  | 16 => x.wr (a + 2 * i) (leBytes 2 c)
  | 32 => x.wr (a + 4 * i) (leBytes 4 c)
  | _ => x.wr (a + 8 * i) (leBytes 8 c)

/-! ## Skewed tiles (R32 to R34) -/

/-- Lines per block of a container width (R32). -/
def skewN (w : Nat) : Nat :=
  match w with
  | 16 => 2
  | 32 => 4
  | _ => 1

/-- Byte offset of the line that holds stored row r, and within it of stored column c, of a skewed
tile at T, with the nibble for a 4-bit container as its element index (R32, R33). -/
def skewAt (w T r c : Nat) : Nat × Nat :=
  let n := skewN w
  let bw := if w = 4 then 16 else 8
  let br := r / 8
  let bc := c / bw
  let j := r % 8 / (8 / n)
  let b := 4 * ((br + bc) % 4) + br % (4 / n) * n + j
  let rb := br / (4 / n)
  (T + rb * 1024 + b * 64, (r % 8 % (8 / n)) * bw + c % bw)

/-- Element (r, c) of a skewed tile. -/
def Tile.rdSkew (x : Tile) (w T r c : Nat) : Nat :=
  let (a, i) := skewAt w T r c
  x.rdElem w a i

def Tile.wrSkew (x : Tile) (w T r c v : Nat) : Tile :=
  let (a, i) := skewAt w T r c
  x.wrElem w a i v

/-- Bytes of one skewed tile (R32). -/
def skewBytes (w : Nat) : Nat := 1024 * skewN w

/-! ## Errors of an access (R34, R39, R41) -/

/-- The access [a, a + n) is served when every line's bank is on; otherwise BANK_OFF, charged to the
tile's owner (R39). -/
def touch (t a n : Nat) (u : Option TUnit) (s : State) : Bool × State :=
  if (s.tile t).linesOn a n then (true, s)
  else (false, raiseT t .bankOff [(20, a)] u s)

/-- SP_ALIGN: a skewed tile under another interleave or off a multiple of 1,024 (R34). -/
def Tile.skewOk (x : Tile) (T : Nat) : Bool := x.ilv == 0 && T % 1024 == 0

/-! ## Arbitration (R36, R37, R41) -/

/-- A requester that has waited two consecutive cycles goes first, then the table order (R36). -/
def reqOrder (x : Tile) (r : BankReq) : Nat := (if x.waits.get r.who 0 ≥ 2 then 0 else 100) + r.who

/-- The request served first among those of one bank. -/
def pickReq (x : Tile) : List BankReq → Option BankReq
  | [] => none
  | r :: rs =>
    match pickReq x rs with
    | none => some r
    | some q => if reqOrder x q < reqOrder x r then some q else some r

/-- The SEC-DED words an access meets (R41): each kind raises its error once, with the lowest
offset; a single-bit word is corrected in the array. Answers whether the data may be used. -/
def accessEcc (t : Nat) (a : Nat) (u : Option TUnit) (ecc : List Upset) (s : State) : Bool × State :=
  let here := ecc.filter (fun u => u.addr / 64 == a / 64)
  let low (l : List Upset) : Nat := l.foldl (fun m u => min m (u.addr / 8 * 8)) (2 ^ 20)
  let sg := here.filter (fun u => !u.dbl)
  let db := here.filter (fun u => u.dbl)
  let s := if sg.isEmpty then s else raiseT t .spCorrected [(20, low sg)] none s
  if db.isEmpty then (true, s) else (false, raiseT t .spUncorrectable [(20, low db)] u s)

/-- The unit of the tile that an access belongs to, which an error stops (R36, R352); a message's write is
no unit's. -/
def reqUnit (r : BankReq) : Option TUnit :=
  match r.who with
  | 1 => some (if r.sub < 38 then .port r.sub else .launch (r.sub - 38))
  | 2 => if r.ctx.isSome then none else some (if r.sub < 8 then .record r.sub else .coord)
  | 3 => some .mtx
  | 4 => some .mtx
  | 5 => some .mtx
  | 6 => some .vec
  | 7 => some .vec
  | 8 => some .row
  | 9 => some (.nest r.sub)
  | _ => none

/-- BANK_OFF of an access: a message's write charges its sender, any other the tile's owner (R39, R65). A read of
the debug port raises nothing (R501). -/
def bankOff (t : Nat) (r : BankReq) (s : State) : State :=
  if r.who = 10 ∧ r.store.isNone then s
  else match r.ctx with
  | some c => raise (pgTile t 1) .bankOff [(20, r.addr)] (some c.val) s
  | none => raiseT t .bankOff [(20, r.addr)] (reqUnit r) s

/-- The line that a read returns to its requester. -/
def setRet (t who : Nat) (v : Option (List Byte)) (s : State) : State :=
  s.onTile t (fun x => { x with ret := x.ret.put who v none })

/-- Serve one access: a masked write of its line, or a read whose line the requester gets; nothing from a
bank that is off, and nothing usable where a word has two wrong bits (R30, R39, R41). -/
def serveReq (t : Nat) (ecc : List Upset) (r : BankReq) (s : State) : State :=
  let x := s.tile t
  if !x.bankOn (bankOf x.ilv r.addr) then
    bankOff t r (if r.store.isSome then s
      else setRet t r.who (if r.who = 10 then some (List.replicate 64 0) else none) s)
  else
    let (good, s) := accessEcc t r.addr (reqUnit r) ecc s
    match r.store with
    -- a write whose line holds a bad word still writes the bytes it masks in
    | some ws => s.onTile t (fun x =>
        ws.foldl (fun x (i, v, m) => x.wrMask (r.addr / 64 * 64 + i % 64) v m) x)
    | none => setRet t r.who (if good then some (x.rd (r.addr / 64 * 64) 64) else none) s

/-- A waiting requester counts in the bank's statistic (R36, R522); requester 1, the static fabric, also
in `TCT_STAT_FABWAIT` (R177). -/
def waitReq (t b : Nat) (r : BankReq) (s : State) : State :=
  let s := s.stat (pgTile t 1) (0x40 + 8 * b) 1
  if r.who = 1 then s.stat (pgTile t 0) 0x50 1 else s

/-- What one bank does with its requests of one tile cycle. -/
inductive BankRes where
  /-- two requesters conflict (R37) -/
  | clash (p q : BankReq)
  /-- one is served, the others wait (R36) -/
  | serve (r : BankReq) (wait : List BankReq)
  | idle
  deriving DecidableEq, Repr

/-- One bank in one tile cycle: stall mode serves one and the others wait (R36); in fault mode two
requesters other than the debug port conflict (R37). Where more than two conflict, the two recorded are
the first of the list and the first that differs from it (DESIGN CHOICE, log 100). -/
def Tile.arbitrate (x : Tile) (rs : List BankReq) : BankRes :=
  let nd := rs.filter (fun r => r.who != 10)
  let pick (cand : List BankReq) : BankRes := match pickReq x cand with
    | some r => .serve r (rs.erase r)
    | none => .idle
  if bit x.spctrl 18 then
    match nd with
    | [] => pick rs
    | r :: more => match more.find? (fun q => q.who != r.who) with
      | some q => .clash r q
      | none => pick nd
  else pick rs

/-- The unit starts nothing more until the flush (R352). -/
def stopUnit (t : Nat) (u : Option TUnit) (s : State) : State :=
  match u with
  | some u => s.onTile t (fun x => if x.stopped.contains u then x else { x with stopped := x.stopped ++ [u] })
  | none => s

/-- One bank serves, makes wait or conflicts (R36, R37); both engines of a conflict stop (R352). -/
def serveBank (t b : Nat) (rs : List BankReq) (ecc : List Upset) (s : State) : State :=
  match (s.tile t).arbitrate rs with
  | .clash p q =>
    raiseT t .bankConflict [(4, b), (4, min p.who q.who), (4, max p.who q.who), (2, (s.tile t).cfg.plane)] (reqUnit q)
      (stopUnit t (reqUnit p) s)
  | .serve r wait => wait.foldl (fun s q => waitReq t b q s) (serveReq t ecc r s)
  | .idle => s

/-- The requests of a cycle that fall to bank b. -/
def Tile.bankReqs (x : Tile) (b : Nat) (reqs : List BankReq) : List BankReq :=
  reqs.filter (fun r => bankOf x.ilv r.addr == b)

/-- Who waits at a bank. -/
def BankRes.waiting : BankRes → List Nat
  | .serve _ wait => wait.map (·.who)
  | _ => []

/-- Consecutive waits after the cycle: one more for a requester that waited at any bank, none for the
others (R36). -/
def Tile.waitsAfter (x : Tile) (reqs : List BankReq) : SMap Nat :=
  let lost := (List.range 16).flatMap (fun b => (x.arbitrate (x.bankReqs b reqs)).waiting)
  lost.foldl (fun m w => m.put w (x.waits.get w 0 + 1) 0) []

/-- SCRATCHPAD_ACCESS: the requests of one tile cycle (R30, R36, R37). -/
def execScratchpadAccess (t : Nat) (reqs : List BankReq) (ecc : List Upset) (s : State) :
    Host.Outcome State Fault Refusal :=
  s.atTile t (fun s =>
    let x := s.tile t
    let s := (List.range 16).foldl (fun s b => serveBank t b (x.bankReqs b reqs) ecc s) s
    s.onTile t (fun y => { y with waits := x.waitsAfter reqs }))

/-! ## Bank fill (R40) -/

/-- Banks that the shadow casting enables and the live casting has off. -/
def Tile.newBanks (x : Tile) : Nat := (x.shadowReg 1 0x100).toNat % 65536 &&& ((65535 - x.spctrl.toNat % 65536))

/-- Zero the named banks: their bytes leave the map. -/
def Tile.zeroBanks (x : Tile) (bs : Nat) : Tile :=
  { x with sp := x.sp.filter (fun (k, _) => bs / 2 ^ (k / 65536) % 2 == 0) }

/-! ## Windows (R42, R43) -/

/-- A window entry taken apart (R42). -/
structure Win where
  base : Nat
  size : Nat
  mode : Nat
  cnt : Nat
  incEn : Bool
  writers : Nat
  owner : Nat
  deriving DecidableEq, Repr

def Win.ofWord (w : Word) : Win :=
  { base := fld w 0 14, size := fld w 14 15, mode := fld w 29 2, cnt := fld w 31 4,
    incEn := bit w 35, writers := fld w 36 8, owner := fld w 44 3 }

def Tile.win (x : Tile) (i : Nat) : Win := Win.ofWord (x.reg 1 (0x180 + 8 * i))

/-- A window entry may stand: in range, its size legal, its banks on (R42, R43). -/
def winOk (spctrl w : Word) : Bool :=
  let v := Win.ofWord w
  let ilv := fld spctrl 16 2
  decide (v.base + v.size ≤ 16384) && decide (v.mode = 0 ∨ v.size ≠ 0) &&
  (List.range v.size).all (fun i => bit spctrl (bankOf ilv ((v.base + i) * 64)))

/-- Reserved bits of a window entry are not stored (R10). -/
def winMask (w : Word) : Word := w &&& 0x00007FFFFFFFFFFF

/-- A write of `TSP_WINi`: one that fails the checks is ignored (R42, R43). -/
def writeWin (t i : Nat) (v : Word) (s : State) : State :=
  if winOk (s.tile t).spctrl (winMask v) then s.onTile t (fun x => x.setReg 1 (0x180 + 8 * i) (winMask v))
  else raise (pgTile t 1) .winEntry [(4, i)] none s

/-- WINDOW_ENTRY_WRITE (R43): a bad entry is ignored and raises WIN_ENTRY. -/
def execWindowEntryWrite (t : Nat) (win : Fin 16) (v : Word) (s : State) :
    Host.Outcome State Fault Refusal :=
  s.atTile t (actedTile t (writeWin t win.val v))

/-! ## Handles (R51 to R54) -/

def hWin (h : BitVec 32) : Nat := h.toNat / 2 ^ 28
def hOff (h : BitVec 32) : Nat := h.toNat / 2 ^ 14 % 2 ^ 14
/-- Length in lines; 0 means 16,384. -/
def hLen (h : BitVec 32) : Nat := if h.toNat % 2 ^ 14 = 0 then 16384 else h.toNat % 2 ^ 14

def mkHandle (win off len : Nat) : BitVec 32 :=
  BitVec.ofNat 32 (win % 16 * 2 ^ 28 + off % 2 ^ 14 * 2 ^ 14 + len % 2 ^ 14)

/-- First byte of a handle's buffer. -/
def Tile.hAddr (x : Tile) (h : BitVec 32) : Nat := ((x.win (hWin h)).base + hOff h) * 64

/-- R52: the window is open and holds the buffer. -/
def Tile.handleOk (x : Tile) (h : BitVec 32) : Bool :=
  let w := x.win (hWin h)
  w.mode != 0 && decide (hOff h + hLen h ≤ w.size)

def Tile.hqueue (x : Tile) (q : Nat) : List (BitVec 32) := x.hq.get q []

/-- What a push does (R52, R53): the bounds first, then the occupancy. -/
inductive PushRes where
  | ok
  | bounds
  | full
  deriving DecidableEq, Repr

/-- Handles popped from queue q in the present tile cycle (R54). -/
def Tile.popsNow (x : Tile) (q : Nat) : Nat :=
  let (c, n) := x.pops.get q (0, 0)
  if c = x.clk.cyc then n else 0

/-- A queue that held 16 handles in this cycle overflows, even where a pop of the same cycle has freed a
place (R54). -/
def Tile.pushRes (x : Tile) (q : Nat) (h : BitVec 32) : PushRes :=
  if !x.handleOk h then .bounds else if (x.hqueue q).length + x.popsNow q ≥ 16 then .full else .ok

def Tile.push (x : Tile) (q : Nat) (h : BitVec 32) : Tile :=
  { x with hq := x.hq.upd q [] (· ++ [h]) }

/-- The head handle leaves, in the present cycle. -/
def Tile.popq (x : Tile) (q : Nat) : Tile :=
  { x with hq := x.hq.upd q [] List.tail, pops := x.pops.put q (x.clk.cyc, x.popsNow q + 1) (0, 0) }

end Sys2Proof.Machine
end

