-- ==== Sys2Proof/WellFormed.lean ====
section
/-! DEFINITION.
Which commands are well formed: every operand is within the range that the spec gives what it names.
The machine is total on the others too. -/

namespace Sys2Proof

/-- A tile number: die 0 to 19, row and logical column 0 to 15 (R18). -/
def tidOk (t : Nat) : Bool := decide (t < 20 * 256)

/-- A unit address: 13 bits (R209). -/
def unitOk (u : Nat) : Bool := decide (u < 2 ^ 13)

/-- A stack 0 to 19, or a DDR5 channel 32 to 47 (R413, R414). -/
def memUnitOk (u : Nat) : Bool := decide (u < 20 ∨ 32 ≤ u ∧ u < 48)

/-- Inputs of the switch of each network (R171). -/
def Net.inputs : Net → Nat
  | .vec => 12
  | .sca => 9
  | .ctl => 7

/-- A scratchpad access comes from a requester of R36, lies in the 1 MiB of a tile and stores within one
line (R30). -/
def BankReq.ok (r : BankReq) : Bool :=
  decide (1 ≤ r.who ∧ r.who ≤ 10 ∧ r.sub < 42 ∧ r.addr < 2 ^ 20) && (match r.store with
    | some bs => bs.all (fun b => decide (b.1 < 64))
    | none => true)

def SbXfer.ok (x : SbXfer) : Bool := decide (x.code < 256)

def Upset.ok (u : Upset) : Bool := decide (u.addr < 2 ^ 48)

/-- Every header field fits its width (R431). -/
def LnmPkt.ok (k : LnmPkt) : Bool :=
  decide (k.tctx < 8 ∧ k.tkind < 4 ∧ k.bytes < 2 ^ 11 ∧ k.tag < 2 ^ 32 ∧ k.status < 2 ^ 8 ∧ k.pkt < 4 ∧
    k.extra < 2 ^ 32 ∧ k.payload.length ≤ 1024)

/-- Every field of a hello record fits its width (R428). -/
def HelloRec.ok (r : HelloRec) : Bool :=
  decide (r.vmin < 256 ∧ r.vmax < 256 ∧ r.kind < 256 ∧ r.port < 256 ∧ r.cap < 2 ^ 32 ∧ r.buf0 < 2 ^ 32 ∧
    r.buf1 < 2 ^ 32 ∧ r.agreed < 256)

/-- Every field of a control block fits its width (R425). -/
def CtlBlock.ok (b : CtlBlock) : Bool :=
  decide (b.ackSeq < 2 ^ 32 ∧ b.nakSeq < 2 ^ 32 ∧ b.cred0 < 2 ^ 32 ∧ b.cred1 < 2 ^ 32 ∧ b.lstate < 8)

/-- A sample fits the registers that show it (R477). -/
def PowerSample.ok (p : PowerSample) : Bool :=
  decide (p.vin < 2 ^ 13 ∧ p.iin < 2 ^ 11 ∧ p.pin < 2 ^ 13) && p.halves.all (fun x => decide (x.2.1 < 2 ^ 14))

/-- A command is well formed. -/
def Instr.wf : Instr → Bool
  | .scratchpadAccess t reqs ecc => tidOk t && reqs.all BankReq.ok && ecc.all Upset.ok
  | .bankFillDone t => tidOk t
  | .windowEntryWrite t _ _ => tidOk t
  | .write t => tidOk t
  | .hpush t => tidOk t
  | .handlePop t _ => tidOk t
  | .mma t _ => tidOk t
  | .mmaStepRead t => tidOk t
  | .mmaArrayStep t => tidOk t
  | .blockCombine t ecc => tidOk t && ecc.all Upset.ok
  | .mmaDrain t ecc => tidOk t && ecc.all Upset.ok
  | .stateRecordDrain t ecc => tidOk t && ecc.all Upset.ok
  | .add t _ => tidOk t
  | .sub t _ => tidOk t
  | .mul t _ => tidOk t
  | .fma t _ => tidOk t
  | .fnma t _ => tidOk t
  | .min t _ => tidOk t
  | .max t _ => tidOk t
  | .cmp t _ => tidOk t
  | .sel t _ => tidOk t
  | .abs t _ => tidOk t
  | .neg t _ => tidOk t
  | .cvt t _ => tidOk t
  | .curve t _ => tidOk t
  | .dact t _ => tidOk t
  | .setvl t _ => tidOk t
  | .vectorGroupRead t => tidOk t
  | .vectorGroupWrite t => tidOk t
  | .sum t => tidOk t
  | .redopMax t => tidOk t
  | .redopMin t => tidOk t
  | .argmax t => tidOk t
  | .lnFwd t _ => tidOk t
  | .rmsFwd t _ => tidOk t
  | .smaxFwd t _ => tidOk t
  | .lnBwd t _ ecc => tidOk t && ecc.all Upset.ok
  | .rmsBwd t _ ecc => tidOk t && ecc.all Upset.ok
  | .smaxBwd t _ ecc => tidOk t && ecc.all Upset.ok
  | .switchTokenMove t net input => tidOk t && decide (input < net.inputs)
  | .linkCrossing t _ _ => tidOk t
  | .landingHeadToken t _ => tidOk t
  | .landingDataToken t _ => tidOk t
  | .launchHandlePop t _ => tidOk t
  | .launchDataToken t _ => tidOk t
  | .entryIssue t _ => tidOk t
  | .delayQueueMove t port => tidOk t && decide (port < 34)
  | .progress t port => tidOk t && decide (port < 38)
  | .packetRoute node out ecc => unitOk node && unitOk out && ecc.all Upset.ok
  | .pass t _ => tidOk t
  | .route t _ => tidOk t
  | .merge t _ => tidOk t
  | .filter t _ => tidOk t
  | .emit t _ => tidOk t
  | .takec t _ => tidOk t
  | .planeSwitch t ecc => tidOk t && ecc.all Upset.ok
  | .boundaryCollect t => tidOk t
  | .boundaryInject t => tidOk t
  | .recastInject t => tidOk t
  | .recastPass t => tidOk t
  | .directSend t _ => tidOk t
  | .channelSend t _ => tidOk t
  | .fencedSend t => tidOk t
  | .frozenResend t tag => tidOk t && decide (tag < 2 ^ 32)
  | .pad t => tidOk t
  | .ack u => unitOk u
  | .cinc t => tidOk t
  | .cdec t => tidOk t
  | .claim t => tidOk t
  | .cresp t => tidOk t
  | .cwait t => tidOk t
  | .crel t => tidOk t
  | .creset t => tidOk t
  | .chOpen t => tidOk t
  | .chOpenr t => tidOk t
  | .chGrant u => unitOk u
  | .chReturn t => tidOk t
  | .chClose t => tidOk t
  | .chCloser t => tidOk t
  | .channelProgress t _ => tidOk t
  | .handSet t _ _ => tidOk t
  | .counterFlagClear t _ _ => tidOk t
  | .chcmdOpen t _ => tidOk t
  | .chcmdClose t _ => tidOk t
  | .actionNone t _ => tidOk t
  | .actionWait t _ => tidOk t
  | .actionInc t _ => tidOk t
  | .actionDec t _ => tidOk t
  | .actionReset t _ => tidOk t
  | .actionCinc t _ => tidOk t
  | .actionCdec t _ => tidOk t
  | .actionCwait t _ => tidOk t
  | .actionClaim t _ => tidOk t
  | .actionHpush t _ => tidOk t
  | .actionChret t _ => tidOk t
  | .actionOpen t _ => tidOk t
  | .actionClose t _ => tidOk t
  | .claimRegisterLoad t _ => tidOk t
  | .nestWordTake t _ => tidOk t
  | .nestEndPoint t _ => tidOk t
  | .nestStartPoint t _ => tidOk t
  | .pourHeader _ => true
  | .segment _ => true
  | .nop _ => true
  | .setMould _ => true
  | .setFar _ => true
  | .writeFrames _ => true
  | .writeCreg _ => true
  | .hashCheck _ => true
  | .arm _ => true
  | .castEnd _ => true
  | .finalTag _ => true
  | .closingChecksDone _ => true
  | .readbackDone t ecc => tidOk t && ecc.all Upset.ok
  | .shadowEccError t addr => tidOk t && decide (addr < 2 ^ 48)
  | .pourGo _ => true
  | .pourAbort _ => true
  | .pourIdleTimeout _ => true
  | .castRecastTimeout _ => true
  | .cfgSetup t => tidOk t
  | .cfgFrame t => tidOk t
  | .cfgCreg t => tidOk t
  | .cfgArm t => tidOk t
  | .cfgStaged => true
  | .cfgRecast t => tidOk t
  | .cfgDone => true
  | .cfgDiscard t => tidOk t
  | .cfgFence t => tidOk t
  | .create _ => true
  | .preempt _ => true
  | .resume _ => true
  | .teardown _ => true
  | .restart _ => true
  | .teardownComplete _ => true
  | .preemptDrainComplete _ => true
  | .preemptTimeout _ => true
  | .slotEntryWrite _ _ _ _ => true
  | .segEntryWrite _ _ _ => true
  | .accountingUpdate _ _ => true
  | .cgStage t _ => tidOk t
  | .cgDecide t => tidOk t
  | .cgTimeout t => tidOk t
  | .cgGo t => tidOk t
  | .cgAbort t => tidOk t
  | .cgActDecision t _ => tidOk t
  | .cgcoordWrite t _ => tidOk t
  | .cgpartWrite t _ _ => tidOk t
  | .mgtNotice => true
  | .mgtNoticeAck t => tidOk t
  | .mgtStep t ecc => tidOk t && ecc.all Upset.ok
  | .mgtStepAck => true
  | .restartTimeout _ => true
  | .deviceStuck => true
  | .errRdptrWrite _ => true
  | .gxMessage _ => true
  | .gxRecordSend _ => true
  | .gxConfigWrite _ _ _ => true
  | .gxMaskWrite _ _ => true
  | .moverDescriptor _ => true
  | .storeData _ => true
  | .moverPiece _ ecc => ecc.all Upset.ok
  | .descriptorComplete _ => true
  | .moverFrozenResend _ => true
  | .patrolScrub _ addr ecc => decide (addr < 2 ^ 48) && ecc.all Upset.ok
  | .cxlLinkUp _ _ width => decide (width < 3)
  | .cxlEnumerated _ _ dev => decide (dev.cap < 2 ^ 9 ∧ dev.lat < 2 ^ 16)
  | .cxlLinkDown _ _ => true
  | .cxlOnline _ _ => true
  | .cxlOffline _ _ _ => true
  | .cxlOfflineComplete _ _ => true
  | .portEnable _ => true
  | .portDisable _ => true
  | .lightDetect _ => true
  | .laneLock _ => true
  | .eqConverged _ => true
  | .partnerAligned _ => true
  | .hello _ rec => rec.ok
  | .trainingLimit _ => true
  | .lossOfLight _ => true
  | .lossOfLock _ => true
  | .alignmentLost _ => true
  | .retryExpiry _ => true
  | .controlBlock _ cb => cb.ok
  | .lnmWrite _ pkt => pkt.ok
  | .lnmTierWrite _ pkt => pkt.ok
  | .wack _ pkt => pkt.ok
  | .regrd _ pkt => pkt.ok
  | .regwr _ pkt => pkt.ok
  | .cfgOpen _ pkt => pkt.ok
  | .cfgData _ pkt => pkt.ok
  | .cfgClose _ pkt => pkt.ok
  | .attReq _ pkt => pkt.ok
  | .certChainRequest _ pkt => pkt.ok
  | .ingressIssue _ => true
  | .ingressFrozenResend _ => true
  | .egressWrite _ => true
  | .egressWindowWrite _ _ _ _ => true
  | .lnmTransmit _ => true
  | .calibrationWindow t _ => tidOk t
  | .frequencyLoop _ => true
  | .powerCapLoop sample => sample.ok
  | .thermalLoop _ temp => decide (temp < 2 ^ 11)
  | .junctionOverride _ temp => decide (temp < 2 ^ 11)
  | .currentOverride sample => sample.ok
  | .voltageOverride sample => sample.ok
  | .overrideStep _ temp sample => decide (temp < 2 ^ 11) && sample.ok
  | .thermTrip _ temp => decide (temp < 2 ^ 11)
  | .vinFault sample => sample.ok
  | .halfPowerOff _ => true
  | .halfPowerOn _ => true
  | .tileIdleEntry t => tidOk t
  | .tileNapEntry t => tidOk t
  | .napCommit t => tidOk t
  | .tileWake t => tidOk t
  | .pwrD0 => true
  | .pwrDidle => true
  | .pwrDstandby => true
  | .didleAuto => true
  | .deviceStateCommit _ => true
  | .deviceWake _ _ => true
  | .comparatorFire _ _ _ => true
  | .powerApplied _ => true
  | .powerEnable _ => true
  | .powerDisable => true
  | .resetAssert _ => true
  | .resetDeassert _ => true
  | .referenceClockLost clk => decide (clk < 9)
  | .save => true
  | .shutdown => true
  | .saveComplete _ => true
  | .fuseKeySlot => true
  | .fuseRevoke => true
  | .fusePolicyBit => true
  | .fuseFieldRepair => true
  | .fuseDebugKeyHash => true
  | .fuseProgramDone _ => true
  | .attExtend _ => true
  | .attestationRequest => true
  | .reportSigned => true
  | .bypass _ => true
  | .idcode _ => true
  | .samplePreload _ _ => true
  | .extest _ _ => true
  | .dbgunlock key sig => decide (key.length = 32) && decide (sig.length = 17088)
  | .mgtacc _ addr _ => decide (addr < 2 ^ 48)
  | .mgtWatchdog => true
  | .halt page => decide (page < 2 ^ 16)
  | .haltRelease page => decide (page < 2 ^ 16)
  | .mgtFlashWrite _ => true
  | .mgtRd t => tidOk t
  | .mgtWr t => tidOk t
  | .mgtResp => true
  | .mgtRunstate t => tidOk t
  | .mgtArm t => tidOk t
  | .mgtDisarm t => tidOk t
  | .mgtArmAck => true
  | .pgVerWrite path page _ => decide (path < 10) && decide (page < 2 ^ 16)
  | .regWrite x _ => x.ok
  | .regRead x _ => x.ok
  | .regResult => true
  | .dbgWrite x _ => x.ok
  | .dbgRead x _ => x.ok
  | .registerWrite path addr _ => decide (path < 10) && decide (addr < 2 ^ 48)
  | .packetDrop _ seq got => decide (seq < 2 ^ 32) && got.pkt.ok
  | .superframe _ _ => true
  | .helloSend _ => true
  | .refreshRateChange u need => memUnitOk u && decide (need.rate < 3)
  | .failedChannel _ => true
  | .powerRemoved => true
  | .setdasa sa da => decide (sa < 128) && decide (da < 128)
  | .entdaa da => decide (da < 128)

/-- The tile over which a command acts (R18): of ACK and CH_GRANT where the unit is a tile, of PACKET_ROUTE where the
router is not one of a rim die. -/
def Instr.tile : Instr → Option Nat
  | .scratchpadAccess t _ _ => some t
  | .bankFillDone t => some t
  | .windowEntryWrite t _ _ => some t
  | .write t => some t
  | .hpush t => some t
  | .handlePop t _ => some t
  | .mma t _ => some t
  | .mmaStepRead t => some t
  | .mmaArrayStep t => some t
  | .blockCombine t _ => some t
  | .mmaDrain t _ => some t
  | .stateRecordDrain t _ => some t
  | .add t _ => some t
  | .sub t _ => some t
  | .mul t _ => some t
  | .fma t _ => some t
  | .fnma t _ => some t
  | .min t _ => some t
  | .max t _ => some t
  | .cmp t _ => some t
  | .sel t _ => some t
  | .abs t _ => some t
  | .neg t _ => some t
  | .cvt t _ => some t
  | .curve t _ => some t
  | .dact t _ => some t
  | .setvl t _ => some t
  | .vectorGroupRead t => some t
  | .vectorGroupWrite t => some t
  | .sum t => some t
  | .redopMax t => some t
  | .redopMin t => some t
  | .argmax t => some t
  | .lnFwd t _ => some t
  | .rmsFwd t _ => some t
  | .smaxFwd t _ => some t
  | .lnBwd t _ _ => some t
  | .rmsBwd t _ _ => some t
  | .smaxBwd t _ _ => some t
  | .switchTokenMove t _ _ => some t
  | .linkCrossing t _ _ => some t
  | .landingHeadToken t _ => some t
  | .landingDataToken t _ => some t
  | .launchHandlePop t _ => some t
  | .launchDataToken t _ => some t
  | .entryIssue t _ => some t
  | .delayQueueMove t _ => some t
  | .progress t _ => some t
  | .packetRoute node _ _ => if 20 * 256 ≤ node ∧ node < 0x1900 then none else some node
  | .pass t _ => some t
  | .route t _ => some t
  | .merge t _ => some t
  | .filter t _ => some t
  | .emit t _ => some t
  | .takec t _ => some t
  | .planeSwitch t _ => some t
  | .boundaryCollect t => some t
  | .boundaryInject t => some t
  | .recastInject t => some t
  | .recastPass t => some t
  | .directSend t _ => some t
  | .channelSend t _ => some t
  | .fencedSend t => some t
  | .frozenResend t _ => some t
  | .pad t => some t
  | .ack u => if u < 20 * 256 then some u else none
  | .cinc t => some t
  | .cdec t => some t
  | .claim t => some t
  | .cresp t => some t
  | .cwait t => some t
  | .crel t => some t
  | .creset t => some t
  | .chOpen t => some t
  | .chOpenr t => some t
  | .chGrant u => if u < 20 * 256 then some u else none
  | .chReturn t => some t
  | .chClose t => some t
  | .chCloser t => some t
  | .channelProgress t _ => some t
  | .handSet t _ _ => some t
  | .counterFlagClear t _ _ => some t
  | .chcmdOpen t _ => some t
  | .chcmdClose t _ => some t
  | .actionNone t _ => some t
  | .actionWait t _ => some t
  | .actionInc t _ => some t
  | .actionDec t _ => some t
  | .actionReset t _ => some t
  | .actionCinc t _ => some t
  | .actionCdec t _ => some t
  | .actionCwait t _ => some t
  | .actionClaim t _ => some t
  | .actionHpush t _ => some t
  | .actionChret t _ => some t
  | .actionOpen t _ => some t
  | .actionClose t _ => some t
  | .claimRegisterLoad t _ => some t
  | .nestWordTake t _ => some t
  | .nestEndPoint t _ => some t
  | .nestStartPoint t _ => some t
  | .pourHeader _ => none
  | .segment _ => none
  | .nop _ => none
  | .setMould _ => none
  | .setFar _ => none
  | .writeFrames _ => none
  | .writeCreg _ => none
  | .hashCheck _ => none
  | .arm _ => none
  | .castEnd _ => none
  | .finalTag _ => none
  | .closingChecksDone _ => none
  | .readbackDone t _ => some t
  | .shadowEccError t _ => some t
  | .pourGo _ => none
  | .pourAbort _ => none
  | .pourIdleTimeout _ => none
  | .castRecastTimeout _ => none
  | .cfgSetup t => some t
  | .cfgFrame t => some t
  | .cfgCreg t => some t
  | .cfgArm t => some t
  | .cfgStaged => none
  | .cfgRecast t => some t
  | .cfgDone => none
  | .cfgDiscard t => some t
  | .cfgFence t => some t
  | .create _ => none
  | .preempt _ => none
  | .resume _ => none
  | .teardown _ => none
  | .restart _ => none
  | .teardownComplete _ => none
  | .preemptDrainComplete _ => none
  | .preemptTimeout _ => none
  | .slotEntryWrite _ _ _ _ => none
  | .segEntryWrite _ _ _ => none
  | .accountingUpdate _ _ => none
  | .cgStage t _ => some t
  | .cgDecide t => some t
  | .cgTimeout t => some t
  | .cgGo t => some t
  | .cgAbort t => some t
  | .cgActDecision t _ => some t
  | .cgcoordWrite t _ => some t
  | .cgpartWrite t _ _ => some t
  | .mgtNotice => none
  | .mgtNoticeAck t => some t
  | .mgtStep t _ => some t
  | .mgtStepAck => none
  | .restartTimeout _ => none
  | .deviceStuck => none
  | .errRdptrWrite _ => none
  | .gxMessage _ => none
  | .gxRecordSend _ => none
  | .gxConfigWrite _ _ _ => none
  | .gxMaskWrite _ _ => none
  | .moverDescriptor _ => none
  | .storeData _ => none
  | .moverPiece _ _ => none
  | .descriptorComplete _ => none
  | .moverFrozenResend _ => none
  | .patrolScrub _ _ _ => none
  | .cxlLinkUp _ _ _ => none
  | .cxlEnumerated _ _ _ => none
  | .cxlLinkDown _ _ => none
  | .cxlOnline _ _ => none
  | .cxlOffline _ _ _ => none
  | .cxlOfflineComplete _ _ => none
  | .portEnable _ => none
  | .portDisable _ => none
  | .lightDetect _ => none
  | .laneLock _ => none
  | .eqConverged _ => none
  | .partnerAligned _ => none
  | .hello _ _ => none
  | .trainingLimit _ => none
  | .lossOfLight _ => none
  | .lossOfLock _ => none
  | .alignmentLost _ => none
  | .retryExpiry _ => none
  | .controlBlock _ _ => none
  | .lnmWrite _ _ => none
  | .lnmTierWrite _ _ => none
  | .wack _ _ => none
  | .regrd _ _ => none
  | .regwr _ _ => none
  | .cfgOpen _ _ => none
  | .cfgData _ _ => none
  | .cfgClose _ _ => none
  | .attReq _ _ => none
  | .certChainRequest _ _ => none
  | .ingressIssue _ => none
  | .ingressFrozenResend _ => none
  | .egressWrite _ => none
  | .egressWindowWrite _ _ _ _ => none
  | .lnmTransmit _ => none
  | .calibrationWindow t _ => some t
  | .frequencyLoop _ => none
  | .powerCapLoop _ => none
  | .thermalLoop _ _ => none
  | .junctionOverride _ _ => none
  | .currentOverride _ => none
  | .voltageOverride _ => none
  | .overrideStep _ _ _ => none
  | .thermTrip _ _ => none
  | .vinFault _ => none
  | .halfPowerOff _ => none
  | .halfPowerOn _ => none
  | .tileIdleEntry t => some t
  | .tileNapEntry t => some t
  | .napCommit t => some t
  | .tileWake t => some t
  | .pwrD0 => none
  | .pwrDidle => none
  | .pwrDstandby => none
  | .didleAuto => none
  | .deviceStateCommit _ => none
  | .deviceWake _ _ => none
  | .comparatorFire _ _ _ => none
  | .powerApplied _ => none
  | .powerEnable _ => none
  | .powerDisable => none
  | .resetAssert _ => none
  | .resetDeassert _ => none
  | .referenceClockLost _ => none
  | .save => none
  | .shutdown => none
  | .saveComplete _ => none
  | .fuseKeySlot => none
  | .fuseRevoke => none
  | .fusePolicyBit => none
  | .fuseFieldRepair => none
  | .fuseDebugKeyHash => none
  | .fuseProgramDone _ => none
  | .attExtend _ => none
  | .attestationRequest => none
  | .reportSigned => none
  | .bypass _ => none
  | .idcode _ => none
  | .samplePreload _ _ => none
  | .extest _ _ => none
  | .dbgunlock _ _ => none
  | .mgtacc _ _ _ => none
  | .mgtWatchdog => none
  | .halt _ => none
  | .haltRelease _ => none
  | .mgtFlashWrite _ => none
  | .mgtRd t => some t
  | .mgtWr t => some t
  | .mgtResp => none
  | .mgtRunstate t => some t
  | .mgtArm t => some t
  | .mgtDisarm t => some t
  | .mgtArmAck => none
  | .pgVerWrite _ _ _ => none
  | .regWrite _ _ => none
  | .regRead _ _ => none
  | .regResult => none
  | .dbgWrite _ _ => none
  | .dbgRead _ _ => none
  | .registerWrite _ _ _ => none
  | .packetDrop _ _ _ => none
  | .superframe _ _ => none
  | .helloSend _ => none
  | .refreshRateChange _ _ => none
  | .failedChannel _ => none
  | .powerRemoved => none
  | .setdasa _ _ => none
  | .entdaa _ => none

end Sys2Proof
end

