-- ==== Sys2Proof/Machine/Ports.lean ====
section
/-! DEFINITION.
The ports of the static fabric: input FIFOs and delay queues, local inputs, STATUS tokens, word
inputs (R169, R171, R173, R183 to R185). Ports are numbered as delay queue descriptors (R183). -/

namespace Sys2Proof.Machine

/-- Port number of input i of a static network (R183). -/
def portNo (net : Net) (i : Nat) : Nat :=
  match net with
  | .vec => i
  | .sca => 12 + i
  | .ctl => 21 + i

/-- Number of outputs of a network (R171); its inputs are `Net.inputs`. -/
def netOuts : Net → Nat
  | .vec => 12
  | .sca => 12
  | .ctl => 6

/-- Control word of steering unit u in the live plane (R194). -/
def Tile.steerCtl (x : Tile) (u : Nat) : Word := x.cword x.cfg.plane 1 (32 * u)

/-- The network whose tokens a port holds (R183, R194). -/
def Tile.portNet (x : Tile) (p : Nat) : Net :=
  if p < 12 then .vec
  else if p < 21 then .sca
  else if p < 28 then .ctl
  else
    let w := x.steerCtl ((p - 28) / 3)
    if (p - 28) % 3 = 2 then (if bit w 6 then .sca else .ctl)
    else (if fld w 0 2 = 2 then .sca else .vec)

/-- Tokens per line of a delay queue and bytes per token (R184). -/
def perLine : Net → Nat
  | .vec => 1
  | .sca => 16
  | .ctl => 64

def tokBytes : Net → Nat
  | .vec => 64
  | .sca => 4
  | .ctl => 1

/-- Delay queue descriptor of a port (R183): base line and depth in lines. -/
def Tile.dqDesc (x : Tile) (p : Nat) : Nat × Nat :=
  let w := x.cword x.cfg.plane 0 (16 + p)
  (fld w 0 14, fld w 14 7)

/-- Capacity of a port's delay queue in tokens (R184). -/
def Tile.dqCap (x : Tile) (p : Nat) : Nat := (x.dqDesc p).2 * perLine (x.portNet p)

def Tile.port (x : Tile) (p : Nat) : Port := x.fab.ports.get p {}

def Tile.setPort (x : Tile) (p : Nat) (q : Port) : Tile :=
  { x with fab := { x.fab with ports := x.fab.ports.put p q {} } }

/-- Bytes of a port's queue region. -/
def Tile.dqBytes (x : Tile) (p : Nat) : Nat := (x.dqDesc p).2 * 64

/-- Scratchpad offset of byte `o` of a port's queue region. -/
def Tile.dqAddr (x : Tile) (p o : Nat) : Nat := (x.dqDesc p).1 * 64 + o

/-- Bytes of the region from its oldest token to the place behind its newest. -/
def Port.span (q : Port) (bytes : Nat) : Nat :=
  match q.queue with
  | [] => 0
  | k :: _ =>
    let n := (q.qpos + bytes - k.place) % bytes
    if n = 0 then bytes else n

/-- Where the next token of `w` bytes goes: behind the newest, at a multiple of its length. A queue keeps
the tokens of planes whose steering units use another network (R203) at their own lengths. -/
def Port.next (q : Port) (w : Nat) : Nat := cdiv q.qpos w * w

/-- Tokens that the delay queue can still take (R184): none in a napping tile, whose arrivals wait in the FIFOs
(R464). -/
def Tile.dqFree (x : Tile) (p : Nat) : Nat :=
  let q := x.port p
  let w := tokBytes (x.portNet p)
  if x.clk.pstate = .nap then 0 else (x.dqBytes p - q.span (x.dqBytes p) - (if q.queue = [] then 0 else q.next w - q.qpos)) / w

/-- The port takes one more token: its FIFO and its queue are not both full, tokens on their way
counted (R185). -/
def Tile.portRoom (x : Tile) (p : Nat) : Bool :=
  let q := x.port p
  q.fifo.length + q.flight.length < 8 + x.dqFree p

/-- The head of the queue moves into the FIFO, its payload read back from its place in the region
(R185). -/
def Tile.dqMove (x : Tile) (p : Nat) : Tile :=
  let q := x.port p
  match q.queue with
  | [] => x
  | tk :: rest =>
    if q.fifo.length ≥ 8 then x
    else
      let data := BitVec.ofNat 512 (x.rdN (x.dqAddr p tk.place) tk.width)
      x.setPort p { q with fifo := q.fifo ++ [{ tk with data := data, place := 0, width := 0 }], queue := rest }

/-- A token enters the port (R185): the FIFO when the queue is empty, else the queue's tail with its
payload in the scratchpad. -/
def Tile.portPut (x : Tile) (p : Nat) (tk : Token) : Tile :=
  let q := x.port p
  if q.queue = [] ∧ q.fifo.length < 8 then x.setPort p { q with fifo := q.fifo ++ [tk] }
  else
    let x := if x.dqFree p > 0 then x else x.dqMove p
    let q := x.port p
    let w := tokBytes (x.portNet p)
    let o := if q.queue = [] ∨ q.next w ≥ x.dqBytes p then 0 else q.next w
    let x := x.wr (x.dqAddr p o) (leBytes w tk.data.toNat)
    x.setPort p { q with queue := q.queue ++ [{ tk with data := 0, place := o, width := w }], qpos := o + w }

/-- A port refuses a token from upstream while it is full, and the refusal is counted (R185, R522). -/
def refused (t p : Nat) (s : State) : State :=
  if (s.tile t).portRoom p then s else s.stat (pgTile t 0) 0x40 1

/-- The token at the head of a port's FIFO. -/
def Tile.portHead (x : Tile) (p : Nat) : Option Token := (x.port p).fifo.head?

/-- The head token leaves; the watch returns to zero (R189). -/
def Tile.portPop (x : Tile) (p : Nat) : Tile :=
  let q := x.port p
  x.setPort p { q with fifo := q.fifo.tail, watch := 0 }

/-- Tag of a control token (R169). -/
def Token.tag (k : Token) : Nat := k.data.toNat / 2 % 16

def Token.val1 (k : Token) : Bool := k.data.toNat % 2 == 1

/-- A BOUNDARY or RECAST marker (R169). -/
def Token.isMarker (k : Token) : Bool := k.tag == 12 || k.tag == 13

/-- A control token of this tile. -/
def ctlToken (x : Tile) (tag : Nat) (v : Bool) : Token :=
  { data := BitVec.ofNat 512 (tag * 2 + b2n v), set := x.cfg.liveSet, arr := x.clk.cyc }

/-- Place a STATUS token on control input 4 (R169, R171, R236). -/
def Tile.putStatus (x : Tile) (lost : Bool) : Tile := x.portPut 25 (ctlToken x 14 lost)

/-- A tile's own input takes a scalar word. -/
def Tile.putScalar (x : Tile) (i v : Nat) : Tile :=
  x.portPut (portNo .sca i) { data := BitVec.ofNat 512 (v % 2 ^ 32), set := x.cfg.liveSet, arr := x.clk.cyc }

end Sys2Proof.Machine
end

