-- ==== Sys2Proof/Machine/Counters.lean ====
section
/-! DEFINITION.
Messages at their destination: window writes, handle pushes, counter operations and their answers
(R44 to R54, R218, R219, R225, R232 to R243, R318, R546). -/

namespace Sys2Proof.Machine

/-! ## Counters (R232 to R241) -/

def Tile.counter (x : Tile) (c : Nat) : Counter := x.mp.counters.get c {}

def Tile.setCounter (x : Tile) (c : Nat) (k : Counter) : Tile :=
  { x with mp := { x.mp with counters := x.mp.counters.put c k {} } }

/-- `TSC_CCFGi` of the live set (R245). -/
def Tile.ccfg (x : Tile) (c : Nat) : Word := x.reg 2 (0x180 + 8 * c)

/-- Counter, channel and record detail of R246 at the tile that received the message: OP, SRC unless it is the tile
itself (R520), TAG and an index. -/
def msgItems (m : Msg) (w idx : Nat) : List (Nat × Nat) :=
  [(6, m.op)] ++ (if m.src = m.dest then [] else [(13, m.src)]) ++ [(32, m.tag), (w, idx)]

/-- The same detail for a local operation: OP, SRC and TAG have no value (R520). -/
def localItems (w idx : Nat) : List (Nat × Nat) := [(6, 0), (13, 0), (32, 0), (w, idx)]

/-- CREL to a waiter's tile with a status, from unit `src` (R236, R240). -/
def crelMsg (src c : Nat) (w : Waiter) (status : Nat) : Msg :=
  { op := 0x0D, src := src, dest := w.src, sctx := c, tctx := w.ctx, priv := src == unitMgt,
    w1 := packW [(4, 0), (8, w.epoch), (1, b2n w.epv), (24, 0), (4, w.rcnt), (4, 0), (14, 0),
      (1, b2n w.lostOk), (1, b2n w.statEn)],
    tag := w.tag, status := status }

/-- The home tile sends it. -/
def sendCrel (t : Nat) (w : Waiter) (status : Nat) (s : State) : State :=
  sendMsg (crelMsg t (s.tile t).cfg.ctx w status) s

/-- Free the waiter records whose threshold is met and release them, in record order (R236). -/
def releaseWaiters (t c : Nat) (s : State) : State :=
  (List.range 4).foldl (fun s i =>
    let k := (s.tile t).counter c
    match k.waiters.getD i none with
    | some w =>
      if k.value ≥ w.thresh then
        let s := s.onTile t (fun x => x.setCounter c { k with waiters := k.waiters.set i none })
        sendCrel t w 0 s
      else s
    | none => s) s

/-- A counter that no operation changes: LOST, or frozen with its context (R239, R240). -/
def Tile.counterHeld (x : Tile) (c : Nat) : Bool := (x.counter c).lost || x.cfg.frozen

/-- VALUE + n with saturation (R234). -/
def Counter.inc (k : Counter) (n : Nat) : Counter × Bool :=
  if k.value + n > 0xFFFFFF then ({ k with value := 0xFFFFFF, satHi := true }, true)
  else ({ k with value := k.value + n }, false)

/-- VALUE − n with saturation (R234). -/
def Counter.dec (k : Counter) (n : Nat) : Counter × Bool :=
  if n > k.value then ({ k with value := 0, satLo := true }, true)
  else ({ k with value := k.value - n }, false)

/-- A counter that has saturated at time `now` keeps when its flag was set (R509). -/
def Counter.stamp (k : Counter) (now : Nat) (sat : Bool) : Counter :=
  if !sat then k else if k.value = 0 then { k with loAt := some now } else { k with hiAt := some now }

/-- Store a counter that an operation has changed, raise CNT_SATURATED where it saturated, and test
its waiters (R234, R236). -/
def putCounter (t c : Nat) (r : Counter × Bool) (items : List (Nat × Nat)) (s : State) : State :=
  let s := s.onTile t (fun x => x.setCounter c (r.1.stamp s.time r.2))
  let s := if r.2 then (raiseT t .cntSaturated items none s).stat (pgTile t 2) 0x60 1 else s
  releaseWaiters t c s

/-- A local increment (R233); nothing on a held counter (R239, R240). -/
def localInc (t c n : Nat) (s : State) : State :=
  if (s.tile t).counterHeld c then s
  else putCounter t c (((s.tile t).counter c).inc n) (localItems 4 c) s

/-- A local decrement (R233). -/
def localDec (t c n : Nat) (s : State) : State :=
  if (s.tile t).counterHeld c then s
  else putCounter t c (((s.tile t).counter c).dec n) (localItems 4 c) s

/-- A local reset to base (R233). -/
def localReset (t c : Nat) (s : State) : State :=
  if (s.tile t).counterHeld c then s
  else putCounter t c ({ (s.tile t).counter c with value := fld ((s.tile t).ccfg c) 0 24 }, false)
    (localItems 4 c) s

/-- CLAIM n at a counter (R235): the counter after, the status and the value. -/
def claimAt (k : Counter) (n : Nat) : Counter × Nat × Nat :=
  if k.lost then (k, 2, 0)
  else if k.satHi then (k, 1, 0)
  else if k.value + n > 0xFFFFFF then ({ k with value := 0xFFFFFF, satHi := true }, 1, 0)
  else ({ k with value := k.value + n }, 0, k.value)

/-! ## Message words (R213) -/

/-- Word 1 of a window message (R213). -/
def winW1 (win off mlen : Nat) : Word := packW [(4, win), (20, off), (13, mlen)]

/-- Word 1 of a counter message (R213). -/
def cntW1 (cnt epoch : Nat) (epv : Bool) (amt rcnt rwin roff : Nat) (lostOk statEn : Bool) : Word :=
  packW [(4, cnt), (8, epoch), (1, b2n epv), (24, amt), (4, rcnt), (4, rwin), (14, roff),
    (1, b2n lostOk), (1, b2n statEn)]

/-- Word 1 of a channel message (R213). -/
def chW1 (win rec_ lines maxmsg : Nat) : Word := packW [(4, win), (3, rec_), (14, lines), (14, maxmsg)]

/-! ## Answers (R218, R219, R358, R546) -/

/-- The status with which a tile turns a message away before it looks at it: FROZEN where the
target context is frozen, OWNER_LOST where another or no context owns the tile or its mould is
restarting (R219, R358). -/
def turnAway (x : Tile) (m : Msg) : Option Nat :=
  if x.mp.runStates.get m.tctx 0 = 4 ∨ (x.cfg.frozen ∧ x.cfg.ctx = m.tctx) then some 3
  else if !x.cfg.owned || x.cfg.ctx != m.tctx then some 2
  else if x.cfg.contained then some 2
  else none

/-- Answer a refused or settled operation: a CLAIM by CRESP, a CWAIT by CREL, a CH_OPEN by CH_OPENR
(R223), any other by an ACK (R218, R546). -/
def refuse (t : Nat) (m : Msg) (status : Nat) (s : State) : State :=
  if m.op = 0x0A then sendMsg (tileAnswer s t m 0x0B status (setFld m.w1 13 24 0)) s
  else if m.op = 0x0C then sendMsg (tileAnswer s t m 0x0D status (setFld m.w1 13 24 0)) s
  else if m.op = 0x10 then sendMsg (tileAnswer s t m 0x11 status (m.w1 &&& 0x7F)) s
  else (sendMsg (tileAnswer s t m 0x04 status 0) s).stat (pgTile t 2) 0x48 1

/-- The context a message error charges: the sender's; for an ingress engine or the management die
the one that owns the window (R65). -/
def chargeOf (m : Msg) (owner : Nat) : Nat :=
  if m.priv && (movOf m.src).isNone then owner else m.sctx

/-- Raise the fault of a message at its tile, charged to its sender (R214 to R216, R246). -/
def raiseMsg (t : Nat) (e : Err) (m : Msg) (s : State) : State :=
  raise (pgTile t 2) e (msgItems m m.index.1 m.index.2) (some m.sctx) s

/-- OPs whose sender is always answered (R218, R546). -/
def alwaysAnswered (op : Nat) : Bool := op == 1 || op == 8 || op == 9 || op == 0x0A || op == 0x0C || op == 0x0E

/-- A mould that restarts answers as a LOST counter would: a CH_OPEN too by an ACK (R240, R358). -/
def turnBack (t : Nat) (m : Msg) (st : Nat) (s : State) : State :=
  if m.op = 0x10 ∧ (s.tile t).cfg.contained then (sendMsg (tileAnswer s t m 0x04 st 0) s).stat (pgTile t 2) 0x48 1
  else refuse t m st s

/-- Take the head message of tile t when it is complete and carries OP `op`; of a faulty one nothing is
applied (R211, R214 to R216, R219). -/
def onHead (t op : Nat) (f : Msg → State → State) (s : State) : State :=
  match s.headMsg t with
  | none => s
  | some im =>
    let m := im.msg
    if m.op != op || (s.tile t).gated then s
    else
      let s := dropMsg t s
      match msgFault im with
      | some e =>
        let s := raiseMsg t e m s
        if alwaysAnswered op then refuse t m 6 s else s
      | none => match turnAway (s.tile t) m with
        | some st => turnBack t m st s
        | none => f m s

/-- Take a management or configuration message at the head of tile t's inbox; at an IDLE or NAP tile it
waits (R211, R308, R464, R480). -/
def onMgt (t op : Nat) (f : Msg → State → State) (s : State) : State :=
  match s.headMsg t with
  | none => s
  | some im =>
    if im.msg.op != op || (s.tile t).gated then s
    else match msgFault im with
      | some e => raiseMsg t e im.msg (dropMsg t s)
      | none => f im.msg (dropMsg t s)

/-! ## WRITE, PAD, HPUSH (R44 to R54, R225, R318) -/

/-- Slot entry A of slot i of context c (R334). -/
def State.slotA (s : State) (c i : Nat) : Word := s.devReg (pgCtx c) (0x140 + 16 * i)

/-- The enabled slot of the tile's owner that binds this tile and window (R316). -/
def State.boundSlot (s : State) (t win : Nat) : Option Nat :=
  match (s.tile t).owner with
  | none => none
  | some c => (List.range 8).find? (fun i =>
      let w := s.slotA c i
      bit w 0 && fld w 1 13 == t && fld w 14 4 == win)

/-- The RECV record bound to a window (R224). -/
def Tile.recvOf (x : Tile) (win : Nat) : Option Nat :=
  (List.range 8).find? (fun r =>
    (x.mp.recs.get r {}).st == .bound && fld (x.reg 2 (0x200 + 8 * r)) 15 4 == win)

/-- The error a window write meets, in the order of R44 (R39, R45, R224). -/
def winCheck (x : Tile) (m : Msg) (off len : Nat) : Option Err :=
  let w := x.win m.win
  if w.mode = 0 then some .winClosed
  else if w.mode = 3 then
    if !m.priv then some .winClass
    else if w.base * 64 + off + len > 0x100000 then some .winBounds
    else none
  else if !(m.sctx = w.owner || w.writers / 2 ^ m.sctx % 2 = 1) then some .winForeign
  else if w.mode = 2 && (match x.recvOf m.win with
      | some r => (x.mp.recs.get r {}).peer != m.src
      | none => false) then some .winForeign
  else if off + len > w.size * 64 then some .winBounds
  else none

/-- The payload with the STAMP of R318 where the window is a slot's entry. -/
def stamped (s : State) (t win : Nat) (bs : List Byte) : List Byte :=
  if (s.boundSlot t win).isSome && bs.length ≥ 64 then
    bs.take 56 ++ leBytes 8 (s.tile t).clk.cyc ++ bs.drop 64
  else bs

/-- A committed ring message or pad raises OCC of the RECV record; `n` messages are counted (R225, R227). -/
def ringOcc (t win lines n : Nat) (s : State) : State :=
  match (s.tile t).recvOf win with
  | some r => s.onTile t (fun x =>
      { x with mp := { x.mp with recs := x.mp.recs.upd r {} (fun k =>
          { k with credit := k.credit + lines, seq := (k.seq + n) % 2 ^ 32 }) } })
  | none => s

/-- A WRITE that passed R219: checked, committed, counted, acknowledged (R44 to R49, R218). -/
def doWrite (t : Nat) (m : Msg) (s : State) : State :=
  let x := s.tile t
  let w := x.win m.win
  let len := m.payload.length
  let c := chargeOf m w.owner
  if m.mlen ≠ len ∨ len = 0 ∨ len > 4096 then
    refuse t m 6 (raiseMsg t .msgOp m s)
  else match winCheck x m m.off len with
  | some e => refuse t m 6 (raise (pgTile t 1) e [(4, m.win), (20, m.off), (13, len), (13, m.src)] (some c) s)
  | none =>
    let a := w.base * 64 + m.off
    if !x.linesOn a len then
      refuse t m 6 (raise (pgTile t 1) .bankOff [(20, a)] (some c) s)
    else
      let bs := stamped s t m.win m.payload
      let s := s.onTile t (fun x => x.wr a bs)
      let s := ringOcc t m.win (len / 64) 1 s
      let s := if w.incEn then localInc t w.cnt 1 s else s
      refuse t m 0 s

/-- WRITE (R44). -/
def execWrite (t : Nat) (s : State) : Host.Outcome State Fault Refusal :=
  s.atTile t (onHead t 0x01 (doWrite t))

/-- Header line of a channel record (R225). -/
def chHeader (kind lines bytes src seq : Nat) : List Byte :=
  leBytes 8 (pack [(2, kind), (14, lines), (13, bytes), (13, src)]) ++ leBytes 8 (seq % 2 ^ 32) ++
  List.replicate 48 0

/-- A PAD that passed R219 writes a pad record header at its offset; never increments (R214, R225).
LINES runs from the offset to the end of the ring; SEQ is the number of the message that follows, which
the RECV record counts (log 44). -/
def doPad (t : Nat) (m : Msg) (s : State) : State :=
  let x := s.tile t
  let w := x.win m.win
  let c := chargeOf m w.owner
  match winCheck x m m.off 64 with
  | some e => raise (pgTile t 1) e [(4, m.win), (20, m.off), (13, 64), (13, m.src)] (some c) s
  | none =>
    let a := w.base * 64 + m.off
    let lines := w.size - m.off / 64
    if !x.linesOn a 64 then raise (pgTile t 1) .bankOff [(20, a)] (some c) s
    else
      let seq := ((x.recvOf m.win).map (fun r => (x.mp.recs.get r {}).seq)).getD 0
      ringOcc t m.win lines 0 (s.onTile t (fun x => x.wr a (chHeader 2 lines 0 m.src seq)))

/-- PAD (R225). -/
def execPad (t : Nat) (s : State) : Host.Outcome State Fault Refusal :=
  s.atTile t (onHead t 0x02 (doPad t))

/-- Push a handle onto a queue, charged to the pusher (R52, R53). -/
def pushHandle (t q : Nat) (h : BitVec 32) (charge : Option Nat) (u : Option TUnit) (s : State) : State :=
  let stop (e : Err) (s : State) := match u with
    | some u => raiseT t e [(2, q), (32, h.toNat)] (some u) s
    | none => raise (pgTile t 1) e [(2, q), (32, h.toNat)] charge s
  match (s.tile t).pushRes q h with
  | .ok => s.onTile t (fun x => x.push q h)
  | .bounds => stop .handleBounds s
  | .full => stop .hqOverflow s

/-- HPUSH (R52). -/
def execHpush (t : Nat) (s : State) : Host.Outcome State Fault Refusal :=
  s.atTile t (onHead t 0x03 (fun m s =>
    pushHandle t (m.win % 4) (BitVec.ofNat 32 (leNat m.payload)) (some m.sctx) none s))

/-! ## Counter messages (R233 to R240) -/

/-- The export grant admits the sender's context (R237). -/
def admits (x : Tile) (m : Msg) : Bool :=
  let g := x.ccfg m.cnt
  m.sctx == x.cfg.ctx ||
  (bit g (25 + m.sctx) && (match m.op with
    | 0x0C => bit g 33
    | 0x08 => bit g 34
    | 0x09 => bit g 34
    | 0x0A => bit g 35
    | _ => false))

/-- What an operation's epoch does (R238). -/
inductive EpochRes where
  | apply
  | advance
  | stale
  deriving DecidableEq, Repr

def epochRes (x : Tile) (m : Msg) : EpochRes :=
  if bit (x.ccfg m.cnt) 24 && m.epv then
    let d := (m.epoch + 256 - (x.counter m.cnt).epoch) % 256
    if d = 0 then .apply else if d ≤ 127 then .advance else .stale
  else .apply

/-- Advance a counter to a newer epoch: older waiters raise CNT_EPOCH and are freed (R238). -/
def advanceEpoch (t : Nat) (m : Msg) (s : State) : State :=
  let x := s.tile t
  let k := x.counter m.cnt
  let s := s.onTile t (fun x => x.setCounter m.cnt
    { k with value := fld (x.ccfg m.cnt) 0 24, epoch := m.epoch, waiters := [none, none, none, none] })
  k.waiters.foldl (fun s w => match w with
    | some w => raise (pgTile t 2) .cntEpoch [(6, 0x0C), (13, w.src), (32, w.tag), (4, m.cnt)] (some w.ctx) s
    | none => s) s

/-- Apply an admitted counter operation (R233 to R236). -/
def applyCounter (t : Nat) (m : Msg) (s : State) : State :=
  let k := (s.tile t).counter m.cnt
  let items := msgItems m 4 m.cnt
  match m.op with
  | 0x08 => putCounter t m.cnt (k.inc m.amt) items s
  | 0x09 => putCounter t m.cnt (k.dec m.amt) items s
  | 0x0E => putCounter t m.cnt ({ k with value := fld ((s.tile t).ccfg m.cnt) 0 24 }, false) items s
  | 0x0A =>
    let (k', st, v) := claimAt k m.amt
    let s := putCounter t m.cnt (k', k'.satHi && !k.satHi) items s
    sendMsg (answer m 0x0B st (setFld m.w1 13 24 v)) s
  | _ =>
    match k.waiters.findIdx? (·.isNone) with
    | none =>
      refuse t m 6 (raise (pgTile t 2) .waitFull items (some m.sctx) s)
    | some i =>
      let w : Waiter := ⟨m.src, m.sctx, m.amt, k.epoch, m.epv, m.rcnt, m.lostOk, m.statEn, m.tag⟩
      putCounter t m.cnt ({ k with waiters := k.waiters.set i (some w) }, false) items s

/-- A counter message at its home tile (R233, R237 to R240, R546). -/
def doCounter (t : Nat) (m : Msg) (s : State) : State :=
  let x := s.tile t
  let items := msgItems m 4 m.cnt
  if x.cfg.frozen then refuse t m 3 s
  else if (x.counter m.cnt).lost then refuse t m 2 s
  else if (m.op = 0x08 ∨ m.op = 0x09 ∨ m.op = 0x0A) ∧ m.amt = 0 then
    refuse t m 6 (raise (pgTile t 2) .msgOp items (some m.sctx) s)
  else if m.op = 0x0E then
    if (m.sctx = x.cfg.ctx ∧ tidDie m.src < 20) ∨ m.src = unitMgt then applyEpoch x items s
    else refuse t m 4 (raise (pgTile t 2) .cntForeign items (some m.sctx) s)
  else if !admits x m then refuse t m 4 (raise (pgTile t 2) .cntForeign items (some m.sctx) s)
  else applyEpoch x items s
where
  applyEpoch (x : Tile) (_ : List (Nat × Nat)) (s : State) : State :=
    match epochRes x m with
    | .apply => applyCounter t m s
    | .advance => applyCounter t m (advanceEpoch t m s)
    | .stale => refuse t m 6 (s.stat (pgTile t 2) 0x58 1)

/-- CINC (R233). -/
def execCinc (t : Nat) (s : State) : Host.Outcome State Fault Refusal :=
  s.atTile t (onHead t 0x08 (doCounter t))

/-- CDEC (R233). -/
def execCdec (t : Nat) (s : State) : Host.Outcome State Fault Refusal :=
  s.atTile t (onHead t 0x09 (doCounter t))

/-- CLAIM (R235). -/
def execClaim (t : Nat) (s : State) : Host.Outcome State Fault Refusal :=
  s.atTile t (onHead t 0x0A (doCounter t))

/-- CWAIT (R236). -/
def execCwait (t : Nat) (s : State) : Host.Outcome State Fault Refusal :=
  s.atTile t (onHead t 0x0C (doCounter t))

/-- CRESET (R233). -/
def execCreset (t : Nat) (s : State) : Host.Outcome State Fault Refusal :=
  s.atTile t (onHead t 0x0E (doCounter t))

/-! ## Answers at the requester (R218 to R221, R235, R236, R240, R546) -/

/-- The operation with this TAG leaves the tile's list, and no FENCED operation waits for it
(R220, R221). -/
def settle (t tag : Nat) (s : State) : State :=
  s.onTile t (fun x =>
    { x with mp := { x.mp with
        sent := x.mp.sent.filter (fun o => o.msg.tag != tag),
        fenced := x.mp.fenced.map (fun f => { f with tags := f.tags.filter (· != tag) }) } })

/-- A FROZEN answer: the operation is resent after 1,024 tile cycles (R219). -/
def freezeOp (t tag : Nat) (s : State) : State :=
  s.onTile t (fun x =>
    { x with mp := { x.mp with sent := x.mp.sent.map (fun o =>
        if o.msg.tag = tag then { o with frozenAt := some x.clk.cyc, frozen := true } else o) } })

/-- The operation a tile sent with this TAG. -/
def Tile.sentOp (x : Tile) (tag : Nat) : Option SentOp := x.mp.sent.find? (fun o => o.msg.tag == tag)

/-- The tile is owned by the context that an answer names, and not restarting (R219, R358). -/
def Tile.asked (x : Tile) (m : Msg) : Bool := x.cfg.owned && x.cfg.ctx == m.tctx && !x.cfg.contained

/-- A frozen tile sets a message aside until the thaw (R239, R350). -/
def setAside (t : Nat) (im : InMsg) (s : State) : State :=
  s.onTile t (fun x => { x with mp := { x.mp with parked := x.mp.parked ++ [im] } })

/-- Take an answer at the head of tile t's inbox. A frozen tile sets it aside until RESUME; a tile that
the asking context no longer owns, or that restarts, discards it (R219, R239, R358). -/
def onAnswer (t op : Nat) (f : Msg → State → State) (s : State) : State :=
  match s.headMsg t with
  | none => s
  | some im =>
    let x := s.tile t
    if im.msg.op != op || x.gated then s
    else match msgFault im with
      | some e => raiseMsg t e im.msg (dropMsg t s)
      | none =>
        if !x.asked im.msg then dropMsg t s
        else if x.cfg.frozen then
          setAside t im (dropMsg t s)
        else f im.msg (dropMsg t s)

/-- The answers set aside while tile t was frozen stand at the head of its inbox again, and every waiter
is tested against its counter (R239). -/
def thawTile (t : Nat) (s : State) : State :=
  let held := (s.tile t).mp.parked
  let s := (s.onTile t (fun x => { x with mp := { x.mp with parked := [] } }))
  let s := if held.isEmpty then s else { s with inbox := s.inbox.upd t [] (held ++ ·) }
  (List.range 16).foldl (fun s c => if ((s.tile t).counter c).lost then s else releaseWaiters t c s) s

/-- A CRESP at the requester (R235): the result is written and RCNT counts it. -/
def doCresp (t : Nat) (m : Msg) (s : State) : State :=
  if m.status = 3 then freezeOp t m.tag s
  else
    let s := settle t m.tag s
    let x := s.tile t
    let a := ((x.win m.rwin).base + m.roff) * 64
    let (ok, s) := touch t a 8 none s
    let s := if ok then s.onTile t (fun x => x.wr a (leBytes 8 (pack [(24, m.amt), (8, m.status)]))) else s
    localInc t m.rcnt 1 s

/-- CRESP (R235). -/
def execCresp (t : Nat) (s : State) : Host.Outcome State Fault Refusal :=
  s.atTile t (onAnswer t 0x0B (doCresp t))

/-- A CREL at the requester (R236, R240, R546). -/
def doCrel (t : Nat) (m : Msg) (s : State) : State :=
  if m.status = 3 then freezeOp t m.tag s
  else
    let s := settle t m.tag s
    let release (lost : Bool) (s : State) : State :=
      let s := localInc t m.rcnt 1 s
      if m.statEn then s.onTile t (fun x => x.putStatus lost) else s
    if m.status = 0 then release false s
    else if m.status = 2 then
      if m.lostOk then release true s
      else raiseT t .ownerLost (msgItems m 4 m.rcnt) none s
    else raiseT t .waitRefused (msgItems m 4 m.rcnt) none s

/-- CREL (R236). -/
def execCrel (t : Nat) (s : State) : Host.Outcome State Fault Refusal :=
  s.atTile t (onAnswer t 0x0D (doCrel t))

/-! ## Management writes of counters (R242, R245) -/

/-- A write of `TSC_CNTi` (R242): a hand set with HSET = 1; the W1C flags in either case, but one that is set at the
same time stays (R509). -/
def writeCounter (t c : Nat) (v : Word) (s : State) : State :=
  let s := s.onTile t (fun x =>
    let k := x.counter c
    x.setCounter c { k with satHi := k.satHi && (!bit v 25 || k.hiAt == some s.time),
                            satLo := k.satLo && (!bit v 26 || k.loAt == some s.time) })
  if bit v 38 then
    if ((s.tile t).counter c).lost then s
    else
      let s := raise (pgTile t 2) .cntHandset (localItems 4 c) none s
      let s := s.onTile t (fun x => x.setCounter c { x.counter c with value := fld v 0 24 })
      if (s.tile t).cfg.frozen then s else releaseWaiters t c s
  else s

/-- `TSC_CNTi` as it reads (R245). -/
def Tile.cntReg (x : Tile) (c : Nat) : Word :=
  let k := x.counter c
  packW [(24, k.value), (1, b2n k.lost), (1, b2n k.satHi), (1, b2n k.satLo), (8, k.epoch),
    (3, (k.waiters.filter Option.isSome).length)]

/-- Management writes a counter, whose register it reads anew first (R498); a hand set that is accepted
marks the device as debugged (R501). -/
def actOnCounter (t c : Nat) (v : Word) (s : State) : State :=
  let s := readFirst (pgTile t 2) (0x100 + 8 * c) ((s.tile t).cntReg c) s
  writeCounter t c v (if bit v 38 && !((s.tile t).counter c).lost then markDebugged s else s)

/-- HAND_SET (R242): the write has HSET = 1. -/
def execHandSet (t : Nat) (c : Fin 16) (v : Word) (s : State) : Host.Outcome State Fault Refusal :=
  s.atTile t (actedTile t (fun s => if bit v 38 then actOnCounter t c.val v s else s))

/-- COUNTER_FLAG_CLEAR (R242): the write has HSET = 0. -/
def execCounterFlagClear (t : Nat) (c : Fin 16) (v : Word) (s : State) :
    Host.Outcome State Fault Refusal :=
  s.atTile t (actedTile t (fun s => if bit v 38 then s else actOnCounter t c.val v s))

/-! ## Restart and recast of the counters (R240, R241, R243) -/

/-- Every counter enters LOST; waiters of other contexts are released with OWNER_LOST, the tile's
own are dropped. Of a saved, pre-empted context the management die releases them (R240). -/
def loseCounters (t : Nat) (s : State) : State :=
  (List.range 16).foldl (fun s c =>
    let x := s.tile t
    let k := x.counter c
    let s := s.onTile t (fun x => x.setCounter c { k with lost := true, waiters := [none, none, none, none] })
    k.waiters.foldl (fun s w => match w with
      | some w =>
        if w.ctx = x.cfg.ctx then s
        else if x.cfg.frozen then sendAll [crelMsg unitMgt x.cfg.ctx w 2] s
        else sendCrel t w 2 s
      | none => s) s) s

/-- Every counter at BASE, epoch 0, flags clear, NORMAL, without waiters (R241). -/
def Tile.resetCounters (x : Tile) : Tile :=
  (List.range 16).foldl (fun x c => x.setCounter c { value := fld (x.ccfg c) 0 24 }) x

end Sys2Proof.Machine
end

