-- ==== Sys2Proof/Machine/Channels.lean ====
section
/-! DEFINITION.
The message port's records and channels: sending, credit, opening and closing, FENCED and FROZEN
operations, progress (R217 to R231, R325). -/

namespace Sys2Proof.Machine

/-! ## Records (R222, R245) -/

def Tile.chrec (x : Tile) (r : Nat) : Word := x.reg 2 (0x200 + 8 * r)
def recKind (w : Word) : Nat := fld w 0 2
def recDest (w : Word) : Nat := fld w 2 13
def recWin (w : Word) : Nat := fld w 15 4
def recHq (w : Word) : Nat := fld w 19 2
def recTctx (w : Word) : Nat := fld w 21 3
def recWlimit (w : Word) : Nat := fld w 24 16

def Tile.ch (x : Tile) (r : Nat) : ChRec := x.mp.recs.get r {}

def Tile.setCh (x : Tile) (r : Nat) (k : ChRec) : Tile :=
  { x with mp := { x.mp with recs := x.mp.recs.put r k {} } }

/-- Destinations with unacknowledged WRITEs (R220). -/
def Tile.outstanding (x : Tile) : List Nat :=
  ((x.mp.sent.filter (fun o => o.msg.op == 1)).map (fun o => o.msg.dest)).eraseDups

/-- A WRITE to this destination has a record or can take one of the 16 (R220). -/
def Tile.writeSlot (x : Tile) (dest : Nat) : Bool :=
  x.outstanding.contains dest || decide (x.outstanding.length < 16)

/-- Send an operation from tile t and keep it until it is settled (R217 to R220). -/
def tileSend (t op dest tctx : Nat) (w1 : Word) (bs : List Byte) (rec_ nest : Option Nat) (s : State) :
    State :=
  let x := s.tile t
  let m := { fromTile s t op dest tctx w1 x.mp.tag with payload := bs }
  let s := s.onTile t (fun x =>
    { x with mp := { x.mp with tag := (x.mp.tag + 1) % 2 ^ 32,
                               sent := x.mp.sent ++ [{ msg := m, rec_ := rec_, nest := nest }] } })
  sendMsg m s

/-! ## Budgets at a tile (R319, R323) -/

def unbounded : Nat := 0xFFFFF

/-- A budget after the time from cycle c0 to c1 and a wake charge; none: below zero by the given
deficit; an unbounded budget is never charged (R319, R321, R464). -/
def charged (x : Tile) (b c0 c1 wake : Nat) : Int :=
  if b = unbounded then (unbounded : Int) else (b : Int) - (x.ns c0 c1 : Int) - (wake : Int)

/-- The join rule (R323): the minimum over the landing ports whose current slot is `slot` and whose
record holds SEQ `seq`. -/
def joinBudget (x : Tile) (slot seq dep : Nat) : Int :=
  (List.range 4).foldl (fun m l =>
    let L := x.fab.landings.get l {}
    match (if L.cur = some slot then L.recs.get slot none else none) with
    | some r => if r.seq = seq then min m (charged x r.budget r.arr dep r.wake) else m
    | none => m) (unbounded : Int)

/-- The detail of DEADLINE: slot, SEQ, deficit saturating at 0xF_FFFF (R324, R520); FLAG where an
override is or was in force (R473). -/
def deadline (t slot seq : Nat) (b : Int) (u : Option TUnit) (s : State) : State :=
  let deficit := satTo 0xFFFFF (-b).toNat
  let flag := s.pwr.overrideNear (halfOf t) s.time
  let s := if flag then
      { s with pwr := { s.pwr with ovrDl := satTo (2 ^ 16 - 1) (s.pwr.ovrDl + 1) } } else s
  let s := match u with
    | some u => s.onTile t (fun x => { x with stopped := x.stopped ++ [u] })
    | none => s
  raiseF (pgTile t 0) .deadline [(3, slot), (32, seq), (20, deficit)] (s.tile t).owner flag s

/-- The target of an operation that record r has sent is frozen: the record sends nothing (R229). -/
def Tile.recFrozen (x : Tile) (r : Nat) : Bool := x.mp.sent.any (fun o => o.rec_ == some r && o.frozen)

/-! ## DIRECT records (R222, R325) -/

/-- The slots whose exit is record r of tile t (R325). -/
def State.exitSlots (s : State) (t r : Nat) : List Nat :=
  match (s.tile t).owner with
  | none => []
  | some c => (List.range 8).filter (fun i =>
      let w := s.slotA c i
      bit w 0 && fld w 33 13 == t && fld w 46 3 == r)

/-- What the exit message of record r carries: none: not an exit; otherwise the slot when its
sequence is at EXIT_LD, the budget and the SEQ (R325). -/
def State.exitBudget (s : State) (t r : Nat) : Option (Option Nat × Int × Nat) :=
  match s.exitSlots t r with
  | [] => none
  | sl =>
    let x := s.tile t
    let c := x.cfg.ctx
    match sl.find? (fun i => (x.fab.landings.get (fld (s.slotA c i) 49 2) {}).cur == some i) with
    | none => some (none, (unbounded : Int), 0)
    | some i =>
      let L := x.fab.landings.get (fld (s.slotA c i) 49 2) {}
      let q := ((L.recs.get i none).map (·.seq)).getD 0
      some (some i, joinBudget x i q x.clk.cyc, q)

/-- Record LASTSEQ and LASTBUD of slot i of context c (R325). -/
def noteExit (c i seq bud : Nat) (s : State) : State :=
  let off := 0x148 + 16 * i
  let v := s.devReg (pgCtx c) off
  s.setDevReg (pgCtx c) off (setFld (setFld v 0 32 seq) 32 20 bud)

/-- DIRECT_SEND: the record's head handle is sent as one WRITE (R222, R325). -/
def directSend (t r : Nat) (s : State) : State :=
  let x := s.tile t
  let w := x.chrec r
  match x.hqueue (recHq w) with
  | [] => s
  | h :: _ =>
    if recKind w != 1 || !s.unitRuns t (.record r) then s
    else if hLen h > 64 then
      raiseT t .chToolong (localItems 3 r) (some (.record r)) (s.onTile t (fun x => x.popq (recHq w)))
    else if !x.writeSlot (recDest w) || x.recFrozen r || s.heldUp (recDest w) then s
    else
      let a := x.hAddr h
      let n := hLen h * 64
      let (ok, s) := touch t a n (some (.record r)) s
      if !ok then s
      else
        let bs := x.rd a n
        let w1 := winW1 (recWin w) (hOff h * 64) n
        let go (bs : List Byte) (s : State) : State :=
          let s := s.onTile t (fun x => (x.popq (recHq w)).setCh r { x.ch r with watch := 0 })
          tileSend t 0x01 (recDest w) (recTctx w) w1 bs (some r) none s
        match s.exitBudget t r with
        | none => go bs s
        | some (slot, b, q) =>
          if b < 0 then deadline t (slot.getD 0) q b (some (.record r)) s
          else
            let bud := b.toNat
            let s := match slot with
              | some i => noteExit x.cfg.ctx i q bud s
              | none => (s.exitSlots t r).foldl (fun s i => noteExit x.cfg.ctx i q bud s) s
            go (leBytes 4 bud ++ leBytes 4 q ++ bs.drop 8) s

/-- DIRECT_SEND (R222). -/
def execDirectSend (t : Nat) (r : Fin 8) (s : State) : Host.Outcome State Fault Refusal :=
  s.atTile t (directSend t r.val)

/-! ## SEND records (R223, R226) -/

/-- A SEND record in CLOSING with no marked handle left sends CH_CLOSE once (R223). -/
def closeIfDone (t r : Nat) (s : State) : State :=
  let x := s.tile t
  let k := x.ch r
  let w := x.chrec r
  if k.st = .closing ∧ k.marked = 0 ∧ !k.closeSent ∧ !x.recFrozen r then
    let s := s.onTile t (fun x => x.setCh r { k with closeSent := true, watch := 0 })
    tileSend t 0x14 (recDest w) (recTctx w) (chW1 (recWin w) r 0 0) [] (some r) none s
  else s

/-- The record sends for its head handle: an open channel, or a marked handle while closing. -/
def chMaySend (k : ChRec) : Bool :=
  k.st == .opened || (k.st == .closing && decide (0 < k.marked))

/-- The need of a message of m lines with r lines to the ring end (R226). -/
def chNeed (m r : Nat) : Nat := if m ≤ r then m else r + m

/-- One marked handle fewer. -/
def ChRec.unmark (k : ChRec) : ChRec := { k with marked := k.marked - 1 }

/-- CHANNEL_SEND (R226): the head handle's message, with a pad record when it wraps; in LOST the
handle is discarded and counted (R223). -/
def channelSend (t r : Nat) (s : State) : State :=
  let x := s.tile t
  let w := x.chrec r
  let k := x.ch r
  match x.hqueue (recHq w) with
  | [] => closeIfDone t r s
  | h :: _ =>
    if recKind w != 2 || !s.unitRuns t (.record r) then s
    else if k.st = .lost then
      s.onTile t (fun x => (x.popq (recHq w)).setCh r { k with drops := satTo 255 (k.drops + 1) })
    else if !chMaySend k then closeIfDone t r s
    else
      let len := hLen h
      let m := len + 1
      let room := k.size - k.ptr
      if m > k.maxmsg ∨ len > 63 then
        let s := s.onTile t (fun x => (x.popq (recHq w)).setCh r k.unmark)
        raiseT t .chToolong (localItems 3 r) (some (.record r)) s
      else if k.credit < chNeed m room ∨ !x.writeSlot (recDest w) ∨ x.recFrozen r then s
      else
        let a := x.hAddr h
        let (ok, s) := touch t a (len * 64) (some (.record r)) s
        if !ok then s
        else
          let wrap := decide (m > room)
          let s := if wrap then
              tileSend t 0x02 (recDest w) (recTctx w) (winW1 (recWin w) (k.ptr * 64) 0) [] (some r) none s
            else s
          let p := if wrap then 0 else k.ptr
          let bs := chHeader 1 m (len * 64) t k.seq ++ x.rd a (len * 64)
          let s := tileSend t 0x01 (recDest w) (recTctx w) (winW1 (recWin w) (p * 64) (m * 64)) bs (some r) none s
          let k' := { k.unmark with credit := k.credit - chNeed m room, ptr := (p + m) % k.size,
                                    seq := (k.seq + 1) % 2 ^ 32, watch := 0 }
          closeIfDone t r (s.onTile t (fun x => (x.popq (recHq w)).setCh r k'))

/-- CHANNEL_SEND (R226). -/
def execChannelSend (t : Nat) (r : Fin 8) (s : State) : Host.Outcome State Fault Refusal :=
  s.atTile t (channelSend t r.val)

/-! ## Open and close commands (R223, R224) -/

/-- Send CH_OPEN naming RWIN and enter OPENING. -/
def sendOpen (t r : Nat) (s : State) : State :=
  let x := s.tile t
  let w := x.chrec r
  let s := s.onTile t (fun x => x.setCh r { x.ch r with st := .opening, closeReq := false,
                                                        closeSent := false, marked := 0, watch := 0 })
  tileSend t 0x10 (recDest w) (recTctx w) (chW1 (recWin w) r 0 0) [] (some r) none s

/-- An open command on a record (R223). -/
def recOpen (t r : Nat) (s : State) : State :=
  let x := s.tile t
  if recKind (x.chrec r) != 2 then s
  else match (x.ch r).st with
  | .closed => sendOpen t r s
  | .lost => sendOpen t r s
  | _ => s

/-- A close command on a record (R223): marks the handles then in HQ. -/
def recClose (t r : Nat) (s : State) : State :=
  let x := s.tile t
  let k := x.ch r
  let n := (x.hqueue (recHq (x.chrec r))).length
  if recKind (x.chrec r) != 2 then s
  else match k.st with
  | .opening => s.onTile t (fun x => x.setCh r { k with closeReq := true, marked := n })
  | .opened => closeIfDone t r (s.onTile t (fun x => x.setCh r { k with st := .closing, marked := n }))
  | .lost => s.onTile t (fun x => x.setCh r { k with st := .closed })
  | _ => s

def ChState.toNat : ChState → Nat
  | .closed => 0
  | .opening => 1
  | .opened => 2
  | .closing => 3
  | .lost => 4
  | .bound => 5

/-- A handle of the record waits to be sent (R245). -/
def Tile.chPend (x : Tile) (r : Nat) : Bool :=
  let w := x.chrec r
  (recKind w == 1 || recKind w == 2) && !(x.hqueue (recHq w)).isEmpty

/-- `TSC_CHSTATi` as it reads (R245). -/
def Tile.chStat (x : Tile) (r : Nat) : Word :=
  let k := x.ch r
  packW [(3, k.st.toNat), (15, k.credit), (14, k.ptr), (14, k.size), (7, k.maxmsg), (2, k.last),
    (1, b2n (x.chPend r)), (8, k.drops)]

/-- A write of `TSC_CHCMD` (R223, R245): CMD 1 opens, 2 closes; the record's register is read anew
first (R498). -/
def writeChcmd (t r cmd : Nat) (s : State) : State :=
  let s := readFirst (pgTile t 2) (0x240 + 8 * r) ((s.tile t).chStat r) s
  if cmd = 1 then recOpen t r s else if cmd = 2 then recClose t r s else s

/-- CHCMD_OPEN (R224). -/
def execChcmdOpen (t : Nat) (r : Fin 8) (s : State) : Host.Outcome State Fault Refusal :=
  s.atTile t (actedTile t (writeChcmd t r.val 1))

/-- CHCMD_CLOSE (R223). -/
def execChcmdClose (t : Nat) (r : Fin 8) (s : State) : Host.Outcome State Fault Refusal :=
  s.atTile t (actedTile t (writeChcmd t r.val 2))

/-! ## Channel messages (R223, R224, R227, R230) -/

/-- An UNUSED record of the tile (R224). -/
def Tile.unusedRec (x : Tile) : Option Nat :=
  (List.range 8).find? (fun r => recKind (x.chrec r) == 0 && (x.ch r).st == .closed)

/-- The record that a CH_OPEN binds, when R224 accepts it. -/
def openAccepts (x : Tile) (m : Msg) : Option Nat :=
  let w := x.win m.win
  if w.mode = 2 ∧ (m.sctx = w.owner ∨ w.writers / 2 ^ m.sctx % 2 = 1) ∧ (x.recvOf m.win).isNone
  then x.unusedRec else none

/-- CH_OPEN at the receiving tile (R224). -/
def doOpen (t : Nat) (m : Msg) (s : State) : State :=
  let x := s.tile t
  match openAccepts x m with
  | none => refuse t m 5 s
  | some r =>
    let n := (x.win m.win).size
    let mx := min 64 (n / 2)
    let v := packW [(2, 3), (13, m.src), (4, m.win), (2, 0), (3, m.sctx), (16, recWlimit (x.chrec r))]
    let k : ChRec := { st := .bound, size := n, maxmsg := mx, peer := m.src, peerRec := m.crec }
    let s := s.onTile t (fun x => (x.setReg 2 (0x200 + 8 * r) v).setCh r k)
    let s := sendMsg (answer m 0x11 0 (chW1 m.win m.crec n mx)) s
    tileSend t 0x12 m.src m.sctx (chW1 m.win m.crec n 0) [] none none s

/-- CH_OPEN (R224). -/
def execChOpen (t : Nat) (s : State) : Host.Outcome State Fault Refusal :=
  s.atTile t (onHead t 0x10 (doOpen t))

/-- The answer to the CH_OPEN of record r (R223); one with a status that no row has is discarded. -/
def openAnswered (t r : Nat) (m : Msg) (s : State) : State :=
  if m.status = 3 then freezeOp t m.tag s
  else
    let s := settle t m.tag s
    let k := (s.tile t).ch r
    if k.st != .opening then s
    else if m.status = 0 then
      let k' := { k with credit := 0, ptr := 0, seq := 0, size := m.lines, maxmsg := m.maxmsg,
                         st := if k.closeReq then .closing else .opened }
      closeIfDone t r (s.onTile t (fun x => x.setCh r k'))
    else if m.status = 2 ∨ m.status = 4 ∨ m.status = 5 then
      let code := if m.status = 5 then 1 else if m.status = 4 then 2 else 3
      s.onTile t (fun x => x.setCh r { k with st := .closed, last := code, marked := 0, closeReq := false })
    else s

/-- CH_OPENR at the SEND record (R223). -/
def doOpenr (t : Nat) (m : Msg) (s : State) : State := openAnswered t m.crec m s

/-- CH_OPENR (R223). -/
def execChOpenr (t : Nat) (s : State) : Host.Outcome State Fault Refusal :=
  s.atTile t (onAnswer t 0x11 (doOpenr t))

/-- Credit of n lines reaches a SEND record (R223): more than SIZE in all raises CH_CREDIT. -/
def addCredit (t : Nat) (m : Msg) (s : State) : State :=
  let r := m.crec
  let k := (s.tile t).ch r
  if k.st = .opened ∨ k.st = .closing then
    if k.credit + m.lines > k.size then raiseT t .chCredit (msgItems m 3 r) (some (.record r)) s
    else s.onTile t (fun x => x.setCh r { k with credit := k.credit + m.lines })
  else s

/-- CH_RETURN at the SEND record (R227). -/
def execChReturn (t : Nat) (s : State) : Host.Outcome State Fault Refusal :=
  s.atTile t (onHead t 0x13 (addCredit t))

/-- The consumer returns n lines of a RECV record's ring (R227). -/
def returnLines (t r n : Nat) (s : State) : State :=
  let x := s.tile t
  let k := x.ch r
  if k.st != .bound then s
  else if n > k.credit then raiseT t .chCredit (localItems 3 r) (some (.record r)) s
  else
    let s := s.onTile t (fun x => x.setCh r { k with credit := k.credit - n, ptr := (k.ptr + n) % k.size })
    tileSend t 0x13 k.peer (recTctx (x.chrec r)) (chW1 (recWin (x.chrec r)) k.peerRec n 0) [] (some r) none s

/-- CH_CLOSE at the receiving tile: the RECV record becomes UNUSED; answered by CH_CLOSER (R230). -/
def doClose (t : Nat) (m : Msg) (s : State) : State :=
  let x := s.tile t
  let s := match x.recvOf m.win with
    | some r => if (x.ch r).peer = m.src then s.onTile t (fun x =>
        (x.setReg 2 (0x200 + 8 * r) (setFld (x.chrec r) 0 2 0)).setCh r {}) else s
    | none => s
  sendMsg (answer m 0x15 0 (chW1 m.win m.crec 0 0)) s

/-- CH_CLOSE (R230). -/
def execChClose (t : Nat) (s : State) : Host.Outcome State Fault Refusal :=
  s.atTile t (onHead t 0x14 (doClose t))

/-- CH_CLOSER at the SEND record (R223). -/
def doCloser (t : Nat) (m : Msg) (s : State) : State :=
  let s := settle t m.tag s
  let k := (s.tile t).ch m.crec
  if k.st = .closing then
    s.onTile t (fun x => x.setCh m.crec { k with st := .closed, closeReq := false, closeSent := false })
  else s

/-- CH_CLOSER (R223). -/
def execChCloser (t : Nat) (s : State) : Host.Outcome State Fault Refusal :=
  s.atTile t (onAnswer t 0x15 (doCloser t))

/-- An ACK OWNER_LOST reaches the record that sent the operation (R223): LOST; the queued (OPEN) or
the marked (CLOSING) handles are discarded and counted. -/
def recLost (t r : Nat) (s : State) : State :=
  let x := s.tile t
  let k := x.ch r
  let q := recHq (x.chrec r)
  let n := if k.st = .opened then (x.hqueue q).length else k.marked
  if k.st = .opened ∨ k.st = .closing then
    s.onTile t (fun x => { (x.setCh r { k with st := .lost, marked := 0, closeReq := false,
                                               closeSent := false, drops := satTo 255 (k.drops + n) })
      with hq := x.hq.upd q [] (·.drop n) })
  else s

/-- An ACK at a tile (R218, R219, R223, R546); the one that a restarting mould gives a CH_OPEN (R358)
answers it as its CH_OPENR would. -/
def tileAck (t : Nat) (m : Msg) (s : State) : State :=
  if m.status = 3 then freezeOp t m.tag s
  else
    let o := (s.tile t).sentOp m.tag
    match o.bind (·.rec_) with
    | some r =>
      if o.any (fun o => o.msg.op == 0x10) then openAnswered t r m s
      else
        let s := settle t m.tag s
        if m.status = 2 then recLost t r s else s
    | none => settle t m.tag s

/-! ## Progress, FENCED and FROZEN operations (R219, R221, R229) -/

/-- A SEND or DIRECT record with a handle that it cannot send (R229), an export engine's full buffer among the reasons
(R386), or with an operation that is being resent, which counts whatever the queue holds (R219). -/
def Tile.recStalled (x : Tile) (heldUp : Nat → Bool) (r : Nat) : Bool :=
  let w := x.chrec r
  let k := x.ch r
  ((recKind w == 1 || recKind w == 2) && x.recFrozen r) || (match x.hqueue (recHq w) with
  | [] => false
  | h :: _ =>
    (recKind w == 1 && (!x.writeSlot (recDest w) || heldUp (recDest w))) ||
    (recKind w == 2 && chMaySend k &&
      (decide (k.credit < chNeed (hLen h + 1) (k.size - k.ptr)) || !x.writeSlot (recDest w))))

/-- CHANNEL_PROGRESS (R229): the watch has reached WLIMIT × 1,024. -/
def execChannelProgress (t : Nat) (r : Fin 8) (s : State) : Host.Outcome State Fault Refusal :=
  s.atTile t (fun s =>
    let x := s.tile t
    let lim := recWlimit (x.chrec r.val)
    if lim ≠ 0 ∧ (x.ch r.val).watch ≥ lim * 1024 then
      raiseT t .chProgress [(3, r.val)] (some (.record r.val))
        (s.onTile t (fun x => x.setCh r.val { x.ch r.val with watch := 0 }))
    else s)

/-- Operations that an answer follows whatever happens to them (R218, R223). -/
def awaitsAnswer (op : Nat) : Bool := op == 1 || op == 0x0A || op == 0x0C || op == 0x10 || op == 0x14

/-- FROZEN_RESEND (R219): 1,024 tile cycles after its FROZEN answer. -/
def frozenResend (t tag : Nat) (s : State) : State :=
  let x := s.tile t
  match x.sentOp tag with
  | some o =>
    match o.frozenAt with
    | some c =>
      if x.clk.cyc ≥ c + 1024 then
        let s := s.onTile t (fun x => { x with mp := { x.mp with sent := x.mp.sent.map (fun o =>
          if o.msg.tag = tag then { o with frozenAt := none, frozen := awaitsAnswer o.msg.op } else o) } })
        sendMsg o.msg (s.stat (pgTile t 2) 0x50 1)
      else s
    | none => s
  | none => s

/-- FROZEN_RESEND (R219). -/
def execFrozenResend (t tag : Nat) (s : State) : Host.Outcome State Fault Refusal :=
  s.atTile t (frozenResend t tag)

/-- Channel records at a restart or recast (R223, R230): CLOSED, with credit, pointer, marks and watch
cleared; RECV records UNUSED. -/
def Tile.resetRecs (x : Tile) : Tile :=
  (List.range 8).foldl (fun x r =>
    if recKind (x.chrec r) = 3 then (x.setReg 2 (0x200 + 8 * r) (setFld (x.chrec r) 0 2 0)).setCh r {}
    else x.setCh r { x.ch r with st := .closed, credit := 0, ptr := 0, marked := 0, watch := 0,
                                 closeReq := false, closeSent := false }) x

end Sys2Proof.Machine
end

