-- ==== Sys2Proof/Machine/Nest.lean ====
section
/-! DEFINITION.
Loop nests (chapter 08): layout, iteration, points, actions, handles, and the checks before a
firing. A nest holds what it has still to do before its next firing as a list of items. -/

namespace Sys2Proof.Machine

/-! ## Layout (R247 to R255) -/

/-- Word w of nest n in plane p of the live set. -/
def Tile.nword (x : Tile) (p n w : Nat) : Word := x.cword p 2 (32 * n + w)

structure NestCtl where
  en : Bool
  nlev : Nat
  engine : Nat
  desc : Nat
  repeat_ : Bool
  deriving DecidableEq, Repr

def NestCtl.ofWord (w : Word) : NestCtl := ⟨bit w 0, fld w 1 3, fld w 4 2, fld w 6 6, bit w 12⟩

def Tile.nctl (x : Tile) (p n : Nat) : NestCtl := NestCtl.ofWord (x.nword p n 0)

/-- One operand's binding (R249). -/
structure Bind where
  mode : Nat
  sel : Nat
  hlvl : Nat
  rls : Nat
  rq : Nat
  deriving DecidableEq, Repr

def Bind.ofWord (w : Word) (o : Nat) : Bind :=
  ⟨fld w (14 * o) 2, fld w (14 * o + 2) 4, fld w (14 * o + 6) 3, fld w (14 * o + 9) 2, fld w (14 * o + 11) 2⟩

def Tile.nbind (x : Tile) (p n o : Nat) : Bind := Bind.ofWord (x.nword p n 2) o

/-- Level j's words (R250). -/
def Tile.lvl0 (x : Tile) (p n j : Nat) : Word := x.nword p n (4 + 2 * j)
def Tile.lvl1 (x : Tile) (p n j : Nat) : Word := x.nword p n (5 + 2 * j)

def lvBound (w : Word) : Nat := fld w 0 16
def lvPos (w : Word) : Nat := fld w 16 3
def lvSrc (w : Word) : Nat := fld w 19 2
def lvAcc (w : Word) : Bool := bit w 21
def lvSlotStr (w : Word) : Nat := fld w 22 4

/-- Stride of operand o at level j (R250): signed 21 bits. -/
def Tile.stride (x : Tile) (p n j o : Nat) : Int :=
  match o with
  | 0 => sfld (x.lvl0 p n j) 26 21
  | 1 => sfld (x.lvl1 p n j) 0 21
  | _ => sfld (x.lvl1 p n j) 21 21

/-- The level at a place of the loop order; 0 is innermost (R250). -/
def Tile.levelAt (x : Tile) (p n pos : Nat) : Nat :=
  ((List.range (x.nctl p n).nlev).find? (fun j => lvPos (x.lvl0 p n j) == pos)).getD 0

/-- Action a's words (R255). -/
def Tile.act0 (x : Tile) (p n a : Nat) : Word := x.nword p n (16 + 2 * a)
def Tile.act1 (x : Tile) (p n a : Nat) : Word := x.nword p n (17 + 2 * a)

def actKind (w : Word) : Nat := fld w 0 4
def actLvl (w : Word) : Nat := fld w 4 3
def actPoint (w : Word) : Nat := fld w 7 1
def actCnt (w : Word) : Nat := fld w 8 4
def actAmt (w : Word) : Nat := fld w 12 24

/-! ## Running state -/

def nkey (p n : Nat) : Nat := p * 8 + n

/-- The state of a nest: an unlisted one stands at the start of run 0 (R261). -/
def Tile.nest (x : Tile) (p n : Nat) : Nest := x.nests.get (nkey p n) {}

def Tile.setNest (x : Tile) (p n : Nat) (k : Nest) : Tile :=
  { x with nests := x.nests.put (nkey p n) k {} }

def Nest.ix (k : Nest) (j : Nat) : Nat := k.idx.get j 0
def Nest.hiOf (k : Nest) (j : Nat) : Nat := k.hi.get j 0

/-- What a run does first (R251, R257). -/
def runItems (nlev : Nat) : List NItem := [.startPt 7, .begin (nlev - 1)]

/-- The nest as it runs, started when it was not. -/
def Tile.running (x : Tile) (p n : Nat) : Nest :=
  let k := x.nest p n
  if k.live then k else { k with live := true, todo := runItems (x.nctl p n).nlev }

/-! ## Addresses (R249, R251, R260) -/

/-- Offset of operand o from its origin (R251). -/
def Tile.opOff (x : Tile) (p n o : Nat) (k : Nest) : Int :=
  (List.range (x.nctl p n).nlev).foldl (fun a j => a + (k.ix j : Int) * x.stride p n j o)
    (fld (x.nword p n 1) (20 * o) 20 : Int)

/-- Accumulator slot of the iteration (R251). -/
def Tile.opSlot (x : Tile) (p n : Nat) (k : Nest) : Nat :=
  (List.range (x.nctl p n).nlev).foldl (fun a j => a + k.ix j * lvSlotStr (x.lvl0 p n j))
    (fld (x.nword p n 1) 60 4)

/-- Origin and length in bytes of operand o's range (R249, R260, R262); none: window OFF or no
handle held. -/
def Tile.opRange (x : Tile) (p n o : Nat) (k : Nest) : Option (Nat × Nat) :=
  let b := x.nbind p n o
  match b.mode with
  | 0 => some (0, 2 ^ 20)
  | 1 => let w := x.win b.sel; if w.mode = 0 then none else some (w.base * 64, w.size * 64)
  | _ => match k.handles.find? (fun q => q.1 == o) with
    | some (_, h) => some (x.hAddr h, hLen h * 64)
    | none => none

/-- Address of operand o's iteration: its origin and offset, whatever its range (R251); none: no handle held. -/
def Tile.opPlace (x : Tile) (p n o : Nat) (k : Nest) : Option Int :=
  let b := x.nbind p n o
  let org : Option Nat := match b.mode with
    | 0 => some 0
    | 1 => some ((x.win b.sel).base * 64)
    | _ => (k.handles.find? (fun q => q.1 == o)).map (fun q => x.hAddr q.2)
  org.map (fun a => (a : Int) + x.opOff p n o k)

/-- An operand's extent of n bytes from its address lies in its range (R262); its byte address. -/
def Tile.opAddr (x : Tile) (p n o len : Nat) (k : Nest) : Option Nat :=
  match x.opRange p n o k with
  | none => none
  | some (org, size) =>
    let off := x.opOff p n o k
    if 0 ≤ off ∧ off.toNat + len ≤ size ∧ org + off.toNat + len ≤ 2 ^ 20 then some (org + off.toNat)
    else none

/-- Address of an operand of which a firing touches `len` bytes: checked against its range where it touches any
(R262), its place in the address space where it touches none. -/
def Tile.opTouch (x : Tile) (p n o len : Nat) (k : Nest) : Option Nat :=
  if len = 0 then some ((((x.opPlace p n o k).getD 0) % 2 ^ 20).toNat) else x.opAddr p n o len k

/-! ## Faults (R263) -/

/-- The computed slot of R263: only a matrix nest has one. -/
def Tile.faultSlot (x : Tile) (p n : Nat) (k : Nest) : Nat := if (x.nctl p n).engine = 0 then x.opSlot p n k else 0

/-- Record the first nest fault with the nest's indices and computed slot (R263): cause 1 ACC_OVERFLOW,
2 NEST_BOUNDS, 3 HQ_OVERFLOW, 4 NEST_WORD, 5 HANDLE_BOUNDS. -/
def noteFault (t p n cause opnd : Nat) (k : Nest) (s : State) : State :=
  s.onTile t (fun x =>
    if bit x.fault.b 47 then x
    else
      let slot := x.faultSlot p n k
      { x with fault := {
          a := packW [(16, k.ix 0), (16, k.ix 1), (16, k.ix 2), (16, k.ix 3)],
          b := packW [(16, k.ix 4), (16, k.ix 5), (3, n), (2, p), (3, cause), (2, opnd),
            (5, satTo 31 slot), (1, 1)]
          at_ := some s.time } })

/-- Raise a nest error (R262, R263, R270). -/
def nestRaise (t p n : Nat) (e : Err) (cause opnd : Nat) (k : Nest) (s : State) : State :=
  raiseT t e [(3, n), (2, p), (2, opnd), (5, satTo 31 ((s.tile t).faultSlot p n k))] (some (.nest n))
    (noteFault t p n cause opnd k s)

/-! ## Points (R255 to R257) -/

/-- Actions of a point that do something, in ascending index (R257: KIND NONE takes no cycle). -/
def Tile.pointActs (x : Tile) (p n lvl point : Nat) : List NItem :=
  (List.range 8).filterMap (fun a =>
    let w := x.act0 p n a
    if actKind w ≠ 0 ∧ actLvl w = lvl ∧ actPoint w = point then some (.act a) else none)

/-- Handle operands bound at a level, in order A, B, C (R257, R260). -/
def Tile.pointOps (x : Tile) (p n lvl : Nat) : List Nat :=
  (List.range 3).filter (fun o => (x.nbind p n o).mode == 2 && (x.nbind p n o).hlvl == lvl)

/-- The point holds a release, pop or action (R264). -/
def Tile.pointBusy (x : Tile) (p n lvl point : Nat) : Bool :=
  !(x.pointActs p n lvl point).isEmpty ||
  (if point = 0 then !(x.pointOps p n lvl).isEmpty
   else (x.pointOps p n lvl).any (fun o => (x.nbind p n o).rls != 0))

/-- What follows when a level gives no iteration or has finished its last (R251, R252, R257). -/
def Tile.ascend (x : Tile) (p n pos : Nat) : List NItem :=
  if pos + 1 ≥ (x.nctl p n).nlev then [.endPt 7, .finish false]
  else [.endPt (x.levelAt p n (pos + 1)), .advance (pos + 1)]

/-- What follows when an iteration of the level at pos begins. -/
def Tile.descend (x : Tile) (p n pos : Nat) : List NItem :=
  .startPt (x.levelAt p n pos) :: (if pos = 0 then [.fire] else [.begin (pos - 1)])

/-- A level takes the range [lo, hi]; an empty one gives no iterations (R252). -/
def Tile.beginRange (x : Tile) (p n pos lo count : Nat) (k : Nest) (rest : List NItem) : Nest :=
  let j := x.levelAt p n pos
  if count = 0 then { k with todo := x.ascend p n pos ++ rest }
  else { k with idx := k.idx.put j lo 0, hi := k.hi.put j (lo + count - 1) 0,
                todo := x.descend p n pos ++ rest }

/-- End points of the enclosing levels, innermost first, then the run's end (R252). -/
def Tile.stopItems (x : Tile) (p n pos : Nat) : List NItem :=
  (List.range' (pos + 1) ((x.nctl p n).nlev - (pos + 1))).map (fun q => .endPt (x.levelAt p n q)) ++
    [.endPt 7, .finish true]

/-- The iterations of the level at pos do nothing and end: no point of theirs or of a level within is busy, and some
level within has an empty range (R251, R252). -/
def Tile.voidBody (x : Tile) (p n : Nat) (k : Nest) : Nat → Bool
  | 0 => false
  | pos + 1 =>
    let j := x.levelAt p n (pos + 1)
    let i := x.levelAt p n pos
    let w := x.lvl0 p n i
    !x.pointBusy p n j 0 && !x.pointBusy p n j 1 &&
    (match lvSrc w, k.claim with
     | 0, _ => lvBound w == 0 || x.voidBody p n k pos
     | 2, some (v, c, st) => st == 0 && decide (v < lvBound w) && (c == 0 || x.voidBody p n k pos)
     | _, _ => false)

/-- One step that needs nothing from outside; none: the nest waits at its head item. The second
component tells that a level with SRC 2 has no claim result (R252). -/
def Tile.settle1 (x : Tile) (p n : Nat) (k : Nest) : Option Nest × Bool :=
  match k.todo with
  | .startPt l :: rest => if x.pointBusy p n l 0 then (none, false) else (some { k with todo := rest }, false)
  | .endPt l :: rest => if x.pointBusy p n l 1 then (none, false) else (some { k with todo := rest }, false)
  | .begin pos :: rest =>
    let w := x.lvl0 p n (x.levelAt p n pos)
    match lvSrc w with
    | 0 => (some (x.beginRange p n pos 0 (lvBound w) k rest), false)
    | 2 =>
      match k.claim with
      | none => (none, true)
      | some (v, c, st) =>
        if st ≠ 0 ∨ v ≥ lvBound w then (some { k with todo := x.stopItems p n pos }, false)
        else (some (x.beginRange p n pos v (min (v + c) (lvBound w) - v) k rest), false)
    | _ => (none, false)
  | .advance pos :: rest =>
    let j := x.levelAt p n pos
    if k.ix j < k.hiOf j && x.voidBody p n k pos then
      (some { k with idx := k.idx.put j (k.hiOf j) 0, todo := x.ascend p n pos ++ rest }, false)
    else if k.ix j < k.hiOf j then
      (some { k with idx := k.idx.put j (k.ix j + 1) 0, todo := x.descend p n pos ++ rest }, false)
    else (some { k with todo := x.ascend p n pos ++ rest }, false)
  | .finish stop :: _ =>
    let k := { k with runs := k.runs + 1, claim := none, handles := [] }
    if stop || !(x.nctl p n).repeat_ then (some { k with done := true, todo := [] }, false)
    else (some { k with todo := runItems (x.nctl p n).nlev }, false)
  | _ => (none, false)

/-- Run the nest on to its next wait. -/
def Tile.settle (x : Tile) (p n : Nat) : Nat → Nest → Nest × Bool
  | 0, k => (k, false)
  | f + 1, k =>
    match x.settle1 p n k with
    | (some k', _) => x.settle p n f k'
    | (none, err) => (k, err)

/-- Steps that a nest can take between two waits: six levels, each with an end, an advance, a begin and a start, and
the run's own; void iterations pass in one. A nest whose runs are void and repeat never comes to a wait. -/
def settleFuel : Nat := 64

/-- Store the nest after it has settled; a missing claim result raises NEST_WORD (R252). A nest that an
error has stopped stays where it stands (R262, R352). -/
def putNest (t p n : Nat) (k : Nest) (s : State) : State :=
  if !s.unitRuns t (.nest n) then s
  else
    let x := s.tile t
    let (k, err) := x.settle p n settleFuel k
    let s := s.onTile t (fun x => x.setNest p n k)
    if err then nestRaise t p n .nestWord 4 0 k s else s

/-- The settled nest n of the live plane, when it is enabled and may go on (R261, R352). -/
def State.liveNest (s : State) (t n : Nat) : Option Nest :=
  let x := s.tile t
  let p := x.cfg.plane
  if (x.nctl p n).en && s.unitRuns t (.nest n) && !(x.nest p n).done then
    some ((x.settle p n settleFuel (x.running p n)).1)
  else none

/-- Nest n of the live plane stands at a level that takes claimed items, with no claim result since the run
began (R252). -/
def State.unclaimed (s : State) (t n : Nat) : Bool :=
  let x := s.tile t
  let p := x.cfg.plane
  (x.nctl p n).en && s.unitRuns t (.nest n) && !(x.nest p n).done && (x.settle p n settleFuel (x.running p n)).2

/-- A nest that stands at such a level raises NEST_WORD (R252); any other waits. -/
def nestWaits (t n : Nat) (s : State) : State :=
  let x := s.tile t
  let p := x.cfg.plane
  if s.unclaimed t n then nestRaise t p n .nestWord 4 0 (x.settle p n settleFuel (x.running p n)).1 s else s

/-- With the nest and its remaining items when its head item is one that `want` takes. -/
def onItem (t n : Nat) (want : NItem → Bool) (f : Nest → NItem → List NItem → State → State)
    (s : State) : State :=
  if s.unclaimed t n then nestWaits t n s
  else match s.liveNest t n with
  | none => s
  | some k =>
    match k.todo with
    | i :: rest => if want i then f k i rest s else s
    | [] => s

/-! ## Start and end points (R257) -/

/-- NEST_START_POINT: the pops, then the actions of a start point become due (R257). -/
def execNestStartPoint (t : Nat) (n : Fin 8) (s : State) : Host.Outcome State Fault Refusal :=
  s.atTile t (fun s =>
    let p := (s.tile t).cfg.plane
    onItem t n.val (fun i => match i with | .startPt _ => true | _ => false)
      (fun k i rest s =>
        match i with
        | .startPt l =>
          let x := s.tile t
          putNest t p n.val { k with todo := (x.pointOps p n.val l).map .pop ++ x.pointActs p n.val l 0 ++ rest } s
        | _ => s) s)

/-- Release the handle of operand o (R249, R260): push it or return its lines; a nest that an earlier
release has stopped releases no more (R262). -/
def releaseHandle (t p n o : Nat) (k : Nest) (s : State) : State :=
  let b := (s.tile t).nbind p n o
  match k.handles.find? (fun q => q.1 == o) with
  | none => s
  | some (_, h) =>
    if !s.unitRuns t (.nest n) then s
    else match b.rls with
    | 1 =>
      match (s.tile t).pushRes b.rq h with
      | .ok => s.onTile t (fun x => x.push b.rq h)
      | .bounds => raiseT t .handleBounds [(2, b.rq), (32, h.toNat)] (some (.nest n)) (noteFault t p n 5 o k s)
      | .full => raiseT t .hqOverflow [(2, b.rq), (32, h.toNat)] (some (.nest n)) (noteFault t p n 3 o k s)
    | 2 =>
      match (s.tile t).recvOf (hWin h) with
      | some r => returnLines t r (hLen h) s
      | none => raiseT t .chCredit (localItems 3 0) (some (.nest n)) s
    | _ => s

/-- NEST_END_POINT: once every firing of the ending iterations has written, the releases run and the
actions become due (R257). -/
def execNestEndPoint (t : Nat) (n : Fin 8) (s : State) : Host.Outcome State Fault Refusal :=
  s.atTile t (fun s =>
    let p := (s.tile t).cfg.plane
    onItem t n.val (fun i => match i with | .endPt _ => true | _ => false)
      (fun k i rest s =>
        match i with
        | .endPt l =>
          if k.out ≠ 0 then s
          else
            let x := s.tile t
            let ops := x.pointOps p n.val l
            let s := ops.foldl (fun s o => releaseHandle t p n.val o k s) s
            let k := { k with todo := x.pointActs p n.val l 1 ++ rest,
                              handles := k.handles.filter (fun q => !ops.contains q.1) }
            putNest t p n.val k s
        | _ => s) s)

/-! ## Words, claims and handles (R252, R259, R260) -/

/-- NEST_WORD_TAKE (R252): a level with SRC 1 takes one word; above 65,535 raises NEST_WORD. -/
def execNestWordTake (t : Nat) (n : Fin 8) (s : State) : Host.Outcome State Fault Refusal :=
  s.atTile t (fun s =>
    let p := (s.tile t).cfg.plane
    onItem t n.val (fun i => match i with
        | .begin pos => lvSrc ((s.tile t).lvl0 p n.val ((s.tile t).levelAt p n.val pos)) == 1
        | _ => false)
      (fun k i rest s =>
        let x := s.tile t
        match i, x.fab.nestWords with
        | .begin pos, (_, w) :: ws =>
          let s := s.onTile t (fun x => { x with fab := { x.fab with nestWords := ws } })
          if w > 65535 then nestRaise t p n.val .nestWord 4 0 k s
          else putNest t p n.val (x.beginRange p n.val pos 0 w k rest) s
        | _, _ => s) s)

/-- The nest pops the handle it waits for (R260). -/
def nestPop (t n : Nat) (s : State) : State :=
  let p := (s.tile t).cfg.plane
  onItem t n (fun i => match i with | .pop _ => true | _ => false)
    (fun k i rest s =>
      match i with
      | .pop o =>
        let q := ((s.tile t).nbind p n o).sel % 4
        match (s.tile t).hqueue q with
        | [] => s
        | h :: _ =>
          putNest t p n { k with handles := (k.handles.filter (fun e => e.1 < o)) ++ (o, h) ::
              (k.handles.filter (fun e => e.1 > o)), todo := rest }
            (s.onTile t (fun x => x.popq q))
      | _ => s) s

/-! ## Actions (R255 to R259) -/

/-- The nest's head item is an action of this KIND; run it with its words. -/
def onAction (t n kind : Nat) (f : Nest → Nat → List NItem → Word → Word → State → State) (s : State) :
    State :=
  let p := (s.tile t).cfg.plane
  onItem t n (fun i => match i with
      | .act a => actKind ((s.tile t).act0 p n a) == kind
      | _ => false)
    (fun k i rest s => match i with
      | .act a => f k a rest ((s.tile t).act0 p n a) ((s.tile t).act1 p n a) s
      | _ => s) s

/-- An action that completes at once: its effect, then the nest goes on. -/
def simpleAction (t n kind : Nat) (eff : Word → Word → State → State) (s : State) : State :=
  let p := (s.tile t).cfg.plane
  onAction t n kind (fun k _ rest w0 w1 s => putNest t p n { k with todo := rest } (eff w0 w1 s)) s

/-- ACTION_NONE (R256): no effect. -/
def execActionNone (t : Nat) (n : Fin 8) (s : State) : Host.Outcome State Fault Refusal :=
  s.atTile t (simpleAction t n.val 0 (fun _ _ s => s))

/-- ACTION_WAIT (R256): completes when VALUE ≥ AMT. -/
def execActionWait (t : Nat) (n : Fin 8) (s : State) : Host.Outcome State Fault Refusal :=
  s.atTile t (fun s =>
    let p := (s.tile t).cfg.plane
    onAction t n.val 1 (fun k _ rest w0 _ s =>
      if ((s.tile t).counter (actCnt w0)).value ≥ actAmt w0 then putNest t p n.val { k with todo := rest } s
      else s) s)

/-- ACTION_INC (R256). -/
def execActionInc (t : Nat) (n : Fin 8) (s : State) : Host.Outcome State Fault Refusal :=
  s.atTile t (simpleAction t n.val 2 (fun w0 _ s => localInc t (actCnt w0) (actAmt w0) s))

/-- ACTION_DEC (R256). -/
def execActionDec (t : Nat) (n : Fin 8) (s : State) : Host.Outcome State Fault Refusal :=
  s.atTile t (simpleAction t n.val 3 (fun w0 _ s => localDec t (actCnt w0) (actAmt w0) s))

/-- ACTION_RESET (R256). -/
def execActionReset (t : Nat) (n : Fin 8) (s : State) : Host.Outcome State Fault Refusal :=
  s.atTile t (simpleAction t n.val 4 (fun w0 _ s => localReset t (actCnt w0) s))

/-- The epoch a message action carries (R258). -/
def actEpoch (k : Nest) (w0 : Word) : Nat := (fld w0 38 8 + k.runs) % 256

/-- Word 1 of a counter message sent by an action (R213, R255). -/
def actW1 (k : Nest) (w0 w1 : Word) : Word :=
  cntW1 (fld w1 13 4) (if bit w0 37 then actEpoch k w0 else 0) (bit w0 37) (actAmt w0)
    (actCnt w0) (fld w1 30 4) (fld w1 34 14) (bit w0 46) (bit w0 47)

/-- Tags of the tile's unacknowledged WRITEs to a unit (R220, R221). -/
def Tile.unackedAt (x : Tile) (u : Nat) : List Nat :=
  (x.mp.sent.filter (fun o => o.msg.op == 1 && o.msg.dest == u)).map (·.msg.tag)

/-- The operation waits as FENCED until the WRITEs in `tags` are acknowledged (R221). -/
def holdFenced (t funit : Nat) (m : Msg) (tags : List Nat) (nest : Option Nat) (s : State) : State :=
  s.onTile t (fun x => { x with mp := { x.mp with
    tag := (x.mp.tag + 1) % 2 ^ 32,
    fenced := x.mp.fenced ++ [{ msg := m, funit := funit, tags := tags, nest := nest }] } })

/-- Send an action's counter message, or hold it as FENCED while earlier WRITEs to its fence unit
are unacknowledged (R221, R256). -/
def msgAction (t n kind op : Nat) (s : State) : State :=
  let p := (s.tile t).cfg.plane
  onAction t n kind (fun k _ rest w0 w1 s =>
    if k.claimSent then s
    else
      let x := s.tile t
      let dest := fld w1 0 13
      let tctx := fld w1 48 3
      let funit := fld w1 17 13
      let tags := x.unackedAt funit
      -- CINC and CDEC name no return counter; CWAIT returns to CNT
      let wd := if op = 0x0C then actW1 k w0 w1 else setFld (actW1 k w0 w1) 37 24 0
      if bit w0 36 && !tags.isEmpty then
        let s := holdFenced t funit (fromTile s t op dest tctx wd x.mp.tag) tags (some (nkey p n)) s
        s.onTile t (fun x => x.setNest p n { k with claimSent := true })
      else
        putNest t p n { k with todo := rest } (tileSend t op dest tctx wd [] none (some (nkey p n)) s)) s

/-- ACTION_CINC (R256). -/
def execActionCinc (t : Nat) (n : Fin 8) (s : State) : Host.Outcome State Fault Refusal :=
  s.atTile t (msgAction t n.val 5 0x08)

/-- ACTION_CDEC (R256). -/
def execActionCdec (t : Nat) (n : Fin 8) (s : State) : Host.Outcome State Fault Refusal :=
  s.atTile t (msgAction t n.val 6 0x09)

/-- ACTION_CWAIT (R256). -/
def execActionCwait (t : Nat) (n : Fin 8) (s : State) : Host.Outcome State Fault Refusal :=
  s.atTile t (msgAction t n.val 7 0x0C)

/-- FENCED_SEND (R221): the first held operation whose earlier WRITEs are all acknowledged leaves,
and the action that waited for it completes (R256). -/
def fencedSend (t : Nat) (s : State) : State :=
  let x := s.tile t
  match x.mp.fenced.find? (fun f => f.tags.isEmpty) with
  | none => s
  | some f =>
    if x.cfg.halted then s
    else
      let s := s.onTile t (fun x => { x with mp := { x.mp with
        fenced := x.mp.fenced.erase f, sent := x.mp.sent ++ [{ msg := f.msg, nest := f.nest }] } })
      let s := sendMsg f.msg s
      match f.nest with
      | none => s
      | some key =>
        let k := (s.tile t).nest (key / 8) (key % 8)
        if k.claimSent then
          putNest t (key / 8) (key % 8) { k with claimSent := false, todo := k.todo.tail } s
        else s

/-- FENCED_SEND (R221). -/
def execFencedSend (t : Nat) (s : State) : Host.Outcome State Fault Refusal :=
  s.atTile t (fencedSend t)

/-- ACTION_CLAIM (R259): local when DEST is the tile's own address, else a CLAIM message, which FENCE holds
back as R221 says. -/
def execActionClaim (t : Nat) (n : Fin 8) (s : State) : Host.Outcome State Fault Refusal :=
  s.atTile t (fun s =>
    let p := (s.tile t).cfg.plane
    onAction t n.val 8 (fun k _ _ w0 w1 s =>
      if k.claimSent then s
      else if fld w1 0 13 = t then
        let c := fld w1 13 4
        let x := s.tile t
        if x.cfg.frozen then s
        else
          let (q, st, v) := claimAt (x.counter c) (actAmt w0)
          let s := putCounter t c (q, q.satHi && !(x.counter c).satHi) (localItems 4 c) s
          s.onTile t (fun x => { x.setNest p n.val { k with claimSent := true } with
            fab := { x.fab with nestWords := x.fab.nestWords ++ [(true, v + st * 2 ^ 24)] } })
      else
        let x := s.tile t
        let tags := x.unackedAt (fld w1 17 13)
        let s := if bit w0 36 && !tags.isEmpty then
            holdFenced t (fld w1 17 13) (fromTile s t 0x0A (fld w1 0 13) (fld w1 48 3) (actW1 k w0 w1) x.mp.tag) tags none s
          else tileSend t 0x0A (fld w1 0 13) (fld w1 48 3) (actW1 k w0 w1) [] none (some (nkey p n.val)) s
        s.onTile t (fun x => x.setNest p n.val { k with claimSent := true })) s)

/-- The claim register takes the result; OWNER_LOST without LOST_OK raises OWNER_LOST (R259). -/
def loadClaim (t p n : Nat) (k : Nest) (rest : List NItem) (w0 : Word) (v st : Nat) (s : State) : State :=
  let k := { k with claim := some (v, actAmt w0, st), claimSent := false, todo := rest }
  if st = 2 ∧ !bit w0 46 then
    raiseT t .ownerLost (localItems 4 (actCnt w0)) (some (.nest n)) (s.onTile t (fun x => x.setNest p n k))
  else putNest t p n k s

/-- CLAIM_REGISTER_LOAD (R259): the local word, or the answer written in the return window once
counter CNT stands at 1 or more. -/
def execClaimRegisterLoad (t : Nat) (n : Fin 8) (s : State) : Host.Outcome State Fault Refusal :=
  s.atTile t (fun s =>
    let p := (s.tile t).cfg.plane
    onAction t n.val 8 (fun k _ rest w0 w1 s =>
      if !k.claimSent then s
      else
        let x := s.tile t
        if fld w1 0 13 = t then
          match x.fab.nestWords.findIdx? (·.1) with
          | none => s
          | some i =>
            let w := (x.fab.nestWords.getD i (true, 0)).2
            let s := s.onTile t (fun x => { x with fab := { x.fab with nestWords := x.fab.nestWords.eraseIdx i } })
            loadClaim t p n.val k rest w0 (w % 2 ^ 24) (w / 2 ^ 24 % 256) s
        else if (x.counter (actCnt w0)).value < 1 then s
        else
          let a := ((x.win (fld w1 30 4)).base + fld w1 34 14) * 64
          let (ok, s) := touch t a 8 (some (.nest n.val)) s
          if !ok then s
          else
            let w := x.rdN a 8
            loadClaim t p n.val k rest w0 (w % 2 ^ 24) (w / 2 ^ 24 % 256) (localDec t (actCnt w0) 1 s)) s)

/-- The handle an HPUSH action makes (R256): WIN = the operand's window, OFFSET from its start; none
where R52 fails it at once. -/
def actHandle (x : Tile) (p n : Nat) (k : Nest) (w0 : Word) : Option (BitVec 32) :=
  let o := fld w0 48 2
  let b := x.nbind p n o
  let off := x.opOff p n o k
  if b.mode = 1 ∧ 0 ≤ off ∧ off.toNat % 64 = 0 ∧ off.toNat / 64 ≤ 16383 ∧ 1 ≤ actAmt w0 ∧ actAmt w0 ≤ 16384 then
    some (mkHandle b.sel (off.toNat / 64) (actAmt w0))
  else none

/-- ACTION_HPUSH (R256, R52, R53). -/
def execActionHpush (t : Nat) (n : Fin 8) (s : State) : Host.Outcome State Fault Refusal :=
  s.atTile t (fun s =>
    let p := (s.tile t).cfg.plane
    onAction t n.val 9 (fun k _ rest w0 _ s =>
      let q := fld w0 53 2
      let x := s.tile t
      let bad (e : Err) (cause : Nat) (h : Nat) (s : State) : State :=
        raiseT t e [(2, q), (32, h)] (some (.nest n.val)) (noteFault t p n.val cause (fld w0 48 2) k s)
      match actHandle x p n.val k w0 with
      | none => bad .handleBounds 5 0 s
      | some h =>
        match x.pushRes q h with
        | .ok => putNest t p n.val { k with todo := rest } (s.onTile t (fun x => x.push q h))
        | .bounds => bad .handleBounds 5 h.toNat s
        | .full => bad .hqOverflow 3 h.toNat s) s)

/-- ACTION_CHRET (R256, R227). -/
def execActionChret (t : Nat) (n : Fin 8) (s : State) : Host.Outcome State Fault Refusal :=
  s.atTile t (simpleAction t n.val 10 (fun w0 _ s => returnLines t (fld w0 50 3) (actAmt w0) s))

/-- ACTION_OPEN (R256, R224). -/
def execActionOpen (t : Nat) (n : Fin 8) (s : State) : Host.Outcome State Fault Refusal :=
  s.atTile t (simpleAction t n.val 11 (fun w0 _ s => recOpen t (fld w0 50 3) s))

/-- ACTION_CLOSE (R256, R223). -/
def execActionClose (t : Nat) (n : Fin 8) (s : State) : Host.Outcome State Fault Refusal :=
  s.atTile t (simpleAction t n.val 12 (fun w0 _ s => recClose t (fld w0 50 3) s))

/-! ## Firing (R251, R254, R257, R262) -/

/-- The nest stands before a firing of its descriptor by engine e, and the engine may start it: it runs, and
the tile is in no switch cycle (R203). -/
def State.readyFire (s : State) (t n e : Nat) (u : TUnit) : Option Nest :=
  let x := s.tile t
  match s.liveNest t n with
  | none => none
  | some k =>
    if (x.nctl x.cfg.plane n).engine = e ∧ k.todo.head? = some .fire ∧ s.unitRuns t u ∧ !x.fab.switchDue then
      some k
    else none

/-- The firing has begun: it is outstanding, and the nest moves to the next iteration (R257). -/
def nestFired (t n : Nat) (k : Nest) (s : State) : State :=
  let x := s.tile t
  let p := x.cfg.plane
  putNest t p n { k with out := k.out + 1,
                         todo := .endPt (x.levelAt p n 0) :: .advance 0 :: k.todo.tail }
    (s.onTile t (fun x => { x with fired := true }))

/-- A firing has written its outputs. -/
def fireDone (t p n : Nat) (s : State) : State :=
  s.onTile t (fun x => x.setNest p n { x.nest p n with out := (x.nest p n).out - 1 })

/-- Every nest at the start of run 0, every handle queue empty (R261). -/
def Tile.resetNests (x : Tile) : Tile := { x with nests := [], hq := [] }

end Sys2Proof.Machine
end

