-- ==== Sys2Proof/Machine/Matrix.lean ====
section
/-! DEFINITION.
The matrix engine (chapter 04): descriptors and their checks, operand reads, block values, the
combine, drains and state records. -/

namespace Sys2Proof.Machine

/-! ## Format tables and flags of a tile (R62, R81 to R84, R91) -/

/-- Entry of a live table: kind 0 decode, 1 encode, 2 curve (R91). -/
def Tile.tbl (x : Tile) (kind table entry : Nat) : Word := x.cfg.tblLive.get (kind * 4096 + table * 256 + entry) 0

/-- `TEN_FTCTLt` (R91). -/
def Tile.ftctl (x : Tile) (t : Nat) : Word := x.reg 3 (0x140 + 8 * t)

/-- Format table t as the engines see it. -/
def Tile.fmtTab (x : Tile) (t : Nat) : FmtTable :=
  { dec := (List.range 256).map (fun c => fld (x.tbl 0 t c) 0 16),
    enc := (List.range 255).map (fun i => (fld (x.tbl 1 t i) 0 32, bit (x.tbl 1 t i) 32)),
    order := fld (x.ftctl t) 0 2, nanCode := fld (x.ftctl t) 8 8 }

/-- The tables an engine consults, built once for the one format it uses. -/
def Tile.tabFor (x : Tile) (f : Fmt) : Nat → FmtTable :=
  match f with
  | .tbl t => let T := x.fmtTab t; fun _ => T
  | _ => fun _ => ⟨[], [], 0, 0⟩

/-- The format may be executed: a table-defined one is enabled (R84). -/
def Tile.fmtOn (x : Tile) (f : Fmt) : Bool :=
  match f with
  | .tbl t => bit (x.ftctl t) 2
  | _ => true

/-- Set sticky flags of a group, and note the cycle in which it happens (R62, R63). -/
def Tile.setFlags (x : Tile) (g : Group) (fl : Flags) : Tile :=
  let held := if x.flagCyc = x.clk.cyc then x.flagNew else 0
  { x with flags := orFlags x.flags g fl, flagCyc := x.clk.cyc, flagNew := orFlags held g fl }

/-- A W1C write clears the flags it names, save those that an engine sets in the same cycle (R63). -/
def Tile.clearFlags (x : Tile) (v : Word) : Tile :=
  let held := if x.flagCyc = x.clk.cyc then x.flagNew else 0
  { x with flags := x.flags &&& (~~~(BitVec.ofNat 16 v.toNat) ||| held) }

/-- Generator e's state (R90). -/
def Tile.gen (x : Tile) (g : Group) : Nat := x.gens.get g.toNat 1

def Tile.setGen (x : Tile) (g : Group) (v : Nat) : Tile := { x with gens := x.gens.put g.toNat v 1 }

/-- The output takes draws under ROUND = 1 (R88): not pairs, integers or table-defined formats. -/
def Fmt.drawn (f : Fmt) : Bool := !f.isPair && !f.isInt && !f.isTbl

/-- A CONTEXT error of an engine: the engine and the nest that drove it stop (R262, R352). -/
def raiseEng (t : Nat) (e : Err) (items : List (Nat × Nat)) (u : TUnit) (n : Nat) (s : State) : State :=
  raiseT t e items (some u)
    (s.onTile t (fun x => if x.stopped.contains (.nest n) then x else { x with stopped := x.stopped ++ [.nest n] }))

/-! ## Descriptors (R125, R126) -/

def Tile.mdesc (x : Tile) (p i w : Nat) : Word := x.cword p 3 (2 * i + w)

structure MDesc where
  kind : Nat
  fa : Nat
  fb : Nat
  fc : Nat
  oa : Bool
  ob : Bool
  mode : Nat
  round : Nat
  sat : Bool
  passLvl : Nat
  m : Nat
  accIn : Nat
  stateOut : Bool
  mxa : Bool
  mxb : Bool
  mxc : Bool
  sa : Nat
  sb : Nat
  sc : Nat
  deriving DecidableEq, Repr

def MDesc.ofWords (w0 w1 : Word) : MDesc :=
  { kind := fld w0 0 4, fa := fld w0 4 5, fb := fld w0 9 5, fc := fld w0 14 5, oa := bit w0 19,
    ob := bit w0 20, mode := fld w0 21 2, round := fld w0 23 2, sat := bit w0 25,
    passLvl := fld w0 29 3, m := fld w0 32 6, accIn := fld w0 38 2, stateOut := bit w0 40,
    mxa := bit w0 41, mxb := bit w0 42, mxc := bit w0 43, sa := fld w1 0 14, sb := fld w1 14 14,
    sc := fld w1 28 14 }

def MtxStep.d (q : MtxStep) : MDesc := MDesc.ofWords q.w0 q.w1

/-- Lane classes of R104. -/
inductive Lane where
  | c8
  | c4
  | c16
  | pair
  | split
  deriving DecidableEq, Repr

/-- The lane class of an operand format; none: not a matrix operand (R71, R104). -/
def laneOf (c : Nat) : Option Lane :=
  match Fmt.ofCode c with
  | some .e4m3 => some .c8
  | some .e5m2 => some .c8
  | some .int8 => some .c8
  | some (.tbl _) => some .c8
  | some .e2m3 => some .c4
  | some .e3m2 => some .c4
  | some .e2m1 => some .c4
  | some .int4 => some .c4
  | some .bf16 => some .c16
  | some .fp16 => some .c16
  | some .p16 => some .pair
  | some .fp32 => some .split
  | _ => none

/-- FP6 operands take two tiles per step (R104, R253). -/
def isFp6 (c : Nat) : Bool := c == 7 || c == 8

/-- Container bits of a format code. -/
def codeBits (c : Nat) : Nat := match Fmt.ofCode c with | some f => f.bits | none => 8

/-- Bytes of an operand of a step (R108, R253). -/
def opndBytes (c : Nat) : Nat :=
  if isFp6 c then 2048 else if c = 4 then 4096 else skewBytes (codeBits c)

/-- Bytes of an output tile (R72, R121). -/
def outBytes (c : Nat) : Nat :=
  if c = 4 then 4096 else if c = 3 then 8192 else skewBytes (codeBits c)

/-- Bytes that a step touches at its C address (R121, R122): the first of a slot's steps may load records there, the
last writes the output or its records. -/
def MDesc.cBytes (d : MDesc) (first last : Bool) : Nat :=
  max (if !last then 0 else if d.stateOut then 512 * d.m else outBytes d.fc)
    (if first && d.accIn == 2 then 512 * d.m else 0)

/-- Integer mode (R105, R114). -/
def MDesc.isInt (d : MDesc) : Bool := (d.fa == 0x0A || d.fa == 0x0B) && !d.mxa

/-- Accumulation mode as R118 lays words out: 0 normal, 1 pair, 2 split, 3 integer. -/
def MDesc.accMode (d : MDesc) : Nat := if d.isInt then 3 else d.mode

/-- Table-defined operands and the wider classes use the window (R113). -/
def MDesc.window (d : MDesc) : Bool :=
  d.fa ≥ 0x10 || d.fb ≥ 0x10 || (match laneOf d.fa with
    | some .c8 => false
    | some .c4 => false
    | _ => true)

/-- Step depth d (R104). -/
def MDesc.depth (d : MDesc) : Nat := if laneOf d.fa = some .c4 then 64 else 32

/-- The format checks of R71, R84, R88, R105 to R107 and R125, in that order. MODE 2 with operands other than
FP32, for which R105 names no error, raises MTX_FORMAT (DESIGN CHOICE, log 102). -/
def MDesc.check (x : Tile) (d : MDesc) : Option Err :=
  let intNoMx (c : Nat) (mx : Bool) : Bool := (c == 0x0A || c == 0x0B) && !mx
  let mxOk (c : Nat) : Bool := match Fmt.ofCode c with | some f => f.isMxElem | none => false
  let c4 (c : Nat) : Bool := c == 0x09 || c == 0x0B
  match laneOf d.fa, laneOf d.fb, Fmt.ofCode d.fc with
  | some la, some lb, some fc =>
    if d.round > 1 then some .fmtReserved
    else if !(match Fmt.ofCode d.fa with | some f => x.fmtOn f | none => true) ||
        !(match Fmt.ofCode d.fb with | some f => x.fmtOn f | none => true) || !x.fmtOn fc then
      some .fmtUndefined
    else if d.kind != 1 || d.mode == 3 || d.accIn == 3 || d.m == 0 || d.m > 32 || la != lb ||
        ((intNoMx d.fa d.mxa || intNoMx d.fb d.mxb) && (d.fa != d.fb || d.mxa || d.mxb)) ||
        (d.mxa && !mxOk d.fa) || (d.mxb && !mxOk d.fb) ||
        (la == .pair && d.mode != 1) || ((la == .split) != (d.mode == 2)) ||
        (d.isInt && d.mode != 0) || c4 d.fc || (d.mode == 2 && d.fc != 0) ||
        (d.oa && c4 d.fa) || (d.ob && c4 d.fb) ||
        (d.mxc && !(mxOk d.fc)) then some .mtxFormat
    else none
  | _, _, _ => some .fmtReserved

/-- The pass level rules of R127 at the driving nest. -/
def Tile.splitOk (x : Tile) (p n : Nat) (d : MDesc) : Bool :=
  let lv := List.range (x.nctl p n).nlev
  let L := d.passLvl
  decide (L < (x.nctl p n).nlev) && lvSrc (x.lvl0 p n L) == 0 && lvBound (x.lvl0 p n L) == 6 &&
  (List.range 3).all (fun o => x.stride p n L o == 0) &&
  lv.all (fun j =>
    if j != L && x.stride p n j 2 == 0 && (x.stride p n j 0 != 0 || x.stride p n j 1 != 0) then
      decide (lvPos (x.lvl0 p n j) < lvPos (x.lvl0 p n L))
    else true)

/-- Every accumulation level is at its last index (R253). -/
def Tile.accLast (x : Tile) (p n : Nat) (d : MDesc) (k : Nest) : Bool :=
  (List.range (x.nctl p n).nlev).all (fun j =>
    if lvAcc (x.lvl0 p n j) || (d.mode == 2 && j == d.passLvl) then k.ix j == k.hiOf j else true)

/-! ## Slots (R119, R120, R253) -/

/-- The slots of the normal numbering that a slot of the operation covers (R119). -/
def slotCover (mode slot : Nat) : List Nat := if mode = 1 then [2 * slot, 2 * slot + 1] else [slot]

def Tile.slot (x : Tile) (u : Nat) : AccSlot := x.mtx.slots.get u {}

def Tile.onSlots (x : Tile) (us : List Nat) (f : AccSlot → AccSlot) : Tile :=
  us.foldl (fun x u => { x with mtx := { x.mtx with slots := x.mtx.slots.upd u {} f } }) x

/-- Accumulator of element e of a slot (R119). -/
def accIx (mode slot e : Nat) : Nat := if mode = 1 then slot * 2048 + e else slot * 1024 + e

/-- An accumulator: its word and tag; undefined ones are free (R120). -/
def Tile.accum (x : Tile) (i : Nat) : Nat :=
  ((x.mtx.acc.get i none).getD (Config.freeAcc x.mtx.epoch i)).toNat

def Tile.setAccum (x : Tile) (i word tag : Nat) : Tile :=
  { x with mtx := { x.mtx with
      acc := x.mtx.acc.put i (some (BitVec.ofNat 39 (word % 2 ^ 35 + tag % 16 * 2 ^ 35))) none } }

/-! ## MMA (R103, R125, R253, R262) -/

/-- Scale bytes of an operand tile at T (R111): first byte and count. -/
def scaleAt (base bits T : Nat) : Nat × Nat :=
  if bits = 4 then (base * 64 + T * 2 / 32, 64) else (base * 64 + T / 32, 32)

/-- Last scale byte of every MX operand that a step touches, with the operand; `out`: it writes an output (R262). -/
def MDesc.scaleEnds (d : MDesc) (out : Bool) (a b c : Nat) : List (Nat × Nat) :=
  let one (o mx code base T : Nat) : List (Nat × Nat) :=
    if mx = 0 then []
    else
      let (f, n) := scaleAt base (codeBits code) T
      [(o, f + n + (if isFp6 code && o != 2 then 32 else 0))]
  one 0 (b2n d.mxa) d.fa d.sa a ++ one 1 (b2n d.mxb) d.fb d.sb b ++ one 2 (b2n (d.mxc && out)) d.fc d.sc c

/-- Detail of a matrix error (R131): plane, descriptor, slot. -/
def mtxItems (p i slot : Nat) : List (Nat × Nat) := [(2, p), (4, i), (4, slot)]

/-- The step's place is refused: a wrong slot, or an open slot with another C address (R253, R262). -/
def Tile.slotBad (x : Tile) (d : MDesc) (slot : Nat) (c : Option Int) : Bool :=
  decide (slot ≥ (if d.mode = 1 then 8 else 16)) ||
  (slotCover d.mode slot).any (fun u => (x.slot u).opened && c != some (x.slot u).addrC)

/-- The mode of a slot's last write, those of the steps still in the engine counted; none: not valid (R120). -/
def Tile.slotMode (x : Tile) (u : Nat) : Option Nat :=
  let qs := (x.mtx.rows.map (·.step) ++ x.mtx.bufs.map (·.step)).filter (fun q => (slotCover q.d.mode q.slot).contains u)
  match qs.getLast? with
  | some q => some q.d.accMode
  | none => if (x.slot u).valid then some (x.slot u).mode else none

/-- Why an operation of the driving nest may not start: the format checks, the pass level, the state it
continues (R105, R120, R127). -/
def Tile.opFault (x : Tile) (p n i slot : Nat) (d : MDesc) : Option (Err × List (Nat × Nat)) :=
  match d.check x with
  | some e => some (e, if e = .mtxFormat then mtxItems p i slot else [(2, p), (2, 0)])
  | none =>
    if d.mode = 2 && !x.splitOk p n d then some (.mtxSplitOrder, mtxItems p i slot)
    else if d.accIn = 1 && !(slotCover d.mode slot).all (fun u => x.slotMode u == some d.accMode) then
      some (.mtxState, mtxItems p i slot)
    else none

/-- MMA: a nest iteration fires one step (R103, R104, R253, R262). -/
def mma (t n : Nat) (s : State) : State :=
  match s.readyFire t n 0 .mtx with
  | none => nestWaits t n s
  | some k =>
    let x := s.tile t
    let p := x.cfg.plane
    let i := (x.nctl p n).desc % 16
    let w0 := x.mdesc p i 0
    let w1 := x.mdesc p i 1
    let d := MDesc.ofWords w0 w1
    let slot := x.opSlot p n k
    let us := slotCover d.mode slot
    let first := !us.any (fun u => (x.slot u).opened)
    let last := x.accLast p n d k
    if !x.mtx.issued.isEmpty then s
    else if x.slotBad d slot (x.opPlace p n 2 k) then nestRaise t p n .accOverflow 1 0 k s
    else match x.opAddr p n 0 (opndBytes d.fa) k, x.opAddr p n 1 (opndBytes d.fb) k,
        x.opTouch p n 2 (d.cBytes first last) k with
    | none, _, _ => nestRaise t p n .nestBounds 2 0 k s
    | _, none, _ => nestRaise t p n .nestBounds 2 1 k s
    | _, _, none => nestRaise t p n .nestBounds 2 2 k s
    | some a, some b, some c =>
      match (d.scaleEnds (last && !d.stateOut) a b c).find? (fun q => q.2 > 2 ^ 20) with
      | some (o, _) => nestRaise t p n .nestBounds 2 o k s
      | none =>
        -- the first step of an operation: into a slot that is not open, or one that another nest has opened
        let begins := us.any (fun u => !(x.slot u).opened || (x.slot u).nest != nkey p n + 1)
        match (if begins then x.opFault p n i slot d else none) with
        | some (e, items) => raiseEng t e items .mtx n s
        | none =>
          if !x.skewOk a || !x.skewOk b || (last && !d.stateOut && !x.skewOk c) then
            raiseEng t .spAlign [(20, if !x.skewOk a then a else if !x.skewOk b then b else c)] .mtx n s
          else
            let pass := if d.mode = 2 then k.ix d.passLvl else 0
            let q : MtxStep := { w0 := w0, w1 := w1, desc := i, nest := n, plane := p, addrA := a,
                                 addrB := b, addrC := c, slot := slot, first := first, last := last,
                                 pass := pass }
            let s := s.onTile t (fun x =>
              let x := x.onSlots us (fun z => { z with opened := !last, addrC := if last then 0 else (x.opPlace p n 2 k).getD 0,
                                                       nest := if last then 0 else nkey p n + 1 })
              { x with mtx := { x.mtx with issued := [q], desc := i, slot := slot, pass := pass, mode := d.mode } })
            nestFired t n k s

/-- MMA (R103). -/
def execMma (t : Nat) (n : Fin 8) (s : State) : Host.Outcome State Fault Refusal :=
  s.atTile t (mma t n.val)

/-! ## Operand reads (R85, R107 to R111) -/

def zeroVal : Val := .fin false 0 0

/-- Element k of row or column i of an operand (R72, R107, R111). -/
def Tile.operandElt (x : Tile) (tab : Nat → FmtTable) (c : Nat) (orient mx : Bool) (T base i k : Nat) : Elt :=
  let w := codeBits c
  let T' := if isFp6 c then T + 1024 * (k / 32) else T
  let k' := if isFp6 c then k % 32 else k
  let code := if orient then x.rdSkew w T' k' i else x.rdSkew w T' i k'
  if c = 4 then
    let lo := if orient then x.rdSkew 16 (T + 2048) k' i else x.rdSkew 16 (T + 2048) i k'
    ⟨bf16L.decode code, bf16L.decode lo⟩
  else match Fmt.ofCode c with
    | none => ⟨zeroVal, zeroVal⟩
    | some f =>
      if mx then
        let (sa, _) := scaleAt base w T'
        let si := if w = 4 then 32 * (k / 32) + i else i
        ⟨mxDecode f (x.rd1 (sa + si)).toNat code, zeroVal⟩
      else ⟨decodeElem f tab code, zeroVal⟩

/-- An operand of a step: `rows` rows (A) or 32 columns (B) of d elements. -/
def Tile.operand (x : Tile) (c : Nat) (orient mx : Bool) (T base rows depth : Nat) : List (List Elt) :=
  let tab := match Fmt.ofCode c with | some f => x.tabFor f | none => fun _ => ⟨[], [], 0, 0⟩
  (List.range rows).map (fun i => (List.range depth).map (fun k => x.operandElt tab c orient mx T base i k))

/-- The lines an operand read touches, as (address, bytes): its tiles and its scale bytes. -/
def operandLines (c : Nat) (mx : Bool) (T base : Nat) : List (Nat × Nat) :=
  let sc (T : Nat) := scaleAt base (codeBits c) T
  (T, opndBytes c) :: (if mx then sc T :: (if isFp6 c then [sc (T + 1024)] else []) else [])

/-- Touch several ranges in order; the first that meets a bank that is off stops (R39). -/
def touchAll (t : Nat) (u : TUnit) (n : Nat) : List (Nat × Nat) → State → Bool × State
  | [], s => (true, s)
  | (a, len) :: rs, s =>
    if (s.tile t).linesOn a len then touchAll t u n rs s
    else (false, raiseEng t .bankOff [(20, a)] u n s)

/-- State records are well formed for the operation (R122). -/
def recordOk (mode w0 w1 : Nat) : Bool :=
  let m := if mode = 3 then 1 else if mode = 2 then 2 else 0
  w0 / 2 ^ 39 % 4 == m && w0 / 2 ^ 41 == 0 && w1 / 2 ^ 35 == 0

/-- Load the records of a slot (R122); none: one of them is malformed. -/
def Tile.loadRecords (x : Tile) (d : MDesc) (slot a : Nat) : Option Tile :=
  let es := List.range (d.m * 32)
  if es.all (fun e => recordOk d.accMode (x.rdN (a + 16 * e) 8) (x.rdN (a + 16 * e + 8) 8)) then
    some (es.foldl (fun z e =>
      let w0 := x.rdN (a + 16 * e) 8
      let z := z.setAccum (accIx d.accMode slot e) (w0 % 2 ^ 35) (w0 / 2 ^ 35 % 16)
      if d.accMode = 1 then z.setAccum (accIx 1 slot e + 1024) (x.rdN (a + 16 * e + 8) 8 % 2 ^ 35) 0 else z) x)
  else none

/-- Slots of two steps meet. -/
def MtxStep.sharesSlot (q r : MtxStep) : Bool :=
  (slotCover q.d.mode q.slot).any (fun u => (slotCover r.d.mode r.slot).contains u)

/-- A drain of the slot is pending (R123). -/
def Matrix.drainPending (m : Matrix) (q : MtxStep) : Bool := m.drains.any (fun r => q.sharesSlot r)

/-- An earlier step of the slot has not yet left the engine. -/
def Matrix.slotBusy (m : Matrix) (q : MtxStep) : Bool :=
  m.drainPending q || m.bufs.any (fun b => q.sharesSlot b.step) || m.rows.any (fun r => q.sharesSlot r.step)

/-- MMA_STEP_READ (R108, R109, R122): the operands of the step at the head of the queue enter a
free buffer; the records of ACC_IN = 2 are loaded before them. -/
def mmaStepRead (t : Nat) (s : State) : State :=
  let x := s.tile t
  match x.mtx.issued with
  | [] => s
  | q :: rest =>
    let d := q.d
    let load := q.first && d.accIn == 2
    if !s.unitRuns t .mtx || x.mtx.bufs.length ≥ 2 || (load && x.mtx.slotBusy q) then s
    else
      let (ok, s) := touchAll t .mtx q.nest
        ((if load then [(q.addrC, 512 * d.m)] else []) ++ operandLines d.fa d.mxa q.addrA d.sa ++
          operandLines d.fb d.mxb q.addrB d.sb) s
      if !ok then s
      else
        match (if load then x.loadRecords d q.slot q.addrC else some x) with
        | none => raiseEng t .mtxState (mtxItems x.cfg.plane q.desc q.slot) .mtx q.nest s
        | some x' =>
          let buf : MtxBuf :=
            { step := q,
              a := x.operand d.fa d.oa d.mxa q.addrA d.sa d.m d.depth,
              b := x.operand d.fb d.ob d.mxb q.addrB d.sb 32 d.depth }
          s.setTile t { x' with fired := true, mtx := { x'.mtx with issued := rest, bufs := x'.mtx.bufs ++ [buf] } }

/-- MMA_STEP_READ (R109). -/
def execMmaStepRead (t : Nat) (s : State) : Host.Outcome State Fault Refusal :=
  s.atTile t (mmaStepRead t)

/-! ## Block values (R99, R100, R112 to R115) -/

/-- The three BF16 words of the split (R100). -/
def split3 (v : Val) (i : Nat) : Val :=
  let x1 := rnBf16 v
  let x2 := rnBf16 (v.sub x1)
  match i with
  | 1 => x1
  | 2 => x2
  | _ => rnBf16 ((v.sub x1).sub x2)

/-- The components a pass multiplies (R127). -/
def passParts (p : Nat) : Nat × Nat :=
  match p with
  | 0 => (3, 1)
  | 1 => (2, 2)
  | 2 => (1, 3)
  | 3 => (2, 1)
  | 4 => (1, 2)
  | _ => (1, 1)

/-- What a product of two pairs adds to the tag: the class of the pairs' values decides (R85, R97), and a
signalling word or opposite infinities in a pair are invalid. -/
def pairTag (a b : Elt) : Tag :=
  let inv (e : Elt) : Bool := e.hi.isSNaN || e.lo.isSNaN || (pairVal e.hi e.lo).2
  (Tag.ofProduct (pairVal a.hi a.lo).1 (pairVal b.hi b.lo).1).or { inv := inv a || inv b }

/-- The products of one k index, with the operands whose class its tag follows (R85, R97, R99, R101). Of two
pairs with finite words three products are formed; any other product of pairs only marks the tag. -/
def products (lane : Option Lane) (pass : Nat) (a b : Elt) : List (Val × Tag) :=
  match lane with
  | some .pair =>
    if a.hi.isFin && a.lo.isFin && b.hi.isFin && b.lo.isFin then
      [(a.hi.mul b.hi, {}), (a.hi.mul b.lo, {}), (a.lo.mul b.hi, {})]
    else [(.nan false, pairTag a b)]
  | some .split =>
    let (i, j) := passParts pass
    let tag := Tag.ofProduct a.hi b.hi
    if tag = {} then [((split3 a.hi i).mul (split3 b.hi j), {})] else [(.nan false, tag)]
  | _ => [(a.hi.mul b.hi, Tag.ofProduct a.hi b.hi)]

/-- Exact sum of the finite products; −0 when there is none (R112, R115). -/
def exactSum (ps : List Val) : Val :=
  ps.foldl (fun a p => if p.isFin then a.add p else a) .negZero

/-- E of R113: the largest ⌊log₂⌋ over the nonzero finite products. -/
def windowExp (ps : List Val) : Option Int :=
  ps.foldl (fun e p => match p with
    | .fin _ m q => if m = 0 then e else
        let l := magLog2 m q
        match e with
        | none => some l
        | some e => some (max e l)
    | _ => e) none

/-- A product truncated toward zero to a multiple of 2^q, and whether bits were lost. -/
def truncTo (q : Int) (v : Val) : Val × Bool :=
  match v with
  | .fin n m e =>
    if e ≥ q then (v, false)
    else
      let k := (q - e).toNat
      (.fin n (m >>> k) q, m % 2 ^ k != 0)
  | w => (w, false)

/-- The window block value (R113). -/
def windowSum (ps : List Val) : Val :=
  match windowExp ps with
  | none => exactSum ps
  | some e =>
    let tr := ps.map (truncTo (e - 87))
    let w := exactSum (tr.map Prod.fst)
    if tr.any Prod.snd then
      w.add (.fin (w.neg && !w.isZero) 1 (e - 88))
    else w

/-- Block value and tag of one output element over one k-block. -/
def blockValue (d : MDesc) (pass : Nat) (as bs : List Elt) : Val × Tag :=
  let ps := (List.zipWith (products (laneOf d.fa) pass) as bs).flatten
  let vs := ps.map Prod.fst
  (if d.window then windowSum vs else exactSum vs, ps.foldl (fun t p => t.or p.2) {})

/-- Rows of block values of a buffered step, in row order; in the 4-bit class two blocks of each
row (R104). -/
def stepRows (b : MtxBuf) : List RowBlk :=
  let d := b.step.d
  let nb := d.depth / 32
  b.a.zipIdx.flatMap (fun (as, i) =>
    (List.range nb).map (fun j =>
      { step := { b.step with first := b.step.first && j == 0 }, row := i,
        fin := i + 1 == b.a.length && j + 1 == nb,
        vals := b.b.map (fun bs => blockValue d b.step.pass ((as.drop (32 * j)).take 32) ((bs.drop (32 * j)).take 32)) }))

/-- MMA_ARRAY_STEP (R109): the array cycles of the oldest buffered step; its buffer is freed. -/
def mmaArrayStep (t : Nat) (s : State) : State :=
  match (s.tile t).mtx.bufs with
  | [] => s
  | b :: rest =>
    if !s.unitRuns t .mtx then s
    else s.onTile t (fun x => { x with fired := true, mtx := { x.mtx with bufs := rest, rows := x.mtx.rows ++ stepRows b } })

/-- MMA_ARRAY_STEP (R109). -/
def execMmaArrayStep (t : Nat) (s : State) : Host.Outcome State Fault Refusal :=
  s.atTile t (mmaArrayStep t)

/-! ## The combine (R96, R114, R118, R128) -/

def accVal (w : Nat) : Val := accL.decode (w % 2 ^ 35)
def accWord (v : Val) : Nat := (accL.encode .rne true v).1

/-- Integer accumulation with its bounds (R114): word and the saturation bit. -/
def intAcc (w : Nat) (sat : Bool) (v : Val) : Nat × Bool :=
  let add : Int := match v with
    | .fin n m e => if n then -((m * 2 ^ e.toNat : Nat) : Int) else ((m * 2 ^ e.toNat : Nat) : Int)
    | _ => 0
  let z := signedOf 35 w + add
  if z > 2 ^ 34 - 1 then (codeOf 35 (2 ^ 34 - 1), true)
  else if z < -(2 ^ 34) then (codeOf 35 (-(2 ^ 34)), true)
  else (codeOf 35 z, sat)

/-- The split's running sum (R101, R128): the FP32 sum and its overflow bit. R128 gives the overflow result of
R93 to a running sum; that the block sum, rounded to FP32 before it is added, takes it too and sets bit [32]
is DEDUCED (log 101). An IEEE running sum that has overflowed to an infinity and meets a block sum of the other
infinity becomes a NaN without the invalid flag, on which R101 and R128 are silent (DESIGN CHOICE, log 101). -/
def splitAcc (sat : Bool) (w : Nat) (v : Val) : Nat :=
  let (b, fb) := fp32L.encode .rne sat v
  let (r, fr) := fp32L.encode .rne sat ((fp32L.decode (w % 2 ^ 32)).add (fp32L.decode b))
  r + (if w / 2 ^ 32 % 2 = 1 || fb.o || fr.o then 2 ^ 32 else 0)

/-- Start value of an accumulator (R125): word h, word l. -/
def freshWord (mode : Nat) : Nat :=
  match mode with
  | 3 => 0
  | 2 => 2 ^ 31
  | _ => 2 ^ 34

/-- Combine one block value into an element (R96, R97, R114, R128). -/
def Tile.combineAt (x : Tile) (d : MDesc) (slot e : Nat) (fresh : Bool) (v : Val) (tg : Tag) : Tile :=
  let mode := d.accMode
  let i := accIx mode slot e
  let old := if fresh then freshWord mode else x.accum i
  let w := old % 2 ^ 35
  let tag := (Tag.ofNat (if fresh then 0 else old / 2 ^ 35)).or tg
  match mode with
  | 3 =>
    let (w', sat) := intAcc w (!fresh && old / 2 ^ 35 % 2 == 1) v
    x.setAccum i w' (b2n sat)
  | 2 => x.setAccum i (splitAcc d.sat w v) tag.toNat
  | 1 =>
    let l := if fresh then freshWord 1 else x.accum (i + 1024)
    let (h', l') := combine (accVal w) (accVal l) v true
    (x.setAccum i (accWord h') tag.toNat).setAccum (i + 1024) (accWord l') 0
  | _ =>
    let (h', _) := combine (accVal w) .negZero v false
    x.setAccum i (accWord h') tag.toNat

/-- Accumulators read with an upset (R124): a single-bit error is corrected; a double-bit error
raises ACC_UNCORRECTABLE and its element is left unwritten. Answers the bad elements. -/
def accEcc (t : Nat) (q : MtxStep) (ecc : List Upset) (s : State) : List Nat × State :=
  let d := q.d
  let mine := ecc.filter (fun u =>
    decide (accIx d.accMode q.slot 0 ≤ u.addr ∧
      u.addr < accIx d.accMode q.slot 0 + (if d.accMode = 1 then 2048 else 1024)))
  mine.foldl (fun (bad, s) u =>
    let e := (u.addr - accIx d.accMode q.slot 0) % 1024
    let items := mtxItems (s.tile t).cfg.plane q.desc q.slot ++ [(10, e)]
    if u.dbl then (bad ++ [e], raiseEng t .accUncorrectable items .mtx q.nest s)
    else (bad, raiseT t .accCorrected items none s)) ([], s)

/-- BLOCK_COMBINE: one row of block values enters the running words of its slot (R96, R123, R129).
The last row of a step ends its firing, or makes its drain due. `TEN_MTXSTAT.KSTEP` counts from 0 again with the first
row combined of an operation that begins fresh, and goes on with ACC_IN = 2: R130 does not say when its fresh start
falls (DESIGN CHOICE, log 104). -/
def blockCombine (t : Nat) (ecc : List Upset) (s : State) : State :=
  let x := s.tile t
  match x.mtx.rows with
  | [] => s
  | r :: rest =>
    let q := r.step
    let d := q.d
    if !s.unitRuns t .mtx || x.mtx.drainPending q then s
    else
      let fresh := q.first && (d.accIn == 0 || d.mode == 2)
      let (bad, s) := accEcc t q (if fresh then [] else ecc) s
      let s := s.onTile t (fun x =>
        let x := r.vals.zipIdx.foldl (fun x ((v, tg), j) =>
          let e := r.row * 32 + j
          if bad.contains e then x else x.combineAt d q.slot e fresh v tg) x
        let x := x.onSlots (slotCover d.mode q.slot) (fun z =>
          { z with valid := true, mode := d.accMode,
                   kstep := satTo 0xFFFF ((if fresh && r.row == 0 then 0 else z.kstep) + b2n r.fin) })
        { x with fired := true, mtx := { x.mtx with rows := rest, drains := if r.fin && q.last then x.mtx.drains ++ [q] else x.mtx.drains } })
      if r.fin && !q.last then fireDone t q.plane q.nest s else s

/-- BLOCK_COMBINE (R96). -/
def execBlockCombine (t : Nat) (ecc : List Upset) (s : State) : Host.Outcome State Fault Refusal :=
  s.atTile t (blockCombine t ecc)

/-! ## Drains (R98, R114, R121, R122, R128) -/

/-- The value an element is written from and the flags its accumulation calls for (R98, R101, R114, R128). -/
def Tile.drainVal (x : Tile) (d : MDesc) (slot e : Nat) : Val × Flags :=
  let i := accIx d.accMode slot e
  let a := x.accum i
  let w := a % 2 ^ 35
  let tag := Tag.ofNat (a / 2 ^ 35)
  match d.accMode with
  | 3 => (Val.ofInt (signedOf 35 w), { o := a / 2 ^ 35 % 2 == 1 })
  | 2 =>
    -- a NaN by rule 1 of R98 sets neither
    let nan := tag.nan || (tag.pinf && tag.ninf)
    let ov : Flags := if w / 2 ^ 32 % 2 = 1 && !nan then { o := true, x := !d.sat } else .none
    let (v, fl) := tagResult tag (fp32L.decode (w % 2 ^ 32)) .zero
    (if tag.nan || tag.pinf || tag.ninf then v else fp32L.decode (w % 2 ^ 32), fl.or ov)
  | 1 => tagResult tag (accVal w) (accVal (x.accum (i + 1024)))
  | _ => tagResult tag (accVal w) .negZero

/-- Write one element in the output format at (i, j) of the tile at T (R72, R86, R93, R121). -/
def Tile.writeOut (x : Tile) (tab : Nat → FmtTable) (g : Group) (f : Fmt) (r : Rnd) (sat : Bool) (T i j : Nat)
    (v : Val) (fl : Flags) : Tile :=
  match f with
  | .p16 =>
    let (h, l, f1) := encodePair bf16L sat v
    ((x.wrSkew 16 T i j h).wrSkew 16 (T + 2048) i j l).setFlags g (fl.or f1)
  | .p32 =>
    let (h, l, f1) := encodePair fp32L sat v
    ((x.wrSkew 32 T i j h).wrSkew 32 (T + 4096) i j l).setFlags g (fl.or f1)
  | _ =>
    let (c, f1) := encodeElem f tab r sat v
    (x.wrSkew f.bits T i j c).setFlags g (fl.or f1)

/-- The drained value as an MX element (R121): a NaN that sets invalid counts as signalling. -/
def mxDrainVal (v : Val × Flags) : Val := if v.1.isNaN then .nan v.2.i else v.1

/-- The draws of one row in ascending column order (R90, R121). -/
def Tile.rowDraws (x : Tile) (g : Group) (on : Bool) : List Rnd × Tile :=
  let (rs, st) := drawRnds on 32 (x.gen g)
  (rs, if on then x.setGen g st else x)

/-- Drain one row of the slot (R121); a recorded saturation sets overflow (R114). With MX_C an element of an
uncorrectable accumulator still enters its row's block, and only its byte is left unwritten (R124; DESIGN
CHOICE, log 103). -/
def Tile.drainRow (x : Tile) (tab : Nat → FmtTable) (q : MtxStep) (f : Fmt) (bad : List Nat) (i : Nat) : Tile :=
  let d := q.d
  let vs := (List.range 32).map (fun j => x.drainVal d q.slot (i * 32 + j))
  if d.mxc then
    let (rs, x) := x.rowDraws .mtx (d.round == 1)
    let (sc, cs, fl) := mxEncode f rs (vs.map mxDrainVal)
    let x := cs.zipIdx.foldl (fun x (c, j) =>
      if bad.contains (i * 32 + j) then x else x.wrSkew 8 q.addrC i j c) x
    ((x.wr (d.sc * 64 + q.addrC / 32 + i) [BitVec.ofNat 8 sc]).setFlags .mtx
      (fl.or { o := vs.any (fun v => v.2.o) }))
  else
    let (rs, x) := x.rowDraws .mtx (d.round == 1 && f.drawn)
    (vs.zip rs).zipIdx.foldl (fun x (((v, fl), r), j) =>
      if bad.contains (i * 32 + j) then x else x.writeOut tab .mtx f r d.sat q.addrC i j v fl) x

/-- The drain at the head of the list leaves: the slot is free and its firing has written. -/
def drainDone (t : Nat) (q : MtxStep) (s : State) : State :=
  fireDone t q.plane q.nest (s.onTile t (fun x => { x with fired := true, mtx := { x.mtx with drains := x.mtx.drains.tail } }))

/-- MMA_DRAIN (R121). -/
def mmaDrain (t : Nat) (ecc : List Upset) (s : State) : State :=
  match (s.tile t).mtx.drains with
  | [] => s
  | q :: _ =>
    let d := q.d
    match Fmt.ofCode d.fc with
    | none => s
    | some f =>
      if d.stateOut || !s.unitRuns t .mtx then s
      else
        let (ok, s) := touchAll t .mtx q.nest
          ((q.addrC, outBytes d.fc) :: (if d.mxc then [(d.sc * 64 + q.addrC / 32, 32)] else [])) s
        if !ok then s
        else
          let (bad, s) := accEcc t q ecc s
          let tab := (s.tile t).tabFor f
          drainDone t q (s.onTile t (fun x =>
            (List.range d.m).foldl (fun x i => x.drainRow tab q f bad i) x))

/-- MMA_DRAIN (R121). -/
def execMmaDrain (t : Nat) (ecc : List Upset) (s : State) : Host.Outcome State Fault Refusal :=
  s.atTile t (mmaDrain t ecc)

/-- The two words of an element's state record (R122). -/
def Tile.record (x : Tile) (d : MDesc) (slot e : Nat) : Nat × Nat :=
  let i := accIx d.accMode slot e
  let m := match d.accMode with | 3 => 1 | 2 => 2 | _ => 0
  let l := match d.accMode with
    | 1 => x.accum (i + 1024) % 2 ^ 35
    | 0 => 2 ^ 34
    | _ => 0
  (x.accum i % 2 ^ 39 + m * 2 ^ 39, l)

/-- STATE_RECORD_DRAIN (R122). -/
def stateRecordDrain (t : Nat) (ecc : List Upset) (s : State) : State :=
  match (s.tile t).mtx.drains with
  | [] => s
  | q :: _ =>
    let d := q.d
    if !d.stateOut || !s.unitRuns t .mtx then s
    else
      let (ok, s) := touchAll t .mtx q.nest [(q.addrC, 512 * d.m)] s
      if !ok then s
      else
        let (bad, s) := accEcc t q ecc s
        drainDone t q (s.onTile t (fun x =>
          (List.range (32 * d.m)).foldl (fun x e =>
            if bad.contains e then x
            else
              let (w0, w1) := x.record d q.slot e
              x.wr (q.addrC + 16 * e) (leBytes 8 w0 ++ leBytes 8 w1)) x))

/-- STATE_RECORD_DRAIN (R122). -/
def execStateRecordDrain (t : Nat) (ecc : List Upset) (s : State) : Host.Outcome State Fault Refusal :=
  s.atTile t (stateRecordDrain t ecc)

/-- A recast or restart (R120): every valid bit clears, the contents become undefined, and the
work in progress is dropped. -/
def Tile.resetMatrix (x : Tile) : Tile := { x with mtx := { epoch := x.mtx.epoch + 1 } }

end Sys2Proof.Machine
end

