-- ==== Sys2Proof/Machine/Vector.lean ====
section
/-! DEFINITION.
The vector engine, the curve tables and the reduction unit (R132 to R154). -/

namespace Sys2Proof.Machine

/-! ## Descriptors (R137, R138) -/

structure VDesc where
  op : Nat
  f1 : Nat
  f2 : Nat
  f3 : Nat
  fd : Nat
  round : Nat
  sat : Bool
  nest : Nat
  src2 : Nat
  src3 : Nat
  pred : Nat
  curve : Nat
  vlmode : Nat
  count : Nat
  redop : Nat
  mx1 : Bool
  mxd : Bool
  imm2 : Nat
  imm3 : Nat
  deriving DecidableEq, Repr

def VDesc.ofWords (w0 w1 : Word) : VDesc :=
  { op := fld w0 0 6, f1 := fld w0 6 5, f2 := fld w0 11 5, f3 := fld w0 16 5, fd := fld w0 21 5,
    round := fld w0 26 2, sat := bit w0 28, nest := fld w0 29 3, src2 := fld w0 32 2,
    src3 := fld w0 34 2, pred := fld w0 36 3, curve := fld w0 39 2, vlmode := fld w0 41 2,
    count := fld w0 43 14, redop := fld w0 57 3, mx1 := bit w0 60, mxd := bit w0 61,
    imm2 := fld w1 0 32, imm3 := fld w1 32 32 }

def VecFire.d (f : VecFire) : VDesc := VDesc.ofWords f.w0 f.w1

/-- Sources an operation reads (R139). -/
def opSrcs (op : Nat) : Nat :=
  match op with
  | 4 => 3
  | 5 => 3
  | 9 => 3
  | 10 => 1
  | 11 => 1
  | 12 => 1
  | 13 => 1
  | 15 => 0
  | _ => 2

/-- Container bits of a run of elements: a pair is one word (R72, R133). -/
def runBits (c : Nat) : Nat := if c = 4 then 32 else if c = 3 then 64 else codeBits c

/-- Bytes of L elements. -/
def runBytes (c L : Nat) : Nat := cdiv (runBits c * L) 8

/-- The sources an operation reads from the scratchpad: (k, format), k = 0 S1, 1 S2, 2 S3. -/
def VDesc.memSrcs (d : VDesc) : List (Nat × Nat) :=
  [(0, d.f1)].filter (fun _ => opSrcs d.op ≥ 1) ++
  [(1, d.f2)].filter (fun _ => opSrcs d.op ≥ 2 && d.src2 == 0) ++
  [(2, d.f3)].filter (fun _ => opSrcs d.op ≥ 3 && d.src3 == 0)

/-- Every format the operation reads or writes. -/
def VDesc.formats (d : VDesc) : List Nat :=
  ([d.f1, d.f2, d.f3].take (opSrcs d.op)) ++ [d.fd]

/-- The operand formats of R71 outside the matrix engine: every format but INT32. -/
def isOperand (c : Nat) : Bool :=
  match Fmt.ofCode c with
  | some .int32 => false
  | some _ => true
  | none => false

def Tile.codeOn (x : Tile) (c : Nat) : Bool :=
  match Fmt.ofCode c with
  | some f => x.fmtOn f
  | none => true

/-- Curve table control (R164): MODE, ENABLED, K, X0, SCALE. -/
def Tile.ctctl (x : Tile) (t : Nat) : Word := x.reg 3 (0x170 + 8 * t)
def Tile.ctrange (x : Tile) (t : Nat) : Word := x.reg 3 (0x190 + 8 * t)

/-- log₂e as the reference coefficient (R142, R153). -/
def log2eCode : Nat := 0x3FB8AA3B

/-- A finite nonzero FP32 code. -/
def codeUsable (c : Nat) : Bool := let v := fp32L.decode c; v.isFin && !v.isZero

/-- The curve table may be evaluated (R153). -/
def Tile.curveOk (x : Tile) (t : Nat) : Bool :=
  let c := x.ctctl t
  let m := fld c 0 3
  bit c 3 && decide (m ≤ 4) && (decide (m ≥ 3) || codeUsable (fld c 32 32)) &&
  (m != 0 || codeUsable (fld (x.ctrange t) 32 32))

/-- The table is in EXP2 mode with K = log₂e (R142). -/
def Tile.curveIsExp (x : Tile) (t : Nat) : Bool :=
  x.curveOk t && fld (x.ctctl t) 0 3 == 1 && fld (x.ctctl t) 32 32 == log2eCode

/-! ## Length (R143) -/

def Tile.vlenOf (x : Tile) (n : Nat) : Nat := x.vec.vlen.get n 0

/-- L of a firing by VLMODE, COUNT and the innermost index; none: reserved mode. -/
def vecLen (x : Tile) (vlmode count n inner : Nat) : Option Nat :=
  match vlmode with
  | 0 => some count
  | 1 => some (x.vlenOf n)
  | 2 => some (min count (x.vlenOf n - count * inner))
  | _ => none

/-! ## Curve evaluation (R151, R152) -/

/-- Coefficient of a segment: 0, 1 or 2 (R150). -/
def Tile.coef (x : Tile) (t s i : Nat) : Val :=
  fp32L.decode (match i with
    | 0 => fld (x.tbl 2 t (2 * s)) 0 32
    | 1 => fld (x.tbl 2 t (2 * s)) 32 32
    | _ => fld (x.tbl 2 t (2 * s + 1)) 0 32)

/-- q = RN(RN(C2·t + C1)·t + C0). -/
def Tile.segment (x : Tile) (tb s : Nat) (t : Val) : Val :=
  rnFp32 (((rnFp32 (((x.coef tb s 2).mul t).add (x.coef tb s 1))).mul t).add (x.coef tb s 0))

/-- ⌊v⌋ of a finite value. -/
def floorVal (v : Val) : Int :=
  match v with
  | .fin n m e =>
    if e ≥ 0 then (if n then -((m * 2 ^ e.toNat : Nat) : Int) else ((m * 2 ^ e.toNat : Nat) : Int))
    else
      let d := 2 ^ (-e).toNat
      if n then -((m + d - 1) / d : Nat) else ((m / d : Nat) : Int)
  | _ => 0

/-- A power of two as a value. -/
def pow2 (e : Int) : Val := .fin false 1 e

/-- Exponents beyond which every format gives the same written result. -/
def clampExp (n : Int) : Int := max (-4096) (min 4096 n)

/-- A curve evaluation: the exact result and whether invalid is set (R151, R152). Where FP32 cannot hold the offset t,
which R151 calls exact, as just below zero in EXP2 mode, the exact t is used (DESIGN CHOICE, log 130). -/
def Tile.curve (x : Tile) (tb : Nat) (v : Val) : Val × Bool :=
  let c := x.ctctl tb
  let k := fp32L.decode (fld c 32 32)
  match v, fld c 0 3 with
  | .nan s, _ => (.nan s, s)
  -- LINEAR
  | .inf n, 0 => (if n then x.segment tb 0 .zero else x.segment tb 63 (Val.ofInt 1), false)
  | .fin .., 0 =>
    let r := x.ctrange tb
    let u := rnFp32 (((rnFp32 (v.mul k)).sub (fp32L.decode (fld r 0 32))).mul (fp32L.decode (fld r 32 32)))
    if u.isNaN then (fp32L.decode (Config.freeCurve c r).toNat, false)
    else if u.lt .zero then (x.segment tb 0 .zero, false)
    else if !u.lt (Val.ofInt 64) then (x.segment tb 63 (Val.ofInt 1), false)
    else
      let s := (floorVal u).toNat
      (x.segment tb s (u.sub (Val.ofInt s)), false)
  -- EXP2
  | .inf n, 1 => (if n then .zero else .inf false, false)
  | .fin .., 1 =>
    let y := rnFp32 (v.mul k)
    match y with
    | .inf n => (if n then .zero else .inf false, false)
    | _ =>
      let n := floorVal y
      let f := (y.sub (Val.ofInt n)).scale 6
      let s := (floorVal f).toNat
      ((x.segment tb s (f.sub (Val.ofInt s))).scale (clampExp n), false)
  -- LOG2
  | .inf n, 2 => if n then (.nan false, true) else (.inf false, false)
  | .fin n m e, 2 =>
    if m = 0 then (.inf true, false)
    else if n then (.nan false, true)
    else
      let l := magLog2 m e
      let f := ((Val.fin false m (e - l)).sub (Val.ofInt 1)).scale 6
      let s := (floorVal f).toNat
      (k.mul ((Val.ofInt l).add (x.segment tb s (f.sub (Val.ofInt s)))), false)
  -- RECIP
  | .inf n, 3 => (.fin n 0 0, false)
  | .fin n m e, 3 =>
    if m = 0 then (.inf n, false)
    else
      let l := magLog2 m e
      let f := ((Val.fin false m (e - l)).sub (Val.ofInt 1)).scale 6
      let s := (floorVal f).toNat
      let q := (x.segment tb s (f.sub (Val.ofInt s))).scale (-l)
      (if n then q.negate else q, false)
  -- RSQRT
  | .inf n, _ => if n then (.nan false, true) else (.zero, false)
  | .fin n m e, _ =>
    if m = 0 then (.inf n, false)
    else if n then (.nan false, true)
    else
      let l := magLog2 m e
      let h := l / 2
      let mm := Val.fin false m (e - 2 * h)
      let (s, t) := if mm.lt (Val.ofInt 2) then
          let f := (mm.sub (Val.ofInt 1)).scale 5
          let s := (floorVal f).toNat
          (s, f.sub (Val.ofInt s))
        else
          let f := (mm.sub (Val.ofInt 2)).scale 4
          let s := (floorVal f).toNat
          (32 + s, f.sub (Val.ofInt s))
      ((x.segment tb s t).scale (-h), false)

/-! ## Results (R139, R141, R142) -/

/-- CMP predicates (R141). -/
def cmpPred (p : Nat) (a b : Val) : Bool :=
  if a.isNaN || b.isNaN then p == 1 || p == 6
  else match p with
    | 0 => a.eqv b
    | 1 => !a.eqv b
    | 2 => a.lt b
    | 3 => a.lt b || a.eqv b
    | 4 => b.lt a
    | 5 => b.lt a || a.eqv b
    | _ => false

/-- The derivative factor and whether its computation was invalid (R142). -/
def Tile.dactFactor (x : Tile) (d : VDesc) (y : Val) : Val × Bool :=
  let pos := !y.neg && !y.isZero
  let one := Val.ofInt 1
  let rn (v : Val) : Val × Bool := (rnFp32 v, v.isNaN)
  match d.pred with
  | 0 => (if pos then one else .zero, false)
  | 1 => (if pos then one else fp32L.decode d.imm2, false)
  | 2 => rn (y.sub (y.mul y))
  | 3 => rn (one.sub (y.mul y))
  | 4 => rn (one.sub (x.curve d.curve y.negate).1)
  | _ => (y, false)

/-- The exact result of one element and whether invalid is set (R139, R141, R142). -/
def Tile.vecResult (x : Tile) (d : VDesc) (s1 s2 s3 : Val) : Val × Bool :=
  let srcs := [s1, s2, s3].take (opSrcs d.op)
  let sn := srcs.any Val.isSNaN
  let anyNaN := srcs.any Val.isNaN
  let arith (r : Val) (inv : Bool) : Val × Bool := if anyNaN && !inv then (.nan false, sn) else (r, sn || inv)
  match d.op with
  | 1 => arith (s1.add s2) (s1.addInvalid s2)
  | 2 => arith (s1.sub s2) (s1.addInvalid s2.negate)
  | 3 => arith (s1.mul s2) (s1.mulInvalid s2)
  | 4 =>
    let p := s1.mul s2
    if s1.mulInvalid s2 then (.nan false, true) else arith (p.add s3) (p.addInvalid s3)
  | 5 =>
    let p := (s1.mul s2).negate
    if s1.mulInvalid s2 then (.nan false, true) else arith (p.add s3) (p.addInvalid s3)
  | 6 => vmin s1 s2
  | 7 => vmax s1 s2
  | 8 => (if cmpPred d.pred s1 s2 then Val.ofInt 1 else .zero, sn)
  | 9 =>
    let r := if s3.isNaN || !s3.isZero then s1 else s2
    (if r.isNaN then .nan false else r, sn)
  | 10 => (if s1.isNaN then .nan false else s1.abs, sn)
  | 11 => (if s1.isNaN then .nan false else s1.negate, sn)
  | 13 =>
    let (r, inv) := x.curve d.curve s1
    (if r.isNaN then .nan false else r, inv || sn)
  | 14 =>
    if anyNaN then (.nan false, sn)
    else
      let (f, inv) := x.dactFactor d s1
      if inv then (.nan false, true)
      else (let r := s2.mul f; if r.isNaN then .nan false else r, s2.mulInvalid f || f.isSNaN)
  | _ => (if s1.isNaN then .nan false else s1, sn)

/-! ## Starting a firing (R132, R133, R140, R143, R262) -/

/-- MX operand: scale byte of block b of a run at V (R140). -/
def vecScale (d : VDesc) (c V b : Nat) : Nat :=
  d.imm3 % 2 ^ 14 * 64 + V * (if codeBits c = 4 then 2 else 1) / 32 + b

/-- Fields whose value is reserved, or that only another operation may set (R137, R140, R143, R165). -/
def VDesc.reserved (d : VDesc) : Bool :=
  d.src2 == 3 || d.src3 == 3 || d.redop > 4 || d.vlmode == 3 ||
  (d.op == 8 && d.pred == 7) || (d.op == 14 && d.pred > 5) || ((d.mx1 || d.mxd) && d.op != 12)

/-- The checks of R71, R84, R88, R133, R139, R140, R142, R143 and R153 at the start of a firing of
L elements at addresses a, b, c; a SETVL reads no format and touches no element. -/
def VDesc.check (x : Tile) (d : VDesc) (L a b c : Nat) : Option Err :=
  let mxOk (f : Nat) : Bool := match Fmt.ofCode f with | some f => f.isMxElem | none => false
  let off (code V : Nat) (mx : Bool) : Bool :=
    V % (max 1 (runBits code / 8)) != 0 || (mx && V % (if codeBits code = 4 then 16 else 32) != 0)
  let n := opSrcs d.op
  let pair (f : Nat) : Bool := f == 3 || f == 4
  if d.op = 0 ∨ d.op > 15 then some .vecFormat
  else if d.op = 15 then
    (if d.reserved then some .vecFormat else if d.count > 8192 then some .vlenRange else none)
  else if d.round > 1 || !(([d.f1, d.f2, d.f3].take n).all isOperand) || (Fmt.ofCode d.fd).isNone then
    some .fmtReserved
  else if !(d.formats.all x.codeOn) then some .fmtUndefined
  else if d.reserved || (n ≥ 2 && d.src2 != 0 && d.f2 != 0) || (n ≥ 3 && d.src3 != 0 && d.f3 != 0) ||
      (d.op == 13 && pair d.f1) || (d.op == 14 && (d.src2 != 0 || pair d.f1 || pair d.f2)) ||
      ((d.mx1 || d.mxd) && (L % 32 != 0 || d.imm3 / 2 ^ 14 != 0)) ||
      (d.mx1 && !mxOk d.f1) || (d.mxd && !mxOk d.fd) ||
      d.memSrcs.any (fun (k, f) => off f (if k = 0 then a else if k = 1 then b else c) (k == 0 && d.mx1)) ||
      off d.fd c d.mxd then some .vecFormat
  else if d.op = 13 && !x.curveOk d.curve then some .curveUndefined
  else if d.op = 14 && d.pred == 4 && !x.curveIsExp d.curve then some .curveUndefined
  else if d.count > 8192 then some .vlenRange
  else none

/-- Detail of a vector error (R165): plane, engine 1, descriptor. -/
def vecItems (p i : Nat) : List (Nat × Nat) := [(2, p), (2, 1), (6, i)]

/-- Bytes of each operand of a firing (R262). -/
def VDesc.extent (d : VDesc) (L o : Nat) : Nat :=
  if d.op = 0 ∨ d.op > 14 then 0
  else
    let src := (d.memSrcs.filter (fun q => q.1 == o)).foldl (fun m q => max m (runBytes q.2 L)) 0
    if o = 2 then max src (runBytes d.fd L) else src

/-- No firing starts while another reads, nor one that reduces while a word of the last reduction is held (R149). -/
def VDesc.waits (x : Tile) (d : VDesc) : Bool := x.vec.fire.isSome || (d.redop != 0 && !x.vec.held.isEmpty)

/-- Start a firing of the operation `op` (R132): the nest's descriptor must hold it. A reserved OP
raises VEC_FORMAT whichever operation is asked for. R140 and R262 do not say which comes first where the operands leave
the scratchpad and the descriptor breaks its checks too: here NEST_BOUNDS does, over at most 8,192 elements, one of a
reserved format code taken as a byte (DESIGN CHOICE, log 129). -/
def vecStart (t n op : Nat) (s : State) : State :=
  match s.readyFire t n 1 .vec with
  | none => nestWaits t n s
  | some k =>
    let x := s.tile t
    let p := x.cfg.plane
    let i := (x.nctl p n).desc
    let w0 := x.cword p 3 (32 + 2 * i)
    let w1 := x.cword p 3 (33 + 2 * i)
    let d := VDesc.ofWords w0 w1
    let L := (vecLen x d.vlmode d.count d.nest (k.ix (x.levelAt p n 0))).getD 0
    let ext (o : Nat) := d.extent (min L 8192) o
    if d.op != op && d.op != 0 && d.op ≤ 15 then s
    else if d.waits x then s
    else match x.opTouch p n 0 (ext 0) k, x.opTouch p n 1 (ext 1) k, x.opTouch p n 2 (ext 2) k with
    | none, _, _ => nestRaise t p n .nestBounds 2 0 k s
    | _, none, _ => nestRaise t p n .nestBounds 2 1 k s
    | _, _, none => nestRaise t p n .nestBounds 2 2 k s
    | some a, some b, some c =>
      let scaleOut (mx : Bool) (code V : Nat) : Bool :=
        mx && L != 0 && decide (vecScale d code V (L / 32) > 2 ^ 20)
      if scaleOut d.mx1 d.f1 a then nestRaise t p n .nestBounds 2 0 k s
      else if scaleOut d.mxd d.fd c then nestRaise t p n .nestBounds 2 2 k s
      else match d.check x L a b c with
      | some e => raiseEng t e (if e = .fmtReserved ∨ e = .fmtUndefined then [(2, p), (2, 1)] else vecItems p i) .vec n s
      | none =>
        let f : VecFire :=
          { w0 := w0, w1 := w1, desc := i, nest := n, plane := p, addrA := a, addrB := b, addrC := c,
            len := L, s2w := none, s3w := none, nextRead := 0, groups := [], written := 0,
            mxWait := [], red := [] }
        let s := s.onTile t (fun x => { x with vec := { x.vec with fire := some f, desc := i } })
        nestFired t n k s

/-- ADD (R139). -/
def execAdd (t : Nat) (n : Fin 8) (s : State) : Host.Outcome State Fault Refusal :=
  s.atTile t (vecStart t n.val 1)

/-- SUB (R139). -/
def execSub (t : Nat) (n : Fin 8) (s : State) : Host.Outcome State Fault Refusal :=
  s.atTile t (vecStart t n.val 2)

/-- MUL (R139). -/
def execMul (t : Nat) (n : Fin 8) (s : State) : Host.Outcome State Fault Refusal :=
  s.atTile t (vecStart t n.val 3)

/-- FMA (R139). -/
def execFma (t : Nat) (n : Fin 8) (s : State) : Host.Outcome State Fault Refusal :=
  s.atTile t (vecStart t n.val 4)

/-- FNMA (R139). -/
def execFnma (t : Nat) (n : Fin 8) (s : State) : Host.Outcome State Fault Refusal :=
  s.atTile t (vecStart t n.val 5)

/-- MIN (R139). -/
def execMin (t : Nat) (n : Fin 8) (s : State) : Host.Outcome State Fault Refusal :=
  s.atTile t (vecStart t n.val 6)

/-- MAX (R139). -/
def execMax (t : Nat) (n : Fin 8) (s : State) : Host.Outcome State Fault Refusal :=
  s.atTile t (vecStart t n.val 7)

/-- CMP (R141). -/
def execCmp (t : Nat) (n : Fin 8) (s : State) : Host.Outcome State Fault Refusal :=
  s.atTile t (vecStart t n.val 8)

/-- SEL (R139). -/
def execSel (t : Nat) (n : Fin 8) (s : State) : Host.Outcome State Fault Refusal :=
  s.atTile t (vecStart t n.val 9)

/-- ABS (R139). -/
def execAbs (t : Nat) (n : Fin 8) (s : State) : Host.Outcome State Fault Refusal :=
  s.atTile t (vecStart t n.val 10)

/-- NEG (R139). -/
def execNeg (t : Nat) (n : Fin 8) (s : State) : Host.Outcome State Fault Refusal :=
  s.atTile t (vecStart t n.val 11)

/-- CVT (R139). -/
def execCvt (t : Nat) (n : Fin 8) (s : State) : Host.Outcome State Fault Refusal :=
  s.atTile t (vecStart t n.val 12)

/-- CURVE (R151). -/
def execCurve (t : Nat) (n : Fin 8) (s : State) : Host.Outcome State Fault Refusal :=
  s.atTile t (vecStart t n.val 13)

/-- DACT (R142). -/
def execDact (t : Nat) (n : Fin 8) (s : State) : Host.Outcome State Fault Refusal :=
  s.atTile t (vecStart t n.val 14)

/-- SETVL: takes the waiting scalar word and sets the length register (R144). It touches no element and emits no
reduction whatever its REDOP, which R145 and R147 do not say (DESIGN CHOICE, log 125); a nonzero REDOP waits for held
words as any other (R149). -/
def setvl (t n : Nat) (s : State) : State :=
  match s.readyFire t n 1 .vec with
  | none => nestWaits t n s
  | some k =>
    let x := s.tile t
    let p := x.cfg.plane
    let i := (x.nctl p n).desc
    let d := VDesc.ofWords (x.cword p 3 (32 + 2 * i)) (x.cword p 3 (33 + 2 * i))
    match d.check x 0 0 0 0, x.fab.vecWord with
    | some e, _ =>
      if (1 ≤ d.op ∧ d.op ≤ 14) ∨ d.waits x then s else raiseEng t e (vecItems p i) .vec n s
    | none, none => s
    | none, some w =>
      if d.op ≠ 15 ∨ d.waits x then s
      else
      let s := s.onTile t (fun x => { x with fab := { x.fab with vecWord := none }, vec := { x.vec with desc := i } })
      if w > 8192 then raiseEng t .vlenRange (vecItems p i) .vec n s
      else
        let s := s.onTile t (fun x => { x with vec := { x.vec with vlen := x.vec.vlen.put d.nest w 0 } })
        fireDone t p n (nestFired t n k s)

/-- SETVL (R144). -/
def execSetvl (t : Nat) (n : Fin 8) (s : State) : Host.Outcome State Fault Refusal :=
  s.atTile t (setvl t n.val)

/-! ## Groups (R134, R135, R145, R154) -/

/-- Elements per group (R134). -/
def VDesc.group (d : VDesc) : Nat :=
  let pair (f : Nat) : Bool := f == 3 || f == 4
  let wide (f : Nat) : Bool := f == 0 || f == 2 || f == 0x0C
  if d.formats.any pair then 16
  else if d.op == 13 || d.op == 14 || d.formats.any wide then 64
  else 128

/-- The lines of elements [lo, hi) of a run at V. -/
def runLines (c V lo hi : Nat) : List Nat :=
  let b0 := V + lo * runBits c / 8
  let b1 := V + cdiv (hi * runBits c) 8
  if b1 ≤ b0 then [] else (List.range ((b1 - 1) / 64 + 1 - b0 / 64)).map (fun i => b0 / 64 * 64 + 64 * i)

def VecFire.srcAddr (f : VecFire) (k : Nat) : Nat := if k = 0 then f.addrA else if k = 1 then f.addrB else f.addrC

/-- Lines that the next group of a firing reads: its sources and its scale bytes. -/
def VecFire.readLines (f : VecFire) : List Nat :=
  let d := f.d
  let lo := f.nextRead
  let hi := min f.len (lo + d.group)
  (d.memSrcs.flatMap (fun (k, c) => runLines c (f.srcAddr k) lo hi) ++
    (if d.mx1 then (List.range' (lo / 32) (cdiv hi 32 - lo / 32)).map (fun b => vecScale d d.f1 f.addrA b / 64 * 64) else [])).eraseDups

/-- Destination lines that a firing has not yet written. -/
def VecFire.pendLines (f : VecFire) : List Nat :=
  let d := f.d
  runLines d.fd f.addrC f.written f.len ++
    (if d.mxd then (List.range' (f.written / 32) (f.len / 32 - f.written / 32)).map (fun b => vecScale d d.fd f.addrC b / 64 * 64) else [])

/-- Element e of source k: its value and whether reading a pair was invalid (R72, R85, R140). -/
def Tile.vecElem (x : Tile) (tab : Nat → FmtTable) (f : VecFire) (k c e : Nat) : Val × Bool :=
  let a := f.srcAddr k
  let code := x.rdElem (runBits c) a e
  match Fmt.ofCode c with
  | some .p16 => pairVal (bf16L.decode (code / 2 ^ 16)) (bf16L.decode (code % 2 ^ 16))
  | some .p32 => pairVal (fp32L.decode (code / 2 ^ 32)) (fp32L.decode (code % 2 ^ 32))
  | some g =>
    if k = 0 ∧ f.d.mx1 then (mxDecode g (x.rd1 (vecScale f.d c a (e / 32))).toNat code, false)
    else (decodeElem g tab code, false)
  | none => (.zero, false)

/-- Source k of element e, from the scratchpad, an immediate or the scalar word (R137, R140). -/
def Tile.vecSrc (x : Tile) (tab : Nat → FmtTable) (f : VecFire) (k e : Nat) : Val × Bool :=
  let d := f.d
  let from_ := if k = 1 then d.src2 else if k = 2 then d.src3 else 0
  let c := if k = 0 then d.f1 else if k = 1 then d.f2 else d.f3
  if k ≥ opSrcs d.op then (.zero, false)
  else match from_ with
  | 0 => x.vecElem tab f k c e
  | 1 => (fp32L.decode (if k = 1 then d.imm2 else d.imm3), false)
  | _ => (fp32L.decode ((if k = 1 then f.s2w else f.s3w).getD 0), false)

/-- The scalar words a firing still needs, in order (R146). DESIGN CHOICE (assumption 107): a source that the
operation does not read takes none. -/
def VecFire.wordNeeded (f : VecFire) : Option Nat :=
  let d := f.d
  if opSrcs d.op ≥ 2 ∧ d.src2 = 2 ∧ f.s2w = none then some 1
  else if opSrcs d.op ≥ 3 ∧ d.src3 = 2 ∧ f.s3w = none then some 2
  else none

/-- A firing is wholly written: its reduction becomes due and the nest is told (R147). -/
def vecDone (t : Nat) (f : VecFire) (s : State) : State :=
  let d := f.d
  let s := if d.redop = 0 then s else s.onTile t (fun x =>
    { x with vec := { x.vec with red := x.vec.red ++ [{ op := d.redop, ovf := d.sat, vals := f.red }] } })
  fireDone t f.plane f.nest s

/-- Lines of one group that meet in a bank count as conflicts (R135). DESIGN CHOICE (assumption 106): k lines of
one bank count k − 1. -/
def countCollisions (t : Nat) (ls : List Nat) (s : State) : State :=
  let ilv := (s.tile t).ilv
  (List.range 16).foldl (fun s b =>
    let k := (ls.filter (fun l => bankOf ilv l == b)).length
    if k > 1 then s.stat (pgTile t 1) (0x40 + 8 * b) (k - 1) else s) s

/-- A table that serves every table-defined source format. -/
def Tile.anyTab (x : Tile) (d : VDesc) : Nat → FmtTable :=
  let T (t : Nat) : FmtTable := if d.formats.contains (0x10 + t) then x.fmtTab t else ⟨[], [], 0, 0⟩
  let t0 := T 0
  let t1 := T 1
  let t2 := T 2
  let t3 := T 3
  fun t => if t = 0 then t0 else if t = 1 then t1 else if t = 2 then t2 else t3

/-- VECTOR_GROUP_READ (R135, R145, R146, R154): the firing takes a scalar word it needs, or reads
its next group; a line that an earlier firing has yet to write waits. -/
def vectorGroupRead (t : Nat) (s : State) : State :=
  let x := s.tile t
  match x.vec.fire with
  | none => s
  | some f =>
    let put (s : State) (v : Vector) : State := s.onTile t (fun x => { x with fired := true, vec := v })
    if !s.unitRuns t .vec then s
    else match f.wordNeeded with
    | some k =>
      match x.fab.vecWord with
      | none => s
      | some w => s.onTile t (fun x =>
          { x with fab := { x.fab with vecWord := none },
                   vec := { x.vec with fire := some (if k = 1 then { f with s2w := some w } else { f with s3w := some w }) } })
    | none =>
      if f.len = 0 then vecDone t f (put s { x.vec with fire := none })
      else
        let d := f.d
        let lo := f.nextRead
        let hi := min f.len (lo + d.group)
        let ls := f.readLines
        let dst := runLines d.fd f.addrC lo hi
        if x.vec.tail.any (fun g => g.pendLines.any (fun l => ls.contains l || dst.contains l)) then s
        else match ls.find? (fun l => !x.linesOn l 64) with
        | some l => raiseEng t .bankOff [(20, l)] .vec f.nest s
        | none =>
          let tab := x.anyTab d
          let es := (List.range' lo (hi - lo)).map (fun e =>
            let a := x.vecSrc tab f 0 e
            let b := x.vecSrc tab f 1 e
            let c := x.vecSrc tab f 2 e
            ((e, a.1, b.1, c.1), a.2 || b.2 || c.2))
          let f' := { f with nextRead := hi,
                             groups := f.groups ++ [{ elems := es.map Prod.fst, inv := es.map Prod.snd }] }
          countCollisions t ls (put s (if hi ≥ f.len then { x.vec with fire := none, tail := x.vec.tail ++ [f'] }
            else { x.vec with fire := some f' }))

/-- VECTOR_GROUP_READ (R154). -/
def execVectorGroupRead (t : Nat) (s : State) : Host.Outcome State Fault Refusal :=
  s.atTile t (vectorGroupRead t)

/-- Generator and flag group of an operation (R146). -/
def VDesc.groups (d : VDesc) : Group × Group :=
  if d.op = 12 then (.cnv, if d.f1 ≥ 0x10 || d.fd ≥ 0x10 then .cnv else .vec) else (.vec, .vec)

/-- Write one element of a run and answer its value as written (R86, R93, R147). -/
def Tile.writeRun (x : Tile) (tab : Nat → FmtTable) (g : Group) (f : Fmt) (r : Rnd) (sat : Bool) (V e : Nat)
    (v : Val) (inv : Bool) : Tile × Val :=
  match f with
  | .p16 =>
    let (h, l, fl) := encodePair bf16L sat v
    ((x.wrElem 32 V e (h * 2 ^ 16 + l)).setFlags g (fl.or { i := inv }), (bf16L.decode h).add (bf16L.decode l))
  | .p32 =>
    let (h, l, fl) := encodePair fp32L sat v
    ((x.wrElem 64 V e (h * 2 ^ 32 + l)).setFlags g (fl.or { i := inv }), (fp32L.decode h).add (fp32L.decode l))
  | _ =>
    let (c, fl) := encodeElem f tab r sat v
    ((x.wrElem f.bits V e c).setFlags g (fl.or { i := inv }), decodeElem f tab c)

/-- Write a completed MX block (R80, R154). -/
def Tile.writeBlock (x : Tile) (d : VDesc) (f : Fmt) (V b : Nat) (vs : List Val) : Tile × List Val :=
  let (gg, fg) := d.groups
  let (rs, st) := drawRnds (d.round == 1) vs.length (x.gen gg)
  let x := if d.round = 1 then x.setGen gg st else x
  let (sc, cs, fl) := mxEncode f rs vs
  let x := cs.zipIdx.foldl (fun x (c, j) => x.wrElem f.bits V (32 * b + j) c) x
  let x := x.wr (vecScale d d.fd V b) [BitVec.ofNat 8 sc]
  (x.setFlags fg fl, cs.map (mxDecode f sc))

/-- Write a group's results (R141, R145, R146, R154). -/
def Tile.writeGroup (x : Tile) (f : VecFire) (fd : Fmt) (g : VecGroup) : Tile × VecFire :=
  let d := f.d
  let (gg, fg) := d.groups
  let tab := x.anyTab d
  let x0 := x
  (g.elems.zip g.inv).foldl (fun (x, f) ((e, a, b, c), pinv) =>
    let (v, inv) := x0.vecResult d a b c
    let inv := inv || pinv
    if d.mxd then
      let x := x.setFlags fg { i := inv }
      let w := f.mxWait ++ [v]
      if w.length = 32 then
        let (x, vs) := x.writeBlock d fd f.addrC (e / 32) w
        (x, { f with mxWait := [], red := f.red ++ vs, written := e + 1 })
      else (x, { f with mxWait := w })
    else
      let on := d.round == 1 && fd.drawn
      let (rs, st) := drawRnds on 1 (x.gen gg)
      let x := if on then x.setGen gg st else x
      let (x, w) := x.writeRun tab fg fd (rs.headD .rne) d.sat f.addrC e v inv
      (x, { f with red := f.red ++ [w], written := e + 1 })) (x, f)

/-- Lines that are written once elements up to hi have their results: whole blocks and their scale bytes
for an MX destination (R154). -/
def VecFire.writeLines (f : VecFire) (hi : Nat) : List Nat :=
  let d := f.d
  if d.mxd then
    runLines d.fd f.addrC f.written (hi / 32 * 32) ++
      (List.range' (f.written / 32) (hi / 32 - f.written / 32)).map (fun b => vecScale d d.fd f.addrC b / 64 * 64)
  else runLines d.fd f.addrC f.written hi

/-- VECTOR_GROUP_WRITE (R154): the oldest group read and not written; the last one ends the firing. -/
def vectorGroupWrite (t : Nat) (s : State) : State :=
  let x := s.tile t
  let pick : Option (VecFire × Bool) := match x.vec.tail with
    | f :: _ => some (f, true)
    | [] => x.vec.fire.map (fun f => (f, false))
  match pick with
  | none => s
  | some (f, inTail) =>
    match f.groups, Fmt.ofCode f.d.fd with
    | g :: gs, some fd =>
      let hi := (g.elems.map (·.1)).foldl max 0 + 1
      let ls := f.writeLines hi
      if !s.unitRuns t .vec then s
      else match ls.find? (fun l => !x.linesOn l 64) with
      | some l => raiseEng t .bankOff [(20, l)] .vec f.nest s
      | none =>
        let (x, f) := x.writeGroup { f with groups := gs } fd g
        if f.written ≥ f.len then
          vecDone t f (s.setTile t { x with fired := true, vec := { x.vec with tail := x.vec.tail.tail } })
        else
          s.setTile t { x with fired := true, vec := if inTail then { x.vec with tail := f :: x.vec.tail.tail }
            else { x.vec with fire := some f } }
    | _, _ => s

/-- VECTOR_GROUP_WRITE (R154). -/
def execVectorGroupWrite (t : Nat) (s : State) : Host.Outcome State Fault Refusal :=
  s.atTile t (vectorGroupWrite t)

/-! ## Reduction unit (R147 to R149) -/

/-- The tag of one element of a canonical sum (R148). -/
def Tag.ofElem (v : Val) : Tag :=
  match v with
  | .nan s => { nan := true, inv := s }
  | .inf n => { pinf := !n, ninf := n }
  | .fin .. => {}

/-- Blocks of 32 elements. -/
def blocks32 : Nat → List Val → List (List Val)
  | 0, _ => []
  | n + 1, vs => if vs.isEmpty then [] else vs.take 32 :: blocks32 n (vs.drop 32)

/-- The canonical sum before its write (R148): h and the tag. -/
def canonSum (vs : List Val) : Val × Tag :=
  let (h, _) := (blocks32 (vs.length + 1) vs).foldl
    (fun (h, l) b => combine h l (exactSum b) false) (Val.negZero, Val.negZero)
  (h, vs.foldl (fun t v => t.or (Tag.ofElem v)) {})

/-- The canonical sum written as FP32 (R98, R148). -/
def sumCode (sat : Bool) (vs : List Val) : Nat × Flags :=
  let (h, tg) := canonSum vs
  let (v, f1) := tagResult tg h .negZero
  let (c, f2) := fp32L.encode .rne sat v
  (c, f1.or f2)

/-- −0 counts as below +0 (R147). -/
def redLt (a b : Val) : Bool := a.lt b || (a.isNegZero && b.isZero && !b.neg)

/-- Index of the maximum, or of the first NaN (R147). -/
def argmaxIx (vs : List Val) : Nat :=
  match vs.findIdx? Val.isNaN with
  | some i => i
  | none =>
    let top := vs.foldl (fun m v => if redLt m v then v else m) (vs.headD .zero)
    (vs.findIdx? (fun v => !redLt v top)).getD 0

/-- The words a reduction emits and its flags (R147); a signalling NaN among the values is invalid (R93, R94). -/
def redWords (r : RedPending) : List Nat × Flags :=
  let enc (v : Val) := fp32L.encode .rne r.ovf v
  let sig : Flags := { i := r.vals.any Val.isSNaN }
  let fold (f : Val → Val → Val × Bool) : Val :=
    match r.vals with
    | [] => .zero
    | v :: vs => vs.foldl (fun a b => (f a b).1) (if v.isNaN then .nan false else v)
  match r.op with
  | 1 => let (c, fl) := sumCode r.ovf r.vals; ([c], fl)
  | 2 => let (c, fl) := enc (if r.vals.isEmpty then .inf true else fold vmax); ([c], fl.or sig)
  | 3 => let (c, fl) := enc (if r.vals.isEmpty then .inf false else fold vmin); ([c], fl.or sig)
  | _ =>
    if r.vals.isEmpty then ([(enc (.inf true)).1, 0xFFFFFFFF], .none)
    else let (c, fl) := enc (fold vmax); ([c, argmaxIx r.vals], fl.or sig)

/-- Held words go to scalar input 4 while it has room (R149). -/
def Tile.flushHeld (x : Tile) : Tile :=
  x.vec.held.foldl (fun x w =>
    if x.portRoom (portNo .sca 4) && x.vec.held.head? == some w then
      { x.putScalar 4 w with vec := { x.vec with held := x.vec.held.tail } }
    else x) x

/-- The reduction at the head of the list, of kind `op`, emits its words (R147, R149). -/
def reduce (t op : Nat) (s : State) : State :=
  let x := s.tile t
  match x.vec.red with
  | [] => s.onTile t Tile.flushHeld
  | r :: rest =>
    if r.op != op || !s.unitRuns t .vec then s
    else s.onTile t (fun x =>
      let (ws, fl) := redWords r
      ({ x with vec := { x.vec with red := rest, held := x.vec.held ++ ws } }.setFlags .vec fl).flushHeld)

/-- SUM (R148). -/
def execSum (t : Nat) (s : State) : Host.Outcome State Fault Refusal := s.atTile t (reduce t 1)

/-- REDOP_MAX (R147). -/
def execRedopMax (t : Nat) (s : State) : Host.Outcome State Fault Refusal := s.atTile t (reduce t 2)

/-- REDOP_MIN (R147). -/
def execRedopMin (t : Nat) (s : State) : Host.Outcome State Fault Refusal := s.atTile t (reduce t 3)

/-- ARGMAX (R147). -/
def execArgmax (t : Nat) (s : State) : Host.Outcome State Fault Refusal := s.atTile t (reduce t 4)

/-- The vector engine after a recast or restart (R144): idle, every length register 0. -/
def Tile.resetVector (x : Tile) : Tile := { x with vec := {} }

end Sys2Proof.Machine
end

