-- ==== Sys2Proof/Machine/Row.lean ====
section
/-! DEFINITION.
The row engine (R155 to R163): normalisation and soft-maximum of a row, forward and backward, and
the side memory. -/

namespace Sys2Proof.Machine

structure RDesc where
  op : Nat
  fx : Nat
  fdy : Nat
  fd : Nat
  round : Nat
  sat : Bool
  nest : Nat
  vlmode : Nat
  count : Nat
  curve : Nat
  side : Nat
  sideLvl : Nat
  gamma : Bool
  beta : Bool
  xhat : Bool
  eps : Nat
  aff : Nat
  xh : Nat
  deriving DecidableEq, Repr

def RDesc.ofWords (w0 w1 : Word) : RDesc :=
  { op := fld w0 0 4, fx := fld w0 4 5, fdy := fld w0 9 5, fd := fld w0 14 5, round := fld w0 19 2,
    sat := bit w0 21, nest := fld w0 22 3, vlmode := fld w0 25 2, count := fld w0 27 14,
    curve := fld w0 41 2, side := fld w0 43 11, sideLvl := fld w0 54 3, gamma := bit w0 57,
    beta := bit w0 58, xhat := bit w0 59, eps := fld w1 0 32, aff := fld w1 32 14, xh := fld w1 46 14 }

/-- A backward operation (R156). -/
def RDesc.bwd (d : RDesc) : Bool := d.op ≥ 4

/-- KIND of the side memory entry (R158). -/
def RDesc.kind (d : RDesc) : Nat := (d.op - 1) % 3 + 1

/-- The checks of R71, R84, R88, R143, R153, R156 and R157, in order. -/
def RDesc.check (x : Tile) (d : RDesc) : Option Err :=
  let pair (f : Nat) : Bool := f == 3 || f == 4
  let e := fp32L.decode d.eps
  let soft := d.kind == 3
  let operand (f : Nat) : Bool := isOperand f && f != 3
  if !operand d.fx || !operand d.fdy || (Fmt.ofCode d.fd).isNone || d.round > 1 then some .fmtReserved
  else if !x.codeOn d.fx || !x.codeOn d.fd || (d.bwd && !x.codeOn d.fdy) then some .fmtUndefined
  else if d.op = 0 || d.op > 6 || pair d.fx || pair d.fdy || pair d.fd ||
      (!soft && !(e.isFin && !e.isZero && !e.neg)) ||
      (soft && !(bit (x.ctctl d.curve) 3 && fld (x.ctctl d.curve) 0 3 == 1)) then some .rowFormat
  else if soft && !x.curveOk d.curve then some .curveUndefined
  else if d.vlmode == 3 then some .vecFormat
  else if d.count > 8192 then some .vlenRange
  else none

/-! ## Canonical sums and roots (R148, R156) -/

/-- S() over exact products with their tags, as FP32 (R148, R156): the value and whether a product was invalid. A sum
beyond FP32 gives the IEEE infinity whatever the descriptor's OVF, which R156 does not say (DESIGN CHOICE, log 128). -/
def rowSum (ps : List (Val × Tag)) : Val × Bool :=
  let (h, _) := (blocks32 (ps.length + 1) (ps.map Prod.fst)).foldl
    (fun (h, l) b => combine h l (exactSum b) false) (Val.negZero, Val.negZero)
  let tg := ps.foldl (fun t p => t.or p.2) {}
  let (v, fl) := tagResult tg h .negZero
  (rnFp32 v, fl.i)

/-- Elements as terms of S(). -/
def asTerms (vs : List Val) : List (Val × Tag) := vs.map (fun v => (v, Tag.ofElem v))

/-- Products as terms of S(). -/
def prodTerms (as bs : List Val) : List (Val × Tag) :=
  List.zipWith (fun a b => (a.mul b, if a.isNaN || b.isNaN || a.isInf || b.isInf then Tag.ofProduct a b else {})) as bs

/-- RN(v / n) (R156). -/
def divN (v : Val) (n : Nat) : Val :=
  match v with
  | .fin s m e => if m = 0 then v else let (q, k) := divMag 32 m e n 0; rnFp32 (.fin s q k)
  | w => w

/-- RN(1/√v). -/
def rsqrtVal (v : Val) : Val :=
  match v with
  | .fin n m e =>
    if m = 0 then .inf n
    else if n then .nan false
    else let (q, k) := rsqrtMag 32 m e; rnFp32 (.fin false q k)
  | .inf n => if n then .nan false else .zero
  | w => w

/-- RN(1/v); 1/0 is the infinity of the zero's sign. -/
def recipVal (v : Val) : Val :=
  match v with
  | .fin n m e => if m = 0 then .inf n else let (q, k) := divMag 32 1 0 m e; rnFp32 (.fin n q k)
  | .inf n => .fin n 0 0
  | w => w

/-! ## A row (R156, R161) -/

/-- What a row operation produces: outputs with their invalid flags, the record, and x̂. -/
structure RowOut where
  ys : List (Val × Bool)
  s0 : Nat
  s1 : Nat
  xhat : List Val
  deriving DecidableEq, Repr

/-- FP32 code of an FP32 value. -/
def fpCode (v : Val) : Nat := (fp32L.encode .rne false v).1

/-- A result computed from values of which none is a NaN: a NaN has come from an invalid operation. -/
def noted (v : Val) : Val × Bool := (v, v.isNaN)

/-- Outputs of a row whose every element is dNaN (R161). -/
def nanRow (n : Nat) (inv : Bool) : RowOut :=
  ⟨List.replicate n (.nan false, inv), 0x7FC00000, 0x7FC00000, List.replicate n (.nan false)⟩

/-- eᵢ of the soft-maximum: +0 for −Inf, else the curve at RN(x − m) as FP32 (R156, R161). -/
def Tile.softE (x : Tile) (d : RDesc) (m v : Val) : Val :=
  if v = .inf true then .zero else rnFp32 (x.curve d.curve (rnFp32 (v.sub m))).1

/-- x̂ of each element (R156). -/
def xhats (d : RDesc) (mu r : Val) (xs : List Val) : List Val :=
  xs.map (fun v => rnFp32 ((if d.kind = 1 then rnFp32 (v.sub mu) else v).mul r))

/-- Forward LN and RMS (R156). -/
def normFwd (d : RDesc) (xs gs bs : List Val) : RowOut :=
  let n := xs.length
  let eps := fp32L.decode d.eps
  if n = 0 then ⟨[], if d.kind = 1 then (Config.freeStat d.op 0).toNat else 0, (Config.freeStat d.op 1).toNat, []⟩
  else
    let mu := if d.kind = 1 then divN (rowSum (asTerms xs)).1 n else .zero
    let ds := if d.kind = 1 then xs.map (fun v => rnFp32 (v.sub mu)) else xs
    let v := divN (rowSum (prodTerms ds ds)).1 n
    let r := rsqrtVal (v.add eps)
    let xh := xhats d mu r xs
    ⟨List.zipWith (fun h (g, b) => noted ((h.mul g).add b)) xh (gs.zip bs), fpCode mu, fpCode r, xh⟩

/-- Forward soft-maximum (R156, R161). -/
def Tile.softFwd (x : Tile) (d : RDesc) (xs : List Val) : RowOut :=
  if xs.all (· == .inf true) then ⟨xs.map (fun _ => (.zero, false)), 0xFF800000, 0, []⟩
  else
    let m := (xs.drop 1).foldl (fun a b => (vmax a b).1) (xs.headD .zero)
    let es := xs.map (x.softE d m)
    let w := recipVal (rowSum (asTerms es)).1
    ⟨List.zipWith (fun v e => if v = .inf true then (.zero, false) else noted (e.mul w)) xs es, fpCode m, fpCode w, []⟩

/-- Backward LN and RMS (R156). -/
def normBwd (d : RDesc) (s0 s1 : Val) (xs dys gs : List Val) : RowOut :=
  let n := xs.length
  let xh := xhats d s0 s1 xs
  let g := List.zipWith (fun a b => rnFp32 (a.mul b)) dys gs
  let a := if d.kind = 1 then divN (rowSum (asTerms g)).1 n else .zero
  let b := divN (rowSum (prodTerms g xh)).1 n
  let out (h g : Val) : Val × Bool :=
    let base := if d.kind = 1 then g.sub a else g
    noted (s1.mul (rnFp32 (base.sub (h.mul b))))
  ⟨List.zipWith out xh g, 0, 0, xh⟩

/-- Backward soft-maximum (R156, R161). -/
def Tile.softBwd (x : Tile) (d : RDesc) (s0 s1 : Val) (xs dys : List Val) : RowOut :=
  if xs.all (· == .inf true) then ⟨xs.map (fun _ => (.zero, false)), 0, 0, []⟩
  else
    let yh := xs.map (fun v => if v = .inf true then .zero else rnFp32 ((x.softE d s0 v).mul s1))
    let c := (rowSum (prodTerms dys yh)).1
    let out (v : Val) (y dy : Val) : Val × Bool :=
      if v = .inf true ∧ dy.isFin then (.zero, false) else noted (y.mul (rnFp32 (dy.sub c)))
    ⟨List.zipWith (fun v (y, dy) => out v y dy) xs (yh.zip dys), 0, 0, []⟩

/-- A row operation with the special values of R161. -/
def Tile.rowOut (x : Tile) (d : RDesc) (s0 s1 : Val) (xs dys gs bs : List Val) : RowOut :=
  let all := xs ++ (if d.bwd then dys else []) ++ gs ++ bs
  let n := xs.length
  if all.any Val.isNaN then nanRow n (all.any Val.isSNaN)
  else if d.kind ≠ 3 ∧ all.any Val.isInf then nanRow n true
  else if d.kind = 3 ∧ xs.any (· == .inf false) then nanRow n true
  else match d.kind, d.bwd with
    | 3, false => x.softFwd d xs
    | 3, true => x.softBwd d s0 s1 xs dys
    | _, false => normFwd d xs gs bs
    | _, true => normBwd d s0 s1 xs dys gs

/-! ## Firing (R155, R158, R159, R162) -/

/-- Detail of a row error (R165): plane, engine 2, descriptor. -/
def rowItems (p i : Nat) : List (Nat × Nat) := [(2, p), (2, 2), (4, i)]

def Tile.sideEntry (x : Tile) (i : Nat) : SideEntry := x.row.side.get i {}

/-- n FP32 values from byte offset a. -/
def Tile.fp32Run (x : Tile) (a n : Nat) : List Val := (List.range n).map (fun i => fp32L.decode (x.rdN (a + 4 * i) 4))

/-- n elements of a format from byte offset a. -/
def Tile.elemRun (x : Tile) (c a n : Nat) : List Val :=
  match Fmt.ofCode c with
  | some f => let tab := x.tabFor f; (List.range n).map (fun i => decodeElem f tab (x.rdElem f.bits a i))
  | none => []

/-- The regions of a row firing: inputs, γ, β, output, x̂. -/
def RDesc.regions (d : RDesc) (n a b c : Nat) : List (Nat × Nat) :=
  [(a, runBytes d.fx n)] ++ (if d.bwd then [(b, runBytes d.fdy n)] else []) ++
  (if d.kind ≠ 3 ∧ d.gamma then [(d.aff * 64, 4 * n)] else []) ++
  (if d.kind ≠ 3 ∧ d.beta ∧ !d.bwd then [(d.aff * 64 + (if d.gamma then 4 * n else 0), 4 * n)] else []) ++
  [(c, runBytes d.fd n)] ++ (if d.kind ≠ 3 ∧ d.xhat then [(d.xh * 64, 4 * n)] else [])

/-- γ and β of a firing; 1 and +0 where they are not applied (R155, R156). -/
def Tile.affine (x : Tile) (d : RDesc) (n : Nat) : List Val × List Val :=
  (if d.kind ≠ 3 ∧ d.gamma then x.fp32Run (d.aff * 64) n else List.replicate n (Val.ofInt 1),
   if d.kind ≠ 3 ∧ d.beta ∧ !d.bwd then x.fp32Run (d.aff * 64 + (if d.gamma then 4 * n else 0)) n
   else List.replicate n .zero)

/-- Write the outputs of a row (R161, R162): one draw for each element when ROUND = 1. -/
def Tile.rowWrite (x : Tile) (d : RDesc) (f : Fmt) (c : Nat) (ys : List (Val × Bool)) : Tile :=
  let tab := x.tabFor f
  let (rs, st) := drawRnds (d.round == 1) ys.length (x.gen .row)
  let x := if d.round = 1 then x.setGen .row st else x
  (ys.zip rs).zipIdx.foldl (fun x (((v, inv), r), e) => (x.writeRun tab .row f r d.sat c e v inv).1) x

/-- The record's errors at a backward read (R159). Answers whether it may be used. -/
def sideEcc (t i ent n : Nat) (p : Nat) (ecc : List Upset) (s : State) : Bool × State :=
  let mine := ecc.filter (fun u => u.addr == ent)
  let s := if mine.any (fun u => !u.dbl) then raiseT t .sideCorrected (rowItems p i) none s else s
  if mine.any (·.dbl) then (false, raiseEng t .sideUncorrectable (rowItems p i) .row n s) else (true, s)

/-- A row firing of operation `op` (R155 to R163). A reserved ROWOP raises ROW_FORMAT whichever
operation is asked for. -/
def rowFire (t n op : Nat) (ecc : List Upset) (s : State) : State :=
  match s.readyFire t n 2 .row with
  | none => nestWaits t n s
  | some k =>
    let x := s.tile t
    let p := x.cfg.plane
    let i := (x.nctl p n).desc % 16
    let d := RDesc.ofWords (x.cword p 3 (160 + 2 * i)) (x.cword p 3 (161 + 2 * i))
    let N := (vecLen x d.vlmode d.count d.nest (k.ix (x.levelAt p n 0))).getD 0
    let L := min N 8192
    let ent := d.side + k.ix d.sideLvl
    if d.op != op && d.op != 0 && d.op ≤ 6 then s
    else match x.opTouch p n 0 (runBytes d.fx L) k, x.opTouch p n 1 (if d.bwd then runBytes d.fdy L else 0) k,
        x.opTouch p n 2 (runBytes d.fd L) k with
    | none, _, _ => nestRaise t p n .nestBounds 2 0 k s
    | _, none, _ => nestRaise t p n .nestBounds 2 1 k s
    | _, _, none => nestRaise t p n .nestBounds 2 2 k s
    | some a, some b, some c =>
      match d.check x, Fmt.ofCode d.fd with
      | some e, _ => raiseEng t e (if e = .fmtReserved ∨ e = .fmtUndefined then [(2, p), (2, 2)] else rowItems p i) .row n s
      | none, none => s
      | none, some fd =>
        if ent > 2047 then raiseEng t .rowSide (rowItems p i) .row n s
        else
          let s := s.onTile t (fun x => { x with row := { x.row with desc := i, entry := ent } })
          let (ok, s) := if d.bwd then sideEcc t i ent n p ecc s else (true, s)
          let r := x.sideEntry ent
          if !ok then s
          else if d.bwd && !(r.valid && r.kind == d.kind && r.n == N) then
            raiseEng t .rowStats (rowItems p i) .row n s
          else
            let (ok, s) := touchAll t .row n (d.regions N a b c) s
            if !ok then s
            else
              let (gs, bs) := x.affine d N
              let o := x.rowOut d (fp32L.decode (fld r.data 0 32)) (fp32L.decode (fld r.data 32 32))
                (x.elemRun d.fx a N) (if d.bwd then x.elemRun d.fdy b N else []) gs bs
              let s := s.onTile t (fun x =>
                let x := x.rowWrite d fd c o.ys
                let x := if d.kind ≠ 3 ∧ d.xhat then
                    o.xhat.zipIdx.foldl (fun x (v, e) => x.wrElem 32 (d.xh * 64) e (fpCode v)) x else x
                if d.bwd then x
                else
                  let en : SideEntry := { data := packW [(32, o.s0), (32, o.s1)], valid := true, kind := d.kind, n := N }
                  { x with row := { x.row with side := x.row.side.put ent en {} } })
              fireDone t p n (nestFired t n k s)

/-- LN_FWD (R156). -/
def execLnFwd (t : Nat) (n : Fin 8) (s : State) : Host.Outcome State Fault Refusal :=
  s.atTile t (rowFire t n.val 1 [])

/-- RMS_FWD (R156). -/
def execRmsFwd (t : Nat) (n : Fin 8) (s : State) : Host.Outcome State Fault Refusal :=
  s.atTile t (rowFire t n.val 2 [])

/-- SMAX_FWD (R156). -/
def execSmaxFwd (t : Nat) (n : Fin 8) (s : State) : Host.Outcome State Fault Refusal :=
  s.atTile t (rowFire t n.val 3 [])

/-- LN_BWD (R156, R159). -/
def execLnBwd (t : Nat) (n : Fin 8) (ecc : List Upset) (s : State) : Host.Outcome State Fault Refusal :=
  s.atTile t (rowFire t n.val 4 ecc)

/-- RMS_BWD (R156, R159). -/
def execRmsBwd (t : Nat) (n : Fin 8) (ecc : List Upset) (s : State) : Host.Outcome State Fault Refusal :=
  s.atTile t (rowFire t n.val 5 ecc)

/-- SMAX_BWD (R156, R159). -/
def execSmaxBwd (t : Nat) (n : Fin 8) (ecc : List Upset) (s : State) : Host.Outcome State Fault Refusal :=
  s.atTile t (rowFire t n.val 6 ecc)

/-- Side memory after a recast or restart (R159): every VALID bit clear. -/
def Tile.resetRow (x : Tile) : Tile :=
  { x with row := { x.row with side := x.row.side.map (fun (i, e) => (i, { e with valid := false })) } }

end Sys2Proof.Machine
end

