-- ==== Sys2Proof/Machine/Fabric.lean ====
section
/-! DEFINITION.
The static fabric (R166 to R192, R299, R303, R316 to R324): switch moves, link crossings, landing and
launch ports, request entry, delay queues and progress watches. -/

namespace Sys2Proof.Machine

/-! ## Routes (R171, R174, R175) -/

def Tile.route (x : Tile) (net : Net) : Word :=
  x.cword x.cfg.plane 0 (match net with | .vec => 0 | .sca => 1 | .ctl => 2)

/-- Source of output o; 15: unused. -/
def srcOf (w : Word) (o : Nat) : Nat := fld w (4 * o) 4

/-- Outputs that name an input (R172). -/
def Tile.outsOf (x : Tile) (net : Net) (input : Nat) : List Nat :=
  (List.range (netOuts net)).filter (fun o => srcOf (x.route net) o == input)

def Tile.cbind (x : Tile) (d : Nat) : Bool := bit (x.route .ctl) (32 + d)
def Tile.markIn (x : Tile) (d : Nat) : Bool := bit (x.route .ctl) (36 + d)
/-- The tile is an origin: markers are injected locally. -/
def Tile.origin (x : Tile) : Bool := bit (x.route .ctl) 40
def Tile.markOut (x : Tile) (d : Nat) : Bool := bit (x.route .ctl) (41 + d)

/-! ## Links (R170, R173, R190, R299, R303) -/

/-- The direction from the far end back: N↔S, E↔W. -/
def opp (d : Nat) : Nat := (d + 2) % 4

def Tile.sameOwner (x y : Tile) : Bool := x.cfg.owned && y.cfg.owned && x.cfg.ctx == y.cfg.ctx

/-- The receiving tile has exchanged and the sending one has not: its token crosses and is dropped there (R299). -/
def Tile.sendsOld (x y : Tile) : Bool := x.sameOwner y && x.cfg.pour == .recasting && y.cfg.pour != .recasting

/-- A link output d can take one more token: the far port has room, the far tile has the same LIVE_SET bit or has
exchanged ahead of this one, no fence stands between them, and the far tile is not at rest after a flush: what this one
still holds then, its own flush discards (R205, R299, R303; DEDUCED, log 133). -/
def State.linkRoom (s : State) (t d : Nat) (net : Net) : Bool :=
  match s.neighbour t d with
  | none => false
  | some u =>
    let x := s.tile t
    let y := s.tile u
    y.clk.pstate != .off && !y.cfg.flushed && y.portRoom (portNo net (opp d)) &&
    (x.cfg.liveSet == y.cfg.liveSet || x.sendsOld y) && (x.sameOwner y || !(x.cfg.fence || y.cfg.fence))

/-- The crossing bound of R190 in the receiving tile's cycles, into tile t from direction d. R190 gives 3 for a link
past one bypassed column and nothing for one past two, as a map of R66 without column 15 may have: it takes 3 too
(DESIGN CHOICE, log 126). -/
def State.crossBound (s : State) (t d : Nat) : Nat :=
  match s.neighbour t d with
  | none => 0
  | some u =>
    if tidDie u ≠ tidDie t then 8
    else if tidRow u ≠ tidRow t then 2
    else if (tidCol u < 8) != (tidCol t < 8) then 3
    else
      let a := s.physCol (tidDie t) (tidCol t)
      let b := s.physCol (tidDie u) (tidCol u)
      if max a b - min a b > 1 then 3 else 2

/-- Put a token on link output d: it starts its crossing (R173), with its place in the order of the
link's bound traffic (R170). -/
def sendLink (t d : Nat) (net : Net) (ordered : Bool) (k : Token) (s : State) : State :=
  match s.neighbour t d with
  | none => s
  | some u =>
    let x := s.tile t
    let o := x.fab.linkOrd.get d 0 + 1
    let s := if ordered then s.onTile t (fun x => { x with fab := { x.fab with linkOrd := x.fab.linkOrd.put d o 0 } }) else s
    let k := { k with set := x.cfg.liveSet, ord := if ordered then o else 0, bound := ordered }
    s.onTile u (fun y =>
      let q := y.port (portNo net (opp d))
      y.setPort (portNo net (opp d)) { q with flight := q.flight ++ [k] })

/-! ## What an output accepts (R173, R180) -/

structure LandDesc where
  base : Nat
  size : Nat
  cnt : Nat
  lcnt : Nat
  lcntEn : Bool
  en : Bool
  deriving DecidableEq, Repr

def Tile.landDesc (x : Tile) (l : Nat) : LandDesc :=
  let w := x.cword x.cfg.plane 0 (8 + l)
  ⟨fld w 0 14, fld w 14 14, fld w 28 4, fld w 32 4, bit w 36, bit w 37⟩

structure LaunchDesc where
  hq : Nat
  src : Nat
  head : Bool
  last : Bool
  en : Bool
  deriving DecidableEq, Repr

def Tile.launchDesc (x : Tile) (l : Nat) : LaunchDesc :=
  let w := x.cword x.cfg.plane 0 (12 + l)
  ⟨fld w 0 2, fld w 2 2, bit w 4, bit w 5, bit w 6⟩

def Tile.landing (x : Tile) (l : Nat) : Landing := x.fab.landings.get l {}
def Tile.setLanding (x : Tile) (l : Nat) (v : Landing) : Tile :=
  { x with fab := { x.fab with landings := x.fab.landings.put l v {} } }
def Tile.launch (x : Tile) (l : Nat) : Launch := x.fab.launches.get l {}
def Tile.setLaunch (x : Tile) (l : Nat) (v : Launch) : Tile :=
  { x with fab := { x.fab with launches := x.fab.launches.put l v {} } }

/-- Budget field and SEQ, USER of a head payload (R167). -/
def Token.budget (k : Token) : Nat := k.data.toNat % 2 ^ 20
def Token.seq (k : Token) : Nat := k.data.toNat / 2 ^ 32 % 2 ^ 32
def Token.user (k : Token) : BitVec 448 := BitVec.ofNat 448 (k.data.toNat / 2 ^ 64)

/-- A head payload (R167). -/
def headData (budget seq : Nat) (user : BitVec 448) : BitVec 512 :=
  BitVec.ofNat 512 (budget % 2 ^ 20 + seq % 2 ^ 32 * 2 ^ 32 + user.toNat * 2 ^ 64)

/-- What a landing port answers to a token (R180). -/
inductive LandRes where
  | takes
  | waits
  | mix
  deriving DecidableEq, Repr

def Tile.landTakes (x : Tile) (l : Nat) (k : Token) : LandRes :=
  let d := x.landDesc l
  let L := x.landing l
  if !d.en || !x.runs (.landing l) || L.inp.isSome then .waits
  else if k.head then .takes
  else if L.cur.any (· != k.slot) then .mix
  else if (x.counter d.cnt).value < d.size then .takes else .waits

/-- Port of steering unit u: 0 D0, 1 D1, 2 C (R183). -/
def steerPort (u i : Nat) : Nat := 28 + 3 * u + i

/-- Output o of a network can accept token k (R172, R173). One for a condition input that its unit does not select, or
for a unit that is off, waits at its switch input, on which R194 is silent (DESIGN CHOICE, log 132). -/
def State.outRoom (s : State) (t : Nat) (net : Net) (o : Nat) (k : Token) : Bool :=
  let x := s.tile t
  let steer (u i need : Nat) : Bool := fld (x.steerCtl u) 0 2 == need && x.portRoom (steerPort u i)
  if o < 4 then s.linkRoom t o net
  else match net with
  | .vec =>
    if o < 8 then x.landTakes (o - 4) k == .takes
    else steer ((o - 8) / 2) ((o - 8) % 2) 1
  | .sca =>
    if o = 4 then x.fab.vecWord.isNone
    else if o < 9 then steer ((o - 5) / 2) ((o - 5) % 2) 2
    else if o < 11 then bit (x.steerCtl (o - 9)) 6 && fld (x.steerCtl (o - 9)) 0 2 != 0 && x.portRoom (steerPort (o - 9) 2)
    else x.fab.nestWords.isEmpty
  | .ctl => !bit (x.steerCtl (o - 4)) 6 && fld (x.steerCtl (o - 4)) 0 2 != 0 && x.portRoom (steerPort (o - 4) 2)

/-- Hand token k to output o. -/
def giveOut (t : Nat) (net : Net) (o : Nat) (k : Token) (s : State) : State :=
  if o < 4 then
    let x := s.tile t
    let ordered := match net with
      | .vec => true
      | .sca => false
      | .ctl => k.isMarker || (decide (k.tag ≤ 11) && x.cbind o)
    sendLink t o net ordered k s
  else s.onTile t (fun x =>
    match net with
    | .vec =>
      if o < 8 then x.setLanding (o - 4) { x.landing (o - 4) with inp := some k }
      else x.portPut (steerPort ((o - 8) / 2) ((o - 8) % 2)) k
    | .sca =>
      let w := k.data.toNat % 2 ^ 32
      if o = 4 then { x with fab := { x.fab with vecWord := some w } }
      else if o < 9 then x.portPut (steerPort ((o - 5) / 2) ((o - 5) % 2)) k
      else if o < 11 then x.portPut (steerPort (o - 9) 2) k
      else { x with fab := { x.fab with nestWords := x.fab.nestWords ++ [(false, w)] } }
    | .ctl => x.portPut (steerPort (o - 4) 2) k)

/-! ## Charges (R321 to R324) -/

/-- The budget with which a head token departs in the current cycle (R322, R323). -/
def headBudget (x : Tile) (k : Token) : Int :=
  match k.cands with
  | [] => (k.budget : Int)
  | cs => cs.foldl (fun m (b, c, w) => min m (charged x b c (x.clk.cyc + 1) w)) (unbounded : Int)

/-- The copy for output `o` of a head token that departs in the current cycle with budget `b`: the copies of
one head carry one budget, and one that stays in the tile spends its time here from the next cycle on
(R322). -/
def Token.departing (k : Token) (x : Tile) (b o : Nat) : Token :=
  { k with data := headData b k.seq k.user, cands := if o < 4 then [] else [(b, x.clk.cyc + 1, 0)] }

/-! ## SWITCH_TOKEN_MOVE (R172, R173, R180, R343) -/

/-- A BOUNDARY marker waits uncollected at the control input of direction d, sent before order `o`. -/
def Tile.boundaryAhead (x : Tile) (d o : Nat) : Bool :=
  let q := x.port (portNo .ctl d)
  x.markIn d && (q.fifo ++ q.queue).any (fun m => m.tag == 12 && decide (m.ord < o))

/-- Detail of a fabric error (R208): plane, network, port. -/
def fabItems (x : Tile) (net : Net) (port : Nat) : List (Nat × Nat) :=
  [(2, x.cfg.plane), (2, match net with | .vec => 0 | .sca => 1 | .ctl => 2), (6, port)]

/-- The port of R183 that output o of a network feeds, and its tile (R171). -/
def State.outPort (s : State) (t : Nat) (net : Net) (o : Nat) : Option (Nat × Nat) :=
  if o < 4 then (s.neighbour t o).map (fun u => (u, portNo net (opp o)))
  else match net with
  | .vec => if o < 8 then none else some (t, steerPort ((o - 8) / 2) ((o - 8) % 2))
  | .sca =>
    if 5 ≤ o ∧ o < 9 then some (t, steerPort ((o - 5) / 2) ((o - 5) % 2))
    else if o = 9 ∨ o = 10 then some (t, steerPort (o - 9) 2) else none
  | .ctl => some (t, steerPort (o - 4) 2)

/-- A token waits for the outputs `outs`: those whose ports are full refuse it (R185, R522). -/
def countRefused (t : Nat) (net : Net) (outs : List Nat) (s : State) : State :=
  outs.foldl (fun s o => match s.outPort t net o with
    | some (u, p) => refused u p s
    | none => s) s

/-- The head token of an input leaves for every output that names it, or waits (R172, R173). A data
token of another slot at a landing port raises SLOT_MIX with that port, 34 to 37, as its detail (R180,
R207, R208); a launched or forwarded head whose budget has run out raises DEADLINE (R324). Nothing crosses
in the switch cycle of a plane switch (R203). -/
def switchMove (t : Nat) (net : Net) (input : Nat) (s : State) : State :=
  let x := s.tile t
  let p := portNo net input
  match x.portHead p with
  | none => s
  | some k =>
    let outs := x.outsOf net input
    if outs.isEmpty || x.fab.switchDue || !s.unitRuns t (.port p) || (net == .ctl && k.isMarker) ||
        (net == .vec && input < 4 && x.boundaryAhead input k.ord) then s
    else
      let mix := if net = .vec then outs.find? (fun o => decide (4 ≤ o ∧ o < 8) && x.landTakes (o - 4) k == .mix) else none
      match mix with
      | some o => raiseT t .slotMix (fabItems x .vec (30 + o)) (some (.landing (o - 4))) s
      | none =>
        if !outs.all (fun o => s.outRoom t net o k) then countRefused t net outs s
        else
          let b := headBudget x k
          let departs := k.head && net == .vec && (outs.any (· < 4) || decide (4 ≤ input ∧ input < 8))
          if departs && b < 0 then deadline t k.slot k.seq b (some (.port p)) s
          else
            let s := s.onTile t (fun x => x.portPop p)
            let s := outs.foldl (fun s o => giveOut t net o (if departs then k.departing x b.toNat o else k) s) s
            s.onTile t Tile.flushHeld

/-- SWITCH_TOKEN_MOVE (R172). -/
def execSwitchTokenMove (t : Nat) (net : Net) (input : Nat) (s : State) : Host.Outcome State Fault Refusal :=
  s.atTile t (fun s => if input < net.inputs then switchMove t net input s else s)

/-! ## LINK_CROSSING (R170, R178, R190, R299, R322, R324) -/

/-- The order of R170 lets the first token of a network's flight into tile x from direction d enter. -/
def Tile.inOrder (x : Tile) (net : Net) (d : Nat) (k : Token) : Bool :=
  let before (n : Net) : Bool := ((x.port (portNo n d)).flight).any (fun m => m.bound && decide (m.ord < k.ord))
  match net with
  | .vec => !before .ctl && !x.boundaryAhead d k.ord
  | .ctl => !k.bound || !before .vec
  | .sca => true

/-- A head token enters its input with the budget that its crossing leaves it, the charge being in ns (R322);
an unbounded budget is not charged (R319). One whose budget the crossing has taken below zero enters with
none left. -/
def Token.crossed (k : Token) (x : Tile) (charge : Nat) : Token :=
  let b := if k.budget = unbounded then unbounded else k.budget - charge
  { k with data := headData b k.seq k.user, arr := x.clk.cyc, cands := [(b, x.clk.cyc, 0)] }

/-- LINK_CROSSING (R190): the first token on its way into the input enters it, in a napping tile while its FIFO has
room (R464). A token of the other LIVE_SET
bit is discarded and counted (R299). A marker outside MARK_IN raises MARK_STRAY (R178) and a head whose
budget the crossing takes below zero DEADLINE (R324); both enter the input, which stops: the fabric drops no
token (R187). -/
def linkCrossing (t : Nat) (net : Net) (d : Nat) (s : State) : State :=
  let x := s.tile t
  let p := portNo net d
  let q := x.port p
  match q.flight with
  | [] => s
  | k :: rest =>
    if x.clk.pstate == .off || s.stop.fatal || !x.inOrder net d k || (x.clk.pstate == .nap && decide (q.fifo.length ≥ 8)) then s
    else
      let s := s.onTile t (fun x => x.setPort p { q with flight := rest })
      let x := s.tile t
      if k.set != x.cfg.liveSet then s.stat (pgTile t 0) 0x58 1
      else if net == .vec && k.head then
        let charge := cdiv (s.crossBound t d * x.clk.per) 65536
        let s := s.onTile t (fun x => x.portPut p (k.crossed x charge))
        if k.budget ≠ unbounded ∧ k.budget < charge then
          deadline t k.slot k.seq ((k.budget : Int) - charge) (some (.port p)) s
        else s
      else
        let s := s.onTile t (fun x => x.portPut p { k with arr := x.clk.cyc })
        if net == .ctl && k.isMarker && !x.markIn d then raiseT t .markStray (fabItems x .ctl p) (some (.port p)) s
        else s

/-- LINK_CROSSING (R190). -/
def execLinkCrossing (t : Nat) (net : Net) (dir : Fin 4) (s : State) : Host.Outcome State Fault Refusal :=
  s.atTile t (linkCrossing t net dir.val)

/-! ## Landing (R180, R296, R322) -/

/-- A landed head: the record's budget, arrival and wake charge (R322). -/
def recordOf (x : Tile) (k : Token) : SlotRec :=
  let (b, a, w) := match k.cands with
    | [c] => c
    | [] => (k.budget, x.clk.cyc, 0)
    | _ => ((headBudget x k).toNat, x.clk.cyc + 1, 0)
  { seq := k.seq, user := k.user, budget := b, arr := a, wake := w }

/-- LANDING_HEAD_TOKEN (R180, R322): the head becomes the slot record of its SLOT. -/
def landHead (t l : Nat) (s : State) : State :=
  let x := s.tile t
  let L := x.landing l
  match L.inp with
  | none => s
  | some k =>
    if !k.head || !s.unitRuns t (.landing l) then s
    else s.onTile t (fun x => x.setLanding l
      { L with inp := none, cur := some k.slot, recs := L.recs.put k.slot (some (recordOf x k)) none,
               openSeq := !k.last, landed := false, watch := 0 })

/-- LANDING_HEAD_TOKEN (R322). -/
def execLandingHeadToken (t : Nat) (ld : Fin 4) (s : State) : Host.Outcome State Fault Refusal :=
  s.atTile t (landHead t ld.val)

/-- LANDING_DATA_TOKEN (R180): the line is written, then the counters count it. -/
def landData (t l : Nat) (s : State) : State :=
  let x := s.tile t
  let L := x.landing l
  let d := x.landDesc l
  match L.inp with
  | none => s
  | some k =>
    if k.head || !s.unitRuns t (.landing l) then s
    else
      let a := (d.base + L.k % (max 1 d.size)) * 64
      let (ok, s) := touch t a 64 (some (.landing l)) s
      if !ok then s
      else
        let s := s.onTile t (fun x => (x.wr a (leBytes 64 k.data.toNat)).setLanding l
          { L with inp := none, cur := some (L.cur.getD k.slot), k := L.k + 1, landed := true,
                   openSeq := L.openSeq && !k.last, watch := 0 })
        let s := localInc t d.cnt 1 s
        if k.last && d.lcntEn then localInc t d.lcnt 1 s else s

/-- LANDING_DATA_TOKEN (R180). -/
def execLandingDataToken (t : Nat) (ld : Fin 4) (s : State) : Host.Outcome State Fault Refusal :=
  s.atTile t (landData t ld.val)

/-- A landing port holds an open sequence (R296). -/
def Tile.landingOpen (x : Tile) (l : Nat) : Bool :=
  let L := x.landing l
  L.openSeq && !(L.landed && (x.counter (x.landDesc l).cnt).value == 0)

/-! ## Launch (R182, R316 to R323, R296) -/

/-- The records that a launched head competes over (R323). -/
def Tile.joinCands (x : Tile) (slot seq : Nat) : List (Nat × Nat × Nat) :=
  (List.range 4).filterMap (fun l =>
    let L := x.landing l
    match (if L.cur = some slot then L.recs.get slot none else none) with
    | some r => if r.seq = seq then some (r.budget, r.arr, r.wake) else none
    | none => none)

/-- REQ_LATE or REQ_HEADER (R320, R444): counted in LATE and reported; the handle is complete. -/
def discardReq (t la c slot seq : Nat) (e : Err) (s : State) : State :=
  let s := s.onTile t (fun x => x.setLaunch la { x.launch la with cur := none })
  let off := 0x148 + 16 * slot
  let v := s.devReg (pgCtx c) off
  let s := s.setDevReg (pgCtx c) off (setFld v 52 12 (satTo 0xFFF (fld v 52 12 + 1)))
  let s := emit 0x0040 (some c) [packW [(3, slot), (1, b2n (e == .reqHeader)), (28, 0), (32, seq)]] none s
  raise (pgTile t 0) e [(3, slot), (32, seq)] none s

/-- A launch port pops a request's handle: the header is checked and the head waits to be issued
(R317, R320). -/
def entryPop (t la c slot : Nat) (h : BitVec 32) (s : State) : State :=
  let x := s.tile t
  let a := x.hAddr h
  let (ok, s) := touch t a 64 (some (.launch la)) s
  if !ok then s
  else
    let w0 := x.rdN a 4
    let bud := w0 % 2 ^ 20
    let seq := x.rdN (a + 4) 4
    let user := x.rdN (a + 8) 48
    let stamp := x.rdN (a + 56) 8
    if w0 / 2 ^ 20 ≠ 0 ∨ (bud = unbounded ∧ !bit (s.slotA c slot) 32) then
      discardReq t la c slot seq .reqHeader s
    else s.onTile t (fun x => x.setLaunch la
      { x.launch la with cur := some { handle := h, slot := slot, line := 1, bound := some slot,
                                       entry := some (bud, stamp, seq, BitVec.ofNat 448 user) } })

/-- The tile's context drains: an origin or an entry port starts no sequence (R329). -/
def Tile.drains (x : Tile) : Bool := x.cfg.owned && x.mp.runStates.get x.cfg.ctx 0 == 3

/-- LAUNCH_HANDLE_POP (R182, R320): a free launch port pops its queue's head handle. With HEAD = 1 it
opens a sequence: a head built from the current slot record, or an entry. An origin with a recast
request starts none (R296), nor does an origin or an entry while its context drains (R329). A current slot that a data token
gave (R180) has no record: its head carries SEQ, USER and BUDGET 0, on which R182 is silent (DESIGN CHOICE, log 131). -/
def launchPop (t la : Nat) (s : State) : State :=
  let x := s.tile t
  let d := x.launchDesc la
  let L := x.launch la
  match x.hqueue d.hq with
  | [] => s
  | h :: _ =>
    let port := portNo .vec (4 + la)
    let win := s.boundSlot t (hWin h)
    if !d.en || L.cur.isSome || !s.unitRuns t (.launch la) || ((d.head || win.isSome) && x.cfg.origin) ||
        (x.drains && (win.isSome || (d.head && x.origin))) then s
    else
      let start (sl : Nat) (s : State) : State := s.onTile t (fun x => (x.popq d.hq).setLaunch la
        { L with cur := some { handle := h, slot := sl, line := 0, entry := none, bound := none },
                 openSeq := L.openSeq || d.head })
      match win, (x.landing d.src).cur with
      | some sl, _ => entryPop t la x.cfg.ctx sl h (s.onTile t (fun x => x.popq d.hq))
      | none, some sl =>
        if !d.head then start sl s
        else if !x.portRoom port then refused t port s
        else
          let r := (((x.landing d.src).recs.get sl none).getD {})
          let k : Token := { data := headData 0 r.seq r.user, slot := sl, head := true,
                             set := x.cfg.liveSet, arr := x.clk.cyc, cands := x.joinCands sl r.seq }
          (start sl s).onTile t (fun x => x.portPut port k)
      | none, none =>
        if d.head then
          raiseT t .entryUnbound [(2, la)] (some (.launch la)) (s.onTile t (fun x => x.popq d.hq))
        else start (Config.freeSlot t la).toNat s

/-- LAUNCH_HANDLE_POP (R182). -/
def execLaunchHandlePop (t : Nat) (la : Fin 4) (s : State) : Host.Outcome State Fault Refusal :=
  s.atTile t (launchPop t la.val)

/-- The handle of a launch port is sent: its sequence closes as R296 says, and INJECT = 2 calls for a
BOUNDARY marker (R344). -/
def launchDone (t la : Nat) (closes : Bool) (s : State) : State :=
  let x := s.tile t
  let L := x.launch la
  let inj := (List.range 4).any (fun r =>
    let w := x.own 2 (0x320 + 8 * r)
    bit w 0 && fld w 9 2 == 2)
  s.onTile t (fun x =>
    let x := x.setLaunch la { cur := none, openSeq := L.openSeq && !closes }
    if closes && L.openSeq && inj && x.origin && !x.cg.closed.contains x.clk.cyc then
      { x with cg := { x.cg with closed := x.cg.closed ++ [x.clk.cyc] } }
    else x)

/-- LAUNCH_DATA_TOKEN (R182): the next line of the handle enters the switch input. -/
def launchData (t la : Nat) (s : State) : State :=
  let x := s.tile t
  let d := x.launchDesc la
  let port := portNo .vec (4 + la)
  match (x.launch la).cur with
  | none => s
  | some g =>
    if g.entry.isSome || !s.unitRuns t (.launch la) then s
    else if !x.portRoom port then refused t port s
    else
      let a := x.hAddr g.handle + 64 * g.line
      let (ok, s) := touch t a 64 (some (.launch la)) s
      if !ok then s
      else
        let fin := decide (g.line + 1 ≥ hLen g.handle)
        let k : Token := { data := BitVec.ofNat 512 (x.rdN a 64), slot := g.slot, last := fin && d.last,
                           set := x.cfg.liveSet, arr := x.clk.cyc }
        let s := s.onTile t (fun x => (x.portPut port k).setLaunch la
          { x.launch la with cur := some { g with line := g.line + 1 } })
        if fin then launchDone t la (d.last || d.head || g.bound.isSome) s else s

/-- LAUNCH_DATA_TOKEN (R182). -/
def execLaunchDataToken (t : Nat) (la : Fin 4) (s : State) : Host.Outcome State Fault Refusal :=
  s.atTile t (launchData t la.val)

/-- The hold charge of a request that committed at tile cycle `stamp`: that of the arming then in force, else
0 (R327). -/
def TileCfg.holdAt (c : TileCfg) (stamp : Nat) : Nat :=
  match c.hold with
  | some f => if c.holdFrom ≤ stamp then f else past
  | none => past
where past : Nat :=
  match c.holds.find? (fun (a, b, _) => decide (a ≤ stamp ∧ stamp < b)) with
  | some (_, _, f) => f
  | none => 0

/-- ENTRY_ISSUE (R320): in a cycle in which the head can leave, its issue budget is computed and it
leaves, or the request is late. An origin with a recast request starts no sequence (R296), nor does an
entry while its context drains (R329). -/
def entryIssue (t la : Nat) (s : State) : State :=
  let x := s.tile t
  let d := x.launchDesc la
  let port := portNo .vec (4 + la)
  let outs := x.outsOf .vec (4 + la)
  match (x.launch la).cur with
  | none => s
  | some g =>
    match g.entry with
    | none => s
    | some (bud, stamp, seq, user) =>
      let c := x.cfg.ctx
      let lone := decide (hLen g.handle = 1)
      let k : Token := { data := headData bud seq user, slot := g.slot, head := true, last := lone && d.last,
                         set := x.cfg.liveSet, arr := x.clk.cyc }
      if outs.isEmpty || (x.portHead port).isSome || !s.unitRuns t (.launch la) || x.fab.switchDue ||
          x.cfg.origin || x.drains then s
      else if !outs.all (fun o => s.outRoom t .vec o k) then countRefused t .vec outs s
      else
        let entryNs := fld (s.slotA c g.slot) 20 12
        let b : Int := if bud = unbounded then (unbounded : Int)
          else (bud : Int) - entryNs - (x.cfg.holdAt stamp : Nat) - (x.ns stamp x.clk.cyc : Nat)
        if b < 0 then discardReq t la c g.slot seq .reqLate s
        else
          let s := s.onTile t (fun x => x.setLaunch la { cur := some { g with entry := none }, openSeq := true })
          let s := outs.foldl (fun s o => giveOut t .vec o (k.departing x b.toNat o) s) s
          if lone then launchDone t la true s else s

/-- ENTRY_ISSUE (R320). -/
def execEntryIssue (t : Nat) (la : Fin 4) (s : State) : Host.Outcome State Fault Refusal :=
  s.atTile t (entryIssue t la.val)

/-! ## Delay queues and progress (R185, R189) -/

/-- DELAY_QUEUE_MOVE (R185): the head of a port's queue moves into its FIFO; ports are numbered as their
queue descriptors (R183). -/
def execDelayQueueMove (t : Nat) (port : Nat) (s : State) : Host.Outcome State Fault Refusal :=
  s.atTile t (fun s =>
    if port < 34 ∧ s.unitRuns t (.port port) then s.onTile t (fun x => x.dqMove port) else s)

/-- `TCT_FABWATCH.LIMIT` of the live set (R207). -/
def Tile.fabLimit (x : Tile) : Nat := fld (x.reg 0 0x140) 0 16

/-- The port stalls (R189): FIFO and queue both full. -/
def Tile.portStalled (x : Tile) (p : Nat) : Bool :=
  let q := x.port p
  decide (q.fifo.length ≥ 8) && x.dqFree p == 0

/-- The landing port stalls (R189): a data token waits for it while its counter stands at SIZE. -/
def Tile.landStalled (x : Tile) (l : Nat) : Bool :=
  let d := x.landDesc l
  let src := srcOf (x.route .vec) (4 + l)
  d.en && decide ((x.counter d.cnt).value ≥ d.size) &&
    (match x.portHead (portNo .vec src) with | some k => src < 12 && !k.head | none => false)

/-- PROGRESS (R189): ports 0 to 33 of R183, landing ports as 34 to 37. -/
def execProgress (t : Nat) (port : Nat) (s : State) : Host.Outcome State Fault Refusal :=
  s.atTile t (fun s =>
    let x := s.tile t
    let lim := x.fabLimit * 1024
    if lim = 0 ∨ port ≥ 38 then s
    else if port < 34 then
      if (x.port port).watch ≥ lim then
        raiseT t .fabProgress (fabItems x (x.portNet port) port) (some (.port port))
          (s.onTile t (fun x => x.setPort port { x.port port with watch := 0 }))
      else s
    else if (x.landing (port - 34)).watch ≥ lim then
      raiseT t .fabProgress (fabItems x .vec port) (some (.landing (port - 34)))
        (s.onTile t (fun x => x.setLanding (port - 34) { x.landing (port - 34) with watch := 0 }))
    else s)

/-! ## HANDLE_POP (R53) -/

/-- HANDLE_POP (R53): the waiting pop takes the head handle, and its user goes on with it. -/
def execHandlePop (t : Nat) (who : Popper) (s : State) : Host.Outcome State Fault Refusal :=
  s.atTile t (fun s =>
    match who with
    | .nest n => nestPop t n.val s
    | .launch p => launchPop t p.val s
    | .record r => if recKind ((s.tile t).chrec r.val) = 1 then directSend t r.val s else channelSend t r.val s)

/-- What is on the links into the tile. -/
def Tile.onLinks (x : Tile) : SMap Port :=
  x.fab.ports.filterMap (fun (p, q) => if q.flight = [] then none else some (p, { flight := q.flight }))

/-- The fabric after a restart or recast (R205, R206): inputs, queues, sequencers, landing and launch
state empty; the plane sequence at step 0. What is still on the links crosses, and the order of bound traffic
on the tile's own links goes on (R170, R298, R299). -/
def Tile.resetFabric (x : Tile) : Tile :=
  { x with fab := { ports := x.onLinks, linkOrd := x.fab.linkOrd },
           cfg := { x.cfg with step := 0, plane := fld (x.reg 0 0x110) 0 2, holds := [] } }

/-- The links into the tile carry nothing: a restart discards what was in flight (R356). -/
def Tile.clearLinks (x : Tile) : Tile :=
  { x with fab := { x.fab with ports := x.fab.ports.filterMap (fun (p, q) =>
      let q := { q with flight := [] }
      if q = {} then none else some (p, q)) } }

end Sys2Proof.Machine
end

