-- ==== Sys2Proof/Machine/Steering.lean ====
section
/-! DEFINITION.
The steering units (R194 to R200): one command is one firing of the operation it names. -/

namespace Sys2Proof.Machine

/-- A sequencer state (R195). -/
structure SteerSt where
  op : Nat
  grain : Bool
  ctag : Nat
  next0 : Nat
  next1 : Nat
  rep : Nat
  etag : Nat
  eval_ : Bool
  inv : Bool
  deriving DecidableEq, Repr

def SteerSt.ofWord (w : Word) : SteerSt :=
  ⟨fld w 0 3, bit w 3, fld w 4 4, fld w 8 4, fld w 12 4, fld w 16 16, fld w 32 4, bit w 36, bit w 37⟩

/-- State k of unit u in plane p. -/
def Tile.steerSt (x : Tile) (p u k : Nat) : SteerSt := SteerSt.ofWord (x.cword p 1 (32 * u + 1 + k))

/-- The sequencer of unit u in plane p: at INIT until it first runs (R200, R205). -/
def Tile.seqr (x : Tile) (p u : Nat) : Seqr :=
  let q := x.fab.seqrs.get (2 * p + u) {}
  if q.live then q
  else
    let k := fld (x.cword p 1 (32 * u)) 2 4
    { q with live := true, state := k, remain := (x.steerSt p u k).rep }

def Tile.setSeqr (x : Tile) (p u : Nat) (q : Seqr) : Tile :=
  { x with fab := { x.fab with seqrs := x.fab.seqrs.put (2 * p + u) q {} } }

/-- Value of a condition token (R197). -/
def condVal (x : Tile) (u : Nat) (st : SteerSt) (k : Token) : Bool :=
  let c := if bit (x.steerCtl u) 6 then k.data.toNat % 2 ^ 31 != 0 else k.val1
  if st.inv then !c else c

/-- The condition at the head carries a wrong tag (R197). -/
def condBad (x : Tile) (u : Nat) (st : SteerSt) (k : Token) : Bool := !bit (x.steerCtl u) 6 && k.tag != st.ctag

/-- The switch input that Q0 or Q1 of unit u feeds (R171). -/
def qPort (x : Tile) (u q : Nat) : Nat :=
  if fld (x.steerCtl u) 0 2 = 2 then portNo .sca (5 + 2 * u + q) else portNo .vec (8 + 2 * u + q)

/-- A firing completes with decision c (R200). -/
def Seqr.complete (q : Seqr) (x : Tile) (p u : Nat) (c : Bool) : Seqr :=
  let st := x.steerSt p u q.state
  let q := { q with opened := false, cond := none }
  if st.rep = 0 then q
  else if q.remain > 1 then { q with remain := q.remain - 1 }
  else
    let n := if c then st.next1 else st.next0
    { q with state := n, remain := (x.steerSt p u n).rep }

/-- Detail of a steering error (R208): plane, unit, state. -/
def steerItems (x : Tile) (u : Nat) (q : Seqr) : List (Nat × Nat) := [(2, x.cfg.plane), (1, u), (4, q.state)]

/-- Move the head of data port d of unit u to output `out` (none: discarded), and carry the
sequencer on (R198 to R200). -/
def steerMove (t u d : Nat) (out : Option Nat) (q : Seqr) (st : SteerSt) (c : Bool) (takesCond : Bool)
    (k : Token) (s : State) : State :=
  s.onTile t (fun x =>
    let p := x.cfg.plane
    let x := x.portPop (steerPort u d)
    let x := if takesCond then x.portPop (steerPort u 2) else x
    let x := match out with
      | some o => x.portPut (qPort x u o) { k with arr := x.clk.cyc }
      | none => x
    x.setSeqr p u (if st.grain && !k.last then { q with opened := true, sel := c } else q.complete x p u c))

/-- Which input a decision reads and which output it feeds (R196). -/
def steerPath (op : Nat) (c : Bool) : Nat × Option Nat :=
  match op with
  | 2 => (0, some (if c then 1 else 0))
  | 3 => (if c then 1 else 0, some 0)
  | 4 => (0, if c then some 0 else none)
  | _ => (0, some 0)

/-- The unit may fire: it is on, runs, and the tile is in no switch cycle (R194, R203). -/
def State.steers (s : State) (t u : Nat) : Bool :=
  fld ((s.tile t).steerCtl u) 0 2 != 0 && s.unitRuns t (.steer u) && !(s.tile t).fab.switchDue

/-- A condition whose tag is not the state's CTAG stands at the head of the condition queue, in whatever
state (R197, R200). -/
def Tile.strayCond (x : Tile) (u : Nat) : Bool :=
  let q := x.seqr x.cfg.plane u
  match x.portHead (steerPort u 2) with
  | some k => condBad x u (x.steerSt x.cfg.plane u q.state) k
  | none => false

/-- A token without HEAD stands at the head of D0 of a unit whose state decides by the sequence, with no
sequence open (R199). MERGE knows its input from the condition only. -/
def Tile.straySeq (x : Tile) (u : Nat) : Bool :=
  let q := x.seqr x.cfg.plane u
  let st := x.steerSt x.cfg.plane u q.state
  (st.op == 1 || st.op == 2 || st.op == 4) && st.grain && !q.opened &&
  (match x.portHead (steerPort u 0) with | some k => !k.head | none => false)

/-- A steering unit acts (R197 to R200): a wrong tag or a stray token stops it, whatever it was to do. -/
def steerAct (t u op : Nat) (f : State → State) (s : State) : State :=
  let x := s.tile t
  let q := x.seqr x.cfg.plane u
  if !s.steers t u then s
  else if x.strayCond u then raiseT t .steerTag (steerItems x u q) (some (.steer u)) s
  else if x.straySeq u then raiseT t .steerSeq (steerItems x u q) (some (.steer u)) s
  else if (x.steerSt x.cfg.plane u q.state).op = op then f s else s

/-- Fire a data operation: PASS, ROUTE, MERGE or FILTER (R196 to R199). -/
def steerData (t u op : Nat) (s : State) : State :=
  let x := s.tile t
  let p := x.cfg.plane
  let q := x.seqr p u
  let st := x.steerSt p u q.state
  steerAct t u op (fun s =>
    let cond := x.portHead (steerPort u 2)
    let usesCond := op != 1
    -- the decision: that of the open sequence, the one MERGE has taken, or a new one
    let dec : Option (Bool × Bool) :=
      if q.opened then some (q.sel, false)
      else if !usesCond then some (false, false)
      else match q.cond with
        | some c => some (c, false)
        | none => cond.map (fun k => (condVal x u st k, true))
    -- MERGE takes its condition and awaits the head it names (R198)
    let takeCond (c : Bool) (s : State) : State :=
      s.onTile t (fun x => (x.portPop (steerPort u 2)).setSeqr p u { q with cond := some c })
    match dec with
    | none => s
    | some (c, takes) =>
      let (d, out) := steerPath op c
      match x.portHead (steerPort u d) with
      | none => if op = 3 ∧ takes then takeCond c s else s
      | some k =>
        if st.grain && !q.opened && !k.head then raiseT t .steerSeq (steerItems x u q) (some (.steer u)) s
        else
          let room := match out with | some o => x.portRoom (qPort x u o) | none => true
          if room then (steerMove t u d out q st c takes k s).stat (pgTile t 0) 0x48 1
          else
            let s := match out with | some o => refused t (qPort x u o) s | none => s
            if op = 3 ∧ takes then takeCond c s else s) s

/-- PASS (R196). -/
def execPass (t : Nat) (u : Fin 2) (s : State) : Host.Outcome State Fault Refusal :=
  s.atTile t (steerData t u.val 1)

/-- ROUTE (R196). -/
def execRoute (t : Nat) (u : Fin 2) (s : State) : Host.Outcome State Fault Refusal :=
  s.atTile t (steerData t u.val 2)

/-- MERGE (R196). -/
def execMerge (t : Nat) (u : Fin 2) (s : State) : Host.Outcome State Fault Refusal :=
  s.atTile t (steerData t u.val 3)

/-- FILTER (R196). -/
def execFilter (t : Nat) (u : Fin 2) (s : State) : Host.Outcome State Fault Refusal :=
  s.atTile t (steerData t u.val 4)

/-- EMIT (R196): a control token on the unit's EMIT output. -/
def steerEmit (t u : Nat) (s : State) : State :=
  let x := s.tile t
  let p := x.cfg.plane
  let q := x.seqr p u
  let st := x.steerSt p u q.state
  let port := portNo .ctl (5 + u)
  steerAct t u 5 (fun s =>
    if !x.portRoom port then refused t port s
    else (s.onTile t (fun x =>
      (x.portPut port (ctlToken x st.etag st.eval_)).setSeqr p u (q.complete x p u false))).stat (pgTile t 0) 0x48 1) s

/-- EMIT (R196). -/
def execEmit (t : Nat) (u : Fin 2) (s : State) : Host.Outcome State Fault Refusal :=
  s.atTile t (steerEmit t u.val)

/-- TAKEC (R196): a condition selects the next state. -/
def steerTakec (t u : Nat) (s : State) : State :=
  let x := s.tile t
  let p := x.cfg.plane
  let q := x.seqr p u
  let st := x.steerSt p u q.state
  steerAct t u 6 (fun s =>
    match x.portHead (steerPort u 2) with
    | none => s
    | some k => (s.onTile t (fun x =>
        (x.portPop (steerPort u 2)).setSeqr p u (q.complete x p u (condVal x u st k)))).stat (pgTile t 0) 0x48 1) s

/-- TAKEC (R196). -/
def execTakec (t : Nat) (u : Fin 2) (s : State) : Host.Outcome State Fault Refusal :=
  s.atTile t (steerTakec t u.val)

end Sys2Proof.Machine
end

