-- ==== Sys2Proof/Machine/Groups.lean ====
section
/-! DEFINITION.
Plane switches (R201 to R204), BOUNDARY markers (R178, R343, R344) and the tile's side of commit
groups: its records and its coordinator (R336 to R349, R368). -/

namespace Sys2Proof.Machine

/-! ## Plane switch (R202, R203) -/

/-- Plane of step i and its dwell (R207). -/
def Tile.pseq (x : Tile) (i : Nat) : Nat × Nat :=
  let w := x.reg 0 (0x110 + 8 * (i / 4))
  (fld w (16 * (i % 4)) 2, fld w (16 * (i % 4) + 2) 14)

def Tile.pseqLen (x : Tile) : Nat := fld (x.reg 0 0x108) 0 5

/-- Errors of the live configuration words that are read as the switch changes planes, or that a one-step tile
reads where no switch is due (R60). -/
def liveEcc (t : Nat) (ecc : List Upset) (s : State) : State :=
  let s := if ecc.any (fun u => !u.dbl) then raiseT t .cfgCorrected [] none s else s
  if ecc.any (fun u => u.dbl) then raiseT t .cfgUncorrectable [] none s else s

/-- The step after the current one takes its place; the running cycles since the switch cycle count to its
dwell (R202, R203). -/
def Tile.nextStep (x : Tile) : Tile :=
  let i := (x.cfg.step + 1) % (max 1 x.pseqLen)
  { x with cfg := { x.cfg with step := i, plane := (x.pseq i).1 },
           fab := { x.fab with switchDue := false, switchOver := 0, dwell := x.fab.switchOver - 1 } }

/-! ## Group registers (R368) -/

def Tile.cgc (x : Tile) : Word := x.own 2 0x300
def cgSc (w : Word) : Nat := fld w 2 4
def cgNpart (w : Word) : Nat := fld w 6 11
def cgListwin (w : Word) : Nat := fld w 17 4
def cgNlist (w : Word) : Nat := fld w 21 11
def cgGocnt (w : Word) : Nat := fld w 32 4
def cgTimeout (w : Word) : Nat := fld w 37 16
def cgGid (w : Word) : Nat := fld w 53 8

def Tile.cgp (x : Tile) (r : Nat) : Word := x.own 2 (0x320 + 8 * r)
def cpSwap (w : Word) : Nat := fld w 1 8
def cpInject (w : Word) : Nat := fld w 9 2
def cpSync (w : Word) : Bool := bit w 11
def cpStc (w : Word) : Nat := fld w 12 4
def cpStt (w : Word) : Nat := fld w 16 24
def cpDc (w : Word) : Nat := fld w 40 4
def cpCoord (w : Word) : Nat := fld w 44 13
def cpSc (w : Word) : Nat := fld w 57 4

def Tile.part (x : Tile) (r : Nat) : CgPart := x.cg.parts.get r {}

def Tile.setPart (x : Tile) (r : Nat) (k : CgPart) : Tile :=
  { x with cg := { x.cg with parts := x.cg.parts.put r k {} } }

def Tile.setCoord (x : Tile) (k : CgCoord) : Tile := { x with cg := { x.cg with coord := k } }

/-- Staged acknowledgements of the open round (R339). -/
def Tile.staged (x : Tile) : Nat :=
  let k := x.counter (cgSc x.cgc)
  if k.epoch = x.cg.coord.round then k.value else 0

/-- The tile's clock runs and nothing has halted it (R202, R326, R362). -/
def State.tileRuns (s : State) (t : Nat) : Bool :=
  (s.tile t).clk.pstate == .active && !(s.tile t).cfg.halted && !(s.tile t).cfg.flushed && !s.stop.fatal

/-- PLANE_SWITCH: at the end of the switch cycle PLANE and STEP take their new values (R202, R203). -/
def execPlaneSwitch (t : Nat) (ecc : List Upset) (s : State) : Host.Outcome State Fault Refusal :=
  s.atTile t (fun s =>
    let x := s.tile t
    let s := if x.fab.switchDue && decide (x.fab.switchOver ≥ 1) && s.tileRuns t then s.onTile t Tile.nextStep else s
    if x.clk.pstate == .off then s else liveEcc t ecc s)

/-! ## Participants (R337, R338, R342) -/

/-- CG_STAGE (R338): the stage counter has reached STT; the acknowledgement goes to the coordinator. -/
def execCgStage (t : Nat) (r : Fin 4) (s : State) : Host.Outcome State Fault Refusal :=
  s.atTile t (fun s =>
    let x := s.tile t
    let w := x.cgp r.val
    let k := x.part r.val
    if !s.tileRuns t || k.st != 1 || cpStt w == 0 || decide ((x.counter (cpStc w)).value < cpStt w) then s
    else
      let s := s.onTile t (fun x => x.setPart r.val { k with st := 2 })
      tileSend t 0x08 (cpCoord w) x.cfg.ctx (cntW1 (cpSc w) k.round true 1 0 0 0 false false) [] none none s)

/-- Exchange BASE and SIZE of the two windows of every pair in a mask (R337). -/
def Tile.swapPairs (x : Tile) (mask : Nat) : Tile :=
  (List.range 8).foldl (fun x p =>
    if mask / 2 ^ p % 2 = 1 then
      let a := x.reg 1 (0x180 + 16 * p)
      let b := x.reg 1 (0x188 + 16 * p)
      (x.setReg 1 (0x180 + 16 * p) (setFld a 0 29 (fld b 0 29))).setReg 1 (0x188 + 16 * p)
        (setFld b 0 29 (fld a 0 29))
    else x) x

/-- A record in COMMIT_PENDING swaps and returns to OPEN (R343). -/
def Tile.applySwap (x : Tile) (r : Nat) : Tile :=
  let k := x.part r
  (x.swapPairs (cpSwap (x.cgp r))).setPart r { k with st := 1, swaps := satTo (2 ^ 32 - 1) (k.swaps + 1) }

/-- CG_ACT_DECISION (R342, R344): a decision of the record's round has reached DC. -/
def execCgActDecision (t : Nat) (r : Fin 4) (s : State) : Host.Outcome State Fault Refusal :=
  s.atTile t (fun s =>
    let x := s.tile t
    let w := x.cgp r.val
    let k := x.part r.val
    let d := x.counter (cpDc w)
    if !s.tileRuns t || !(k.st == 1 || k.st == 2) || d.epoch != k.round || d.value == 0 then s
    else
      let commit := d.value == 1
      let s := localReset t (cpStc w) (localReset t (cpDc w) s)
      s.onTile t (fun x =>
        let x := x.setPart r.val
          { k with st := if commit && cpSwap w != 0 then 3 else 1, round := (k.round + 1) % 256, acted := true }
        if commit && cpInject w != 0 && x.origin then { x with cg := { x.cg with inject := true } } else x))

/-! ## BOUNDARY markers (R178, R343, R344) -/

/-- BOUNDARY_INJECT (R344): after a commit, in the first cycle in which no launch port has an open
sequence; after the end of a sequence, at once. Injections of one cycle make one marker. -/
def execBoundaryInject (t : Nat) (s : State) : Host.Outcome State Fault Refusal :=
  s.atTile t (fun s =>
    let x := s.tile t
    let free := (List.range 4).all (fun la => !(x.launch la).openSeq)
    if !s.tileRuns t || !x.origin || !(x.cg.closed != [] || (x.cg.inject && free)) then s
    else s.onTile t (fun x =>
      { x with cg := { x.cg with closed := x.cg.closed.tail, inject := x.cg.inject && !free },
               fab := { x.fab with injBoundary := x.fab.injBoundary + 1 } }))

/-- The markers of kind `tag` are collected (R178 step 2): one at the head of every MARK_IN input
whose vector input has passed on every earlier token, the local one where the tile is an origin,
and room on every MARK_OUT output. -/
def State.collects (s : State) (t tag : Nat) (injected : Bool) : Bool :=
  let x := s.tile t
  let at_ (d : Nat) : Bool :=
    match x.portHead (portNo .ctl d) with
    | some k => k.tag == tag &&
        (let v := x.port (portNo .vec d)
         (v.fifo ++ v.queue ++ v.flight).all (fun m => !m.bound || decide (m.ord > k.ord)))
    | none => false
  ((List.range 4).any x.markIn || x.origin) && !x.fab.switchDue &&
  (List.range 4).all (fun d => !x.markIn d || at_ d) && (!x.origin || injected) &&
  (List.range 4).all (fun d => !x.markOut d || s.linkRoom t d .ctl)

/-- The collected markers leave their inputs and one leaves on every MARK_OUT output, bound (R178). -/
def passMarker (t tag : Nat) (s : State) : State :=
  let x := s.tile t
  let s := (List.range 4).foldl (fun s d =>
    if x.markIn d then s.onTile t (fun x => x.portPop (portNo .ctl d)) else s) s
  (List.range 4).foldl (fun s d =>
    if x.markOut d then sendLink t d .ctl true (ctlToken x tag false) s else s) s

/-- The byte ranges that the engine firings in progress read and write. -/
def Tile.firingRanges (x : Tile) : List (Nat × Nat) :=
  let m (q : MtxStep) : List (Nat × Nat) :=
    let d := q.d
    let sc (on : Bool) (code base a extra : Nat) : List (Nat × Nat) :=
      if on then [((scaleAt base (codeBits code) a).1, (scaleAt base (codeBits code) a).2 + extra)] else []
    let w6 (c : Nat) : Nat := if isFp6 c then 32 else 0
    [(q.addrA, opndBytes d.fa), (q.addrB, opndBytes d.fb), (q.addrC, d.cBytes q.first q.last)] ++
    sc d.mxa d.fa d.sa q.addrA (w6 d.fa) ++ sc d.mxb d.fb d.sb q.addrB (w6 d.fb) ++ sc (d.mxc && q.last) d.fc d.sc q.addrC 0
  let v (f : VecFire) : List (Nat × Nat) :=
    let d := f.d
    d.memSrcs.map (fun (k, c) => (f.srcAddr k, runBytes c f.len)) ++ [(f.addrC, runBytes d.fd f.len)] ++
    (List.range (cdiv f.len 32)).flatMap (fun b =>
      (if d.mx1 then [(vecScale d d.f1 f.addrA b, 1)] else []) ++ (if d.mxd then [(vecScale d d.fd f.addrC b, 1)] else []))
  (x.mtx.issued ++ x.mtx.bufs.map (·.step) ++ x.mtx.rows.map (·.step) ++ x.mtx.drains).flatMap m ++
  (x.vec.fire.toList ++ x.vec.tail).flatMap v

/-- A window pair that a record in COMMIT_PENDING swaps meets a firing in progress (R343). -/
def Tile.swapMeetsFiring (x : Tile) : Bool :=
  let rs := x.firingRanges
  (List.range 4).any (fun r => (x.part r).st == 3 &&
    (List.range 8).any (fun p => cpSwap (x.cgp r) / 2 ^ p % 2 == 1 &&
      [2 * p, 2 * p + 1].any (fun i =>
        let w := x.win i
        rs.any (fun (a, n) => decide (a < (w.base + w.size) * 64 ∧ w.base * 64 < a + n)))))

/-- A SYNC record whose round is undecided holds the marker (R343). -/
def Tile.syncHolds (x : Tile) : Bool :=
  (List.range 4).any (fun r =>
    let k := x.part r
    let w := x.cgp r
    cpSync w && (k.st == 2 || (k.st == 1 && cpStt w != 0 && !k.acted)))

/-- BOUNDARY_COLLECT (R178, R343). -/
def execBoundaryCollect (t : Nat) (s : State) : Host.Outcome State Fault Refusal :=
  s.atTile t (fun s =>
    let x := s.tile t
    if !s.tileRuns t || !s.collects t 12 (decide (x.fab.injBoundary > 0)) || x.swapMeetsFiring || x.syncHolds then s
    else
      let s := s.onTile t (fun x =>
        let x := (List.range 4).foldl (fun x r => if (x.part r).st = 3 then x.applySwap r else x) x
        let x := (List.range 4).foldl (fun x r => x.setPart r { x.part r with acted := false }) x
        if x.origin then { x with fab := { x.fab with injBoundary := x.fab.injBoundary - 1 } } else x)
      passMarker t 12 s)

/-! ## Coordinator (R339 to R341, R346) -/

/-- GO is latched when counter GOCNT has reached 1, which is then decremented (R339). -/
def latchGo (t : Nat) (s : State) : State :=
  let x := s.tile t
  let w := x.cgc
  if bit w 36 && !x.cg.coord.go && decide ((x.counter (cgGocnt w)).value ≥ 1) then
    localDec t (cgGocnt w) 1 (s.onTile t (fun x => x.setCoord { x.cg.coord with go := true }))
  else s

/-- The coordinator has decided (R340): the notice goes to the management die. -/
def cgNotify (t d : Nat) (s : State) : State :=
  let x := s.tile t
  let s := s.onTile t (fun x => x.setCoord { x.cg.coord with st := 2, decision := d })
  tileToMgt t 0x34 unitMgt x.cfg.ctx (packW [(8, cgGid x.cgc), (8, x.cg.coord.round), (2, d)]) 0 0 [] s

/-- The round's TIMEOUT has run since its first staged acknowledgement (R339). -/
def Tile.cgTimedOut (x : Tile) : Bool :=
  cgTimeout x.cgc != 0 && (match x.cg.coord.firstAck with
    | some c => decide (x.clk.cyc ≥ c + cgTimeout x.cgc * 1024)
    | none => false)

/-- CG_DECIDE (R339): commit when every acknowledgement is there and AUTO or GO stands; an abort that
falls in the same cycle wins. -/
def execCgDecide (t : Nat) (s : State) : Host.Outcome State Fault Refusal :=
  s.atTile t (fun s =>
    if !s.tileRuns t || (s.tile t).cg.coord.st != 1 then s
    else
      let s := latchGo t s
      let x := s.tile t
      if x.staged ≥ cgNpart x.cgc && (bit x.cgc 1 || x.cg.coord.go) && !x.cgTimedOut then cgNotify t 1 s else s)

/-- The tile's cycles pass: it is ACTIVE or IDLE, and nothing has halted it (R326, R339, R462). -/
def State.cyclesPass (s : State) (t : Nat) : Bool :=
  let x := s.tile t
  (x.clk.pstate == .active || x.clk.pstate == .idle) && !x.cfg.halted && !x.cfg.flushed && !s.stop.fatal

/-- CG_TIMEOUT (R339): in an IDLE tile too, whose cycles go on. -/
def execCgTimeout (t : Nat) (s : State) : Host.Outcome State Fault Refusal :=
  s.atTile t (fun s =>
    let x := s.tile t
    if s.cyclesPass t && x.cg.coord.st == 1 && x.cgTimedOut then cgNotify t 2 (raiseT t .cgTimeout [] none s) else s)

/-- Write `TSC_CGCMD` (R346, R368): each bit acts on an OPEN coordinator only; ABORT wins. -/
def writeCgcmd (t : Nat) (v : Word) (s : State) : State :=
  if (s.tile t).cg.coord.st != 1 then s
  else if bit v 1 then cgNotify t 2 s
  else if bit v 0 then s.onTile t (fun x => x.setCoord { x.cg.coord with go := true })
  else s

/-- CG_GO (R346). -/
def execCgGo (t : Nat) (s : State) : Host.Outcome State Fault Refusal := 
  s.atTile t (actedTile t (writeCgcmd t 1))

/-- CG_ABORT (R346). -/
def execCgAbort (t : Nat) (s : State) : Host.Outcome State Fault Refusal := 
  s.atTile t (actedTile t (writeCgcmd t 2))

/-- List entry e: unit and counter (R341). -/
def Tile.cgEntry (x : Tile) (e : Nat) : Nat × Nat :=
  let v := x.rdN ((x.win (cgListwin x.cgc)).base * 64 + 4 * e) 4
  (v % 2 ^ 13, v / 2 ^ 13 % 16)

/-- One CINC of the fan-out (R341). -/
def cgFan (t d : Nat) (e : Nat) (s : State) : State :=
  let x := s.tile t
  let (u, dc) := x.cgEntry e
  tileSend t 0x08 u x.cfg.ctx (cntW1 dc x.cg.coord.round true d 0 0 0 false false) [] none none s

/-- The fan-out ends when the whole list is sent: the next round is OPEN (R341, R346). -/
def Tile.fanDone (x : Tile) : Tile :=
  let k := x.cg.coord
  if k.st = 3 ∧ k.fan ≥ cgNlist x.cgc then
    x.setCoord { k with st := 1, round := (k.round + 1) % 256, go := false, fan := 0 }
  else x

/-- One tile cycle of the fan-out: the next list entry is sent (R341), unless a word of the list that no one could
correct has stopped it (R41, R352). -/
def fanCycle (t : Nat) (s : State) : State :=
  let k := (s.tile t).cg.coord
  if k.st != 3 || !s.cyclesPass t || (s.tile t).stopped.contains .coord then s
  else
    let s := cgFan t k.decision k.fan s
    s.onTile t (fun x => (x.setCoord { x.cg.coord with fan := k.fan + 1 }).fanDone)

/-- The acknowledgement of a decision notice reaches its coordinator (R340, R341, R346): the decision takes
effect, and the fan-out follows, one list entry in each tile cycle. -/
def takeNoticeAck (t : Nat) (m : Msg) (s : State) : State :=
  let k := (s.tile t).cg.coord
  if k.st != 2 then s
  else if m.status != 0 then s.onTile t (fun x => x.setCoord { k with st := 1, firstAck := none })
  else
    s.onTile t (fun x => (x.setCoord
      { k with st := 3, fan := 0, last := k.decision, firstAck := none,
               commits := if k.decision = 1 then satTo (2 ^ 32 - 1) (k.commits + 1) else k.commits,
               aborts := if k.decision = 2 then satTo 255 (k.aborts + 1) else k.aborts }).fanDone)

/-! ## Group register writes (R349) -/

/-- Another coordinator of the context is enabled with this GID. -/
def State.gidTaken (s : State) (t gid : Nat) : Bool :=
  s.tiles.any (fun (u, y) => u != t && y.sameOwner (s.tile t) && y.cg.coord.st != 0 && cgGid y.cgc == gid)

/-- A setup with EN = 1 that R349 refuses. -/
def cgcBad (s : State) (t : Nat) (v : Word) : Bool :=
  let w := (s.tile t).win (cgListwin v)
  cgGid v == 0 || s.gidTaken t (cgGid v) || decide (cgNpart v > 1024) || decide (cgNlist v > 1024) ||
  (cgNlist v != 0 && (w.mode == 0 || decide (cgNlist v * 4 > w.size * 64)))

/-- Write `TSC_CGCOORD` (R346, R349). `riding`: a pour rides on the group. -/
def writeCgcoord (t : Nat) (v : Word) (riding : Bool) (s : State) : State :=
  let x := s.tile t
  let k := x.cg.coord
  let v := v &&& 0x1FFFFFFFFFFFFFFF
  let admitted := k.st == 0 || (k.st == 1 && x.staged == 0 && !k.go && !riding)
  if !admitted || (bit v 0 && cgcBad s t v) then raiseT t .cgSetup [] none s
  else s.onTile t (fun x =>
    let x := x.setOwn 2 0x300 v
    if !bit v 0 then x.setCoord {} else if k.st = 0 then x.setCoord { st := 1 } else x)

/-- Write `TSC_CGPARTi` (R345, R349). -/
def writeCgpart (t r : Nat) (v : Word) (s : State) : State :=
  let x := s.tile t
  let k := x.part r
  let v := v &&& 0x1FFFFFFFFFFFFFFF
  let off := (List.range 8).any (fun p => cpSwap v / 2 ^ p % 2 == 1 &&
    ((x.win (2 * p)).mode == 0 || (x.win (2 * p + 1)).mode == 0))
  if !(k.st == 0 || k.st == 1) || (bit v 0 && (cpInject v == 3 || off)) then raiseT t .cgSetup [] none s
  else s.onTile t (fun x =>
    let x := x.setOwn 2 (0x320 + 8 * r) v
    if !bit v 0 then x.setPart r {} else if k.st = 0 then x.setPart r { st := 1 } else x)

/-- CGPART_WRITE (R349). -/
def execCgpartWrite (t : Nat) (r : Fin 4) (v : Word) (s : State) : Host.Outcome State Fault Refusal :=
  s.atTile t (actedTile t (writeCgpart t r.val v))

/-! ## What ends a group (R345, R346, R350) -/

/-- Recast exchange or teardown of the tile: every record and the coordinator OFF. -/
def Tile.groupsOff (x : Tile) : Tile :=
  let x := { x with cg := {} }
  let x := x.setOwn 2 0x300 (setFld (x.own 2 0x300) 0 1 0)
  (List.range 4).foldl (fun x r => x.setOwn 2 (0x320 + 8 * r) (setFld (x.cgp r) 0 1 0)) x

/-- A restart (R350): enabled records and the coordinator return to OPEN with ROUND = 0, GO cleared.
The counts since EN stay. -/
def Tile.groupsRestart (x : Tile) : Tile :=
  let k := x.cg.coord
  let x := if k.st = 0 then x else x.setCoord { st := 1, commits := k.commits, aborts := k.aborts, last := k.last }
  let x := (List.range 4).foldl (fun x r =>
    let q := x.part r
    if q.st = 0 then x else x.setPart r { st := 1, swaps := q.swaps }) x
  { x with cg := { x.cg with inject := false, closed := [] } }

end Sys2Proof.Machine
end

