-- ==== Sys2Proof/Machine/Crypto.lean ====
section
/-! DEFINITION.
The public algorithms that the spec names and does not restate: SHA-256 (R276, R284, R309, R493),
AES-256-GCM (R275, R487), HMAC and HKDF over SHA-256 (R492), CRC-32C (R428). PRESUMED from their
published standards. -/

namespace Sys2Proof.Machine

/-! ## SHA-256 -/

/-- The eight 32-bit words of a 256-bit number, most significant first. -/
def octet (v : Nat) : List (BitVec 32) := (List.range 8).map (fun i => BitVec.ofNat 32 (v >>> (224 - 32 * i)))

/-- Round constants, eight to a number. -/
def shaRounds : List (BitVec 32) :=
  octet 0x428a2f9871374491b5c0fbcfe9b5dba53956c25b59f111f1923f82a4ab1c5ed5 ++
  octet 0xd807aa9812835b01243185be550c7dc372be5d7480deb1fe9bdc06a7c19bf174 ++
  octet 0xe49b69c1efbe47860fc19dc6240ca1cc2de92c6f4a7484aa5cb0a9dc76f988da ++
  octet 0x983e5152a831c66db00327c8bf597fc7c6e00bf3d5a7914706ca635114292967 ++
  octet 0x27b70a852e1b21384d2c6dfc53380d13650a7354766a0abb81c2c92e92722c85 ++
  octet 0xa2bfe8a1a81a664bc24b8b70c76c51a3d192e819d6990624f40e3585106aa070 ++
  octet 0x19a4c1161e376c082748774c34b0bcb5391c0cb34ed8aa4a5b9cca4f682e6ff3 ++
  octet 0x748f82ee78a5636f84c878148cc7020890befffaa4506cebbef9a3f7c67178f2

/-- The digest before the first block. -/
def shaStart : List (BitVec 32) :=
  octet 0x6a09e667bb67ae853c6ef372a54ff53a510e527f9b05688c1f83d9ab5be0cd19

/-- Sum, bit by bit, of a word turned right by each amount. -/
def turns (x : BitVec 32) (ns : List Nat) : BitVec 32 := ns.foldl (fun a n => a ^^^ x.rotateRight n) 0

/-- A big-endian number of bytes. -/
def beNat (bs : List Byte) : Nat := bs.foldl (fun a b => a * 256 + b.toNat) 0

/-- n big-endian bytes. -/
def beBytes (n v : Nat) : List Byte := (leBytes n v).reverse

/-- Groups of n elements; `fuel` bounds their number. -/
def groupsOf {α : Type} (n : Nat) : Nat → List α → List (List α)
  | 0, _ => []
  | f + 1, l => if l.isEmpty then [] else l.take n :: groupsOf n f (l.drop n)

/-- The next word of the message schedule after the latest sixteen, oldest first. -/
def shaNext (w : List (BitVec 32)) : BitVec 32 :=
  match w with
  | w0 :: w1 :: rest =>
    let w9 := rest.getD 7 0
    let w14 := rest.getD 12 0
    w9 + w0 + (turns w14 [17, 19] ^^^ w14 >>> 10) + (turns w1 [7, 18] ^^^ w1 >>> 3)
  | _ => 0

/-- One round: the window of sixteen schedule words moves on by one, and the eight working words
take in its first with the constant k. -/
def shaTurn (st : List (BitVec 32) × List (BitVec 32)) (k : BitVec 32) : List (BitVec 32) × List (BitVec 32) :=
  match st with
  | (win, [a, b, c, d, e, f, g, h]) =>
    let pick := g ^^^ e &&& (f ^^^ g)
    let most := a &&& (b ||| c) ||| b &&& c
    let x := k + win.headD 0 + h + pick + turns e [6, 11, 25]
    (win.tail ++ [shaNext win], [most + x + turns a [2, 13, 22], a, b, c, x + d, e, f, g])
  | _ => st

/-- The digest after a block of 64 bytes. -/
def shaBlock (dig : List (BitVec 32)) (blk : List Byte) : List (BitVec 32) :=
  let win := (groupsOf 4 16 blk).map (fun g => BitVec.ofNat 32 (beNat g))
  List.zipWith (· + ·) dig (shaRounds.foldl shaTurn (win, dig)).2

/-- SHA-256 of a byte string, 32 bytes: 0x80, zeros, and the length in bits end the last block. -/
def sha256 (m : List Byte) : List Byte :=
  let blocks := (m.length + 72) / 64
  let zeros := List.replicate (blocks * 64 - 9 - m.length) 0
  let whole := m ++ 0x80 :: zeros ++ beBytes 8 (m.length * 8)
  ((groupsOf 64 blocks whole).foldl shaBlock shaStart).flatMap (fun w => beBytes 4 w.toNat)

/-! ## HMAC and HKDF -/

def hmacSha256 (key m : List Byte) : List Byte :=
  let k := if key.length > 64 then sha256 key else key
  let k := k ++ List.replicate (64 - k.length) 0
  sha256 (k.map (· ^^^ 0x5C) ++ sha256 (k.map (· ^^^ 0x36) ++ m))

/-- HKDF: extract with a salt, then one block of expansion (32 bytes). -/
def hkdf (salt ikm info : List Byte) : List Byte :=
  hmacSha256 (hmacSha256 salt ikm) (info ++ [1])

/-! ## AES-256 -/

/-- Product in GF(2^8). -/
def gmul8 : Nat → Nat → Nat → Nat
  | 0, _, _ => 0
  | n + 1, a, b =>
    let a2 := if a ≥ 128 then (2 * a) % 256 ^^^ 0x1B else 2 * a
    (if b % 2 = 1 then a else 0) ^^^ gmul8 n a2 (b / 2)

def gm (a b : Nat) : Nat := gmul8 8 a b

/-- x^254, the inverse in GF(2^8). -/
def ginv (x : Nat) : Nat :=
  let x2 := gm x x
  let x4 := gm x2 x2
  let x8 := gm x4 x4
  let x16 := gm x8 x8
  let x32 := gm x16 x16
  let x64 := gm x32 x32
  let x128 := gm x64 x64
  gm x128 (gm x64 (gm x32 (gm x16 (gm x8 (gm x4 x2)))))

def rotl8 (x n : Nat) : Nat := (x * 2 ^ n % 256) + x / 2 ^ (8 - n)

def sbox (x : Nat) : Nat :=
  let b := ginv x
  b ^^^ rotl8 b 1 ^^^ rotl8 b 2 ^^^ rotl8 b 3 ^^^ rotl8 b 4 ^^^ 0x63

/-- Key schedule words, newest first; i is the number of words made. -/
def aesExtend : Nat → Nat → Nat → List (List Nat) → List (List Nat)
  | 0, _, _, w => w
  | n + 1, i, rc, w =>
    let prev := w.headD []
    let back := w.getD 7 []
    let t := if i % 8 = 0 then
        (((prev.drop 1 ++ prev.take 1).map sbox).zip [rc, 0, 0, 0]).map (fun (a, b) => a ^^^ b)
      else if i % 8 = 4 then prev.map sbox else prev
    aesExtend n (i + 1) (if i % 8 = 0 then gm rc 2 else rc) (List.zipWith (· ^^^ ·) back t :: w)

/-- The 15 round keys of a 32-byte key. -/
def aesKeys (key : List Nat) : List (List Nat) :=
  let w0 := groupsOf 4 8 key
  groupsOf 16 15 (aesExtend 52 8 1 w0.reverse).reverse.flatten

def shiftRows (s : List Nat) : List Nat :=
  (List.range 16).map (fun i => s.getD ((i + 4 * (i % 4)) % 16) 0)

def mixColumn (c : List Nat) : List Nat :=
  (List.range 4).map (fun i =>
    let g (j : Nat) : Nat := c.getD ((i + j) % 4) 0
    gm (g 0) 2 ^^^ gm (g 1) 3 ^^^ g 2 ^^^ g 3)

def addKey (s k : List Nat) : List Nat := List.zipWith (· ^^^ ·) s k

/-- The rounds after the first key addition; the last has no column mix. -/
def aesRounds : List (List Nat) → List Nat → List Nat
  | [], s => s
  | [k], s => addKey (shiftRows (s.map sbox)) k
  | k :: ks, s => aesRounds ks (addKey ((groupsOf 4 4 (shiftRows (s.map sbox))).flatMap mixColumn) k)

/-- Encrypt one block with its round keys. -/
def aesBlock (ks : List (List Nat)) (b : List Nat) : List Nat := aesRounds (ks.drop 1) (addKey b (ks.headD []))

/-! ## GCM -/

/-- Product in GF(2^128), bits in GCM's order: the most significant bit of the block is x^0. -/
def gmul128 (n : Nat) (z v x : Nat) : Nat :=
  match n with
  | 0 => z
  | n + 1 =>
    let z := if x / 2 ^ n % 2 = 1 then z ^^^ v else z
    let v := if v % 2 = 1 then v / 2 ^^^ (0xE1 * 2 ^ 120) else v / 2
    gmul128 n z v x

def padTo16 (bs : List Byte) : List Byte := bs ++ List.replicate ((16 - bs.length % 16) % 16) 0

def ghash (h : Nat) (bs : List Byte) : Nat :=
  (groupsOf 16 (bs.length / 16) bs).foldl (fun y b => gmul128 128 0 h (y ^^^ beNat b)) 0

def natsOf (bs : List Byte) : List Nat := bs.map (·.toNat)

/-- The key stream block for a counter value after a 12-byte IV. -/
def gcmStream (ks : List (List Nat)) (iv : List Byte) (c : Nat) : List Nat :=
  aesBlock ks (natsOf (iv ++ beBytes 4 c))

/-- Counter mode from counter 2. -/
def gcmCrypt (ks : List (List Nat)) (iv : List Byte) (bs : List Byte) : List Byte :=
  (groupsOf 16 (bs.length / 16 + 1) bs).zipIdx.flatMap (fun (b, i) =>
    List.zipWith (fun x k => x ^^^ BitVec.ofNat 8 k) b (gcmStream ks iv (i + 2)))

/-- The tag of a ciphertext with its additional data. -/
def gcmTag (ks : List (List Nat)) (iv aad ct : List Byte) : List Byte :=
  let h := beNat ((aesBlock ks (List.replicate 16 0)).map (BitVec.ofNat 8))
  let y := ghash h (padTo16 aad ++ padTo16 ct ++ beBytes 8 (8 * aad.length) ++ beBytes 8 (8 * ct.length))
  List.zipWith (fun x k => x ^^^ BitVec.ofNat 8 k) (beBytes 16 y) (gcmStream ks iv 1)

/-! ## CRC-32C -/

def crcStep : Nat → Nat → Nat
  | 0, c => c
  | n + 1, c => crcStep n (if c % 2 = 1 then c / 2 ^^^ 0x82F63B78 else c / 2)

/-- CRC-32C of a byte string. -/
def crc32c (bs : List Byte) : Nat :=
  (bs.foldl (fun c b => crcStep 8 (c ^^^ b.toNat)) 0xFFFFFFFF) ^^^ 0xFFFFFFFF

end Sys2Proof.Machine
end

