-- ==== Sys2Proof/Machine/Verify.lean ====
section
/-! DEFINITION.
What the configuration engine checks of a casting: header, frames, registers, tables, and the
closing checks over the shadow sets (R38, R43, R81, R82, R126, R136, R150, R176, R186, R195, R201,
R204, R252, R253, R255, R268, R274, R283, R289, R300). -/

namespace Sys2Proof.Machine

/-! ## Header (R274) -/

/-- Word i of the 64-byte header. -/
def hdrW (h : List Byte) (i : Nat) : Word := BitVec.ofNat 64 (leNat ((h.drop (8 * i)).take 8))

def hdrEnc (h : List Byte) : Bool := bit (hdrW h 0) 24
def hdrPartial (h : List Byte) : Bool := bit (hdrW h 0) 25
def hdrKey (h : List Byte) : Nat := fld (hdrW h 0) 32 3
def hdrLen (h : List Byte) : Nat := fld (hdrW h 1) 0 32
def hdrGeom (h : List Byte) (d : Nat) : Bool := bit (hdrW h 2) d
def hdrMould (h : List Byte) : Mould :=
  let w := hdrW h 3
  ⟨fld w 0 7, fld w 8 7, fld w 16 2, fld w 18 2⟩
def hdrFloor (h : List Byte) : Nat := fld (hdrW h 3) 24 10
/-- The IV's 12 bytes as they stand in the header. -/
def hdrIv (h : List Byte) : List Byte := (h.drop 32).take 12

/-- The IV of segment i: bits [31:0] XORed with i (R275). -/
def segIv (h : List Byte) (i : Nat) : List Byte :=
  List.zipWith (· ^^^ ·) (hdrIv h) (leBytes 4 i ++ List.replicate 8 0)

/-- MAGIC, reserved bits, KEYSLOT without ENC, FLOOR and BODYLEN (R274). -/
def hdrFormat (h : List Byte) : Bool :=
  let w := hdrW h
  let fl := hdrFloor h
  fld (w 0) 0 16 == 0xC0A5 && fld (w 0) 26 6 == 0 && fld (w 0) 35 29 == 0 &&
  (hdrEnc h || hdrKey h == 0) &&
  fld (w 1) 32 32 == 0 && hdrLen h % 8 == 0 && decide (16 ≤ hdrLen h ∧ hdrLen h ≤ 0x40000000) &&
  fld (w 2) 20 44 == 0 && !bit (w 3) 7 && !bit (w 3) 15 && fld (w 3) 20 4 == 0 && fld (w 3) 34 30 == 0 &&
  (fl == 0 || decide (100 ≤ fl ∧ fl ≤ 700)) && fld (w 5) 32 32 == 0 && w 6 == 0 && w 7 == 0

def Mould.ok (m : Mould) : Bool := decide (m.x0 ≤ m.x1 ∧ m.x1 ≤ 79 ∧ m.dy0 ≤ m.dy1)

/-- Two moulds share a die column. -/
def Mould.overlaps (a b : Mould) : Bool :=
  decide (a.x0 ≤ b.x1 ∧ b.x0 ≤ a.x1 ∧ a.dy0 ≤ b.dy1 ∧ b.dy0 ≤ a.dy1)

/-- The die column (die, logical column) lies in the mould. -/
def Mould.hasCol (m : Mould) (die col : Nat) : Bool :=
  let x := die % 5 * 16 + col
  decide (die < 20 ∧ m.x0 ≤ x ∧ x ≤ m.x1 ∧ m.dy0 ≤ die / 5 ∧ die / 5 ≤ m.dy1)

def Mould.has (m : Mould) (t : Nat) : Bool := m.hasCol (tidDie t) (tidCol t)

/-- The mould holds a die column of half h. -/
def Mould.touches (m : Mould) (h : Nat) : Bool :=
  let x := h / 2 % 5 * 16 + 8 * (h % 2)
  decide (h < 40 ∧ m.x0 ≤ x + 7 ∧ x ≤ m.x1 ∧ m.dy0 ≤ h / 10 ∧ h / 10 ≤ m.dy1)

/-- Half h is asked to be on and its tile rail is (R461). -/
def State.halfReady (s : State) (h : Nat) : Bool :=
  bit (s.devReg pgPwr (0x200 + 8 * h)) 52 && (s.pwr.half h).on

def State.pour (s : State) (c : Nat) : Pour := s.cast.pours.get c {}

def State.setPour (s : State) (c : Nat) (p : Pour) : State :=
  { s with cast := { s.cast with pours := s.cast.pours.put c p {} } }

/-- A full stream's mould, or a partial one's (R272): the context's own where it has a casting, else
any that meets no other context's mould. -/
def State.mouldAdmits (s : State) (c : Nat) (m : Mould) : Bool :=
  if (s.ctx c).live then (s.ctx c).mould == some m
  else (List.range 8).all (fun k => k == c || (match (s.ctx k).mould with
    | some m' => !m.overlaps m'
    | none => true))

/-- The key of a slot that is programmed and not revoked (R277, R492). -/
def State.castKey (s : State) (slot : Nat) : Option (BitVec 256) :=
  let f := s.mgt.fuses
  if f.prog.toNat / 2 ^ slot % 2 = 1 ∧ f.revoked.toNat / 2 ^ slot % 2 = 0 then some (f.keys.get slot 0) else none

/-- The first header check that fails (R289). -/
def State.hdrCheck (s : State) (c : Nat) (h : List Byte) : Option Err :=
  let m := hdrMould h
  if !hdrFormat h then some .castFormat
  else if fld (hdrW h 0) 16 8 ≠ 1 then some .castVersion
  else if hdrEnc h && (s.castKey (hdrKey h)).isNone then some .castKey
  else if !hdrEnc h && s.mgt.fuses.policy.toNat % 2 == 1 then some .castPlaintext
  else if !((s.ctx c).st == .bound || (s.ctx c).st == .running) then some .castContextState
  else if !m.ok || !s.mouldAdmits c m then some .castMould
  else if (List.range 20).any (fun d => hdrGeom h d && s.cols d == 15) then some .castGeometry
  else if (List.range 40).any (fun h => m.touches h && !s.halfReady h) then some .castRouteUnavailable
  else if (s.pour c).st != .idle ||
      (List.range 8).any (fun k => k != c && (s.pour k).st != .idle && m.overlaps (hdrMould (s.pour k).hdr)) then
    some .castBusy
  else if hdrPartial h && !(s.ctx c).live then some .castPartialBase
  else none

/-! ## Frames (R126, R136, R174 to R195, R247 to R256, R268) -/

/-- A SRC field names an input of its network or none (R171, R172). -/
def srcOk (net : Net) (v : Nat) : Bool := v == 15 || decide (v < net.inputs)

/-- The neighbour in direction d lies in the mould. -/
def State.inside (s : State) (m : Mould) (t d : Nat) : Bool :=
  match s.neighbour t d with
  | some u => m.has u
  | none => false

/-- Frame 0 of a tile (R174 to R176, R179, R181, R183). -/
def State.frame0Ok (s : State) (m : Mould) (t : Nat) (f : Nat → Word) : Bool :=
  let links (w : Word) : Bool := (List.range 4).all (fun d => srcOf w d == 15 || s.inside m t d)
  (List.range 12).all (fun o => srcOk .vec (srcOf (f 0) o) && srcOk .sca (srcOf (f 1) o)) &&
  (List.range 6).all (fun o => srcOk .ctl (srcOf (f 2) o)) &&
  fld (f 0) 48 16 == 0 && fld (f 1) 48 16 == 0 && fld (f 2) 24 8 == 0 && fld (f 2) 45 19 == 0 &&
  links (f 0) && links (f 1) && links (f 2) &&
  (List.range 4).all (fun d => !bit (f 2) (41 + d) || s.inside m t d) &&
  (List.range' 3 5).all (fun i => f i == 0) &&
  (List.range 4).all (fun i => fld (f (8 + i)) 38 26 == 0 && !(bit (f (8 + i)) 37 && fld (f (8 + i)) 14 14 == 0)) &&
  (List.range 4).all (fun i => fld (f (12 + i)) 7 57 == 0) &&
  (List.range 34).all (fun i => fld (f (16 + i)) 21 43 == 0 && decide (fld (f (16 + i)) 14 7 ≤ 64)) &&
  (List.range' 50 206).all (fun i => f i == 0)

/-- Frame 1 (R194, R195). -/
def frame1Ok (f : Nat → Word) : Bool :=
  (List.range 2).all (fun u =>
    let w := f (32 * u)
    fld w 7 57 == 0 && fld w 0 2 != 3 &&
    (List.range 16).all (fun k =>
      let st := f (32 * u + 1 + k)
      fld st 38 26 == 0 && fld st 0 3 != 7 && !(fld st 0 3 == 5 && decide (fld st 32 4 > 11)) &&
      !decide (12 ≤ fld st 32 4 ∧ fld st 32 4 ≤ 14)) &&
    (List.range' (32 * u + 17) 15).all (fun i => f i == 0)) &&
  (List.range' 64 192).all (fun i => f i == 0)

/-- Fields of word 0 and word 1 that an action kind uses, as masks (R255, R256). -/
def actMasks (kind : Nat) : Nat × Nat :=
  let base := 0xFF
  let cnt := 0xF00
  let amt := 0xFFFFFF000
  let msg := amt + 0x3FF000000000
  let dest := 0x3FFFFFFF + 0x7000000000000
  match kind with
  | 0 => (0xF, 0)
  | 1 => (base + cnt + amt, 0)
  | 2 => (base + cnt + amt, 0)
  | 3 => (base + cnt + amt, 0)
  | 4 => (base + cnt, 0)
  | 5 => (base + msg, dest)
  | 6 => (base + msg, dest)
  | 7 => (base + cnt + msg + 0xC00000000000, dest)
  | 8 => (base + cnt + msg + 0x400000000000, dest + 0xFFFFC0000000)
  | 9 => (base + amt + 0x3000000000000 + 0x60000000000000, 0)
  | 10 => (base + amt + 0x1C000000000000, 0)
  | 11 => (base + 0x1C000000000000, 0)
  | 12 => (base + 0x1C000000000000, 0)
  | _ => (0, 0)

/-- A word has no bit outside a mask. -/
def within (w : Word) (mask : Nat) : Bool := w &&& ~~~(BitVec.ofNat 64 mask) == 0

/-- Reserved bits of a nest, which are checked whether it is enabled or not (R268). -/
def nestReserved (f : Nat → Word) (n : Nat) : Bool :=
  let w (i : Nat) : Word := f (32 * n + i)
  fld (w 0) 13 51 == 0 && fld (w 2) 42 22 == 0 && w 3 == 0 &&
  (List.range 3).all (fun o => !bit (w 2) (14 * o + 13)) &&
  (List.range 6).all (fun j => fld (w (4 + 2 * j)) 47 17 == 0 && fld (w (5 + 2 * j)) 42 22 == 0) &&
  (List.range 8).all (fun a => fld (w (16 + 2 * a)) 55 9 == 0 && fld (w (17 + 2 * a)) 51 13 == 0)

/-- Fields of an enabled nest (R248 to R256, R268). -/
def nestFields (f : Nat → Word) (n : Nat) : Bool :=
  let w (i : Nat) : Word := f (32 * n + i)
  let c := NestCtl.ofWord (w 0)
  let nlev := fld (w 0) 1 3
  let lv := List.range nlev
  let bindOk (o : Nat) : Bool :=
    let g := fld (w 2) (14 * o) 14
    let mode := g % 4
    let hlvl := g / 64 % 8
    mode != 3 && hlvl != 6 && g / 512 % 4 != 3 &&
    !(mode == 2 && (g / 16 % 4 != 0 || (hlvl != 7 && decide (hlvl ≥ nlev))))
  let actOk (a : Nat) : Bool :=
    let w0 := w (16 + 2 * a)
    let (m0, m1) := actMasks (actKind w0)
    decide (actKind w0 ≤ 12) && within w0 m0 && within (w (17 + 2 * a)) m1 &&
    (actKind w0 == 0 || fld w0 4 3 != 6) &&
    (actKind w0 != 9 || (fld w0 48 2 != 3 && fld (w 2) (14 * fld w0 48 2) 2 == 1))
  decide (1 ≤ nlev ∧ nlev ≤ 6) && fld (w 0) 4 2 != 3 &&
  (fld (w 0) 4 2 == 1 || decide (fld (w 0) 6 6 ≤ 15)) && c.en &&
  (List.range 3).all bindOk && (List.range 8).all actOk &&
  (List.range' nlev (6 - nlev)).all (fun j => w (4 + 2 * j) == 0 && w (5 + 2 * j) == 0) &&
  lv.all (fun p => lv.any (fun j => lvPos (w (4 + 2 * j)) == p)) &&
  lv.all (fun j => lvSrc (w (4 + 2 * j)) != 3 && !(lvSrc (w (4 + 2 * j)) == 0 && lvBound (w (4 + 2 * j)) == 0))

/-- Frame 2 (R268). -/
def frame2Ok (f : Nat → Word) : Bool :=
  (List.range 8).all (fun n => nestReserved f n && (!bit (f (32 * n)) 0 || nestFields f n))

/-- Frame 3: reserved bits and the reserved range (R125, R126, R136 to R138, R155). -/
def frame3Ok (f : Nat → Word) : Bool :=
  (List.range 16).all (fun i => fld (f (2 * i)) 44 20 == 0 && fld (f (2 * i + 1)) 42 22 == 0) &&
  (List.range 64).all (fun i =>
    let w := f (32 + 2 * i)
    fld w 62 2 == 0 && !((bit w 60 || bit w 61) && fld (f (33 + 2 * i)) 46 18 != 0)) &&
  (List.range 16).all (fun i => fld (f (160 + 2 * i)) 60 4 == 0 && fld (f (161 + 2 * i)) 60 4 == 0) &&
  (List.range' 192 64).all (fun i => f i == 0)

/-- The check of one frame as it is written (R289). -/
def State.frameCheck (s : State) (m : Mould) (t fr : Nat) (f : Nat → Word) : Option Err :=
  match fr with
  | 0 => if s.frame0Ok m t f then none else some .castFabricInvalid
  | 1 => if frame1Ok f then none else some .castFabricInvalid
  | 2 => if frame2Ok f then none else some .castNestInvalid
  | _ => if frame3Ok f then none else some .castEngineInvalid

/-! ## Registers and tables (R38, R81, R82, R150, R283) -/

/-- The registers a casting writes, each with the mask of its fields (R10, R283). none: not one. -/
def cregMask (page off : Nat) : Option Nat :=
  let full := 2 ^ 64 - 1
  if off % 8 ≠ 0 then none
  else match page with
  | 0 => if off = 0x108 then some 0x1F
    else if 0x110 ≤ off ∧ off ≤ 0x128 then some full
    else if off = 0x140 then some 0xFFFF else none
  | 1 => if off = 0x100 then some 0x7FFFF
    else if 0x180 ≤ off ∧ off ≤ 0x1F8 then some (2 ^ 47 - 1) else none
  | 2 => if 0x180 ≤ off ∧ off ≤ 0x1F8 then some (2 ^ 37 - 1)
    else if 0x200 ≤ off ∧ off ≤ 0x238 then some (2 ^ 40 - 1) else none
  | 3 => if off = 0x108 then some 0xFFFFFFFF
    else if off = 0x130 then some 0x3FFF
    else if off = 0x138 then some full
    else if 0x140 ≤ off ∧ off ≤ 0x158 then some 0xFF07
    else if 0x170 ≤ off ∧ off ≤ 0x188 then some 0xFFFFFFFF0000000F
    else if 0x190 ≤ off ∧ off ≤ 0x1A8 then some full else none
  | _ => none

/-- The enabled banks are a union of whole interleave groups (R31, R38). -/
def banksOk (w : Word) : Bool :=
  let groups : List (List Nat) := match fld w 16 2 with
    | 0 => [List.range 16]
    | 1 => [List.range 8, List.range' 8 8]
    | _ => [List.range 4, List.range' 4 4, List.range' 8 4, List.range' 12 4]
  fld w 16 2 != 3 && groups.all (fun g => g.all (bit w) || g.all (fun b => !bit w b))

/-- A field value that its table marks invalid or reserved (R31, R42, R82, R91, R201, R283). -/
def cregValueOk (page off : Nat) (v : Word) : Bool :=
  if page = 0 ∧ off = 0x108 then decide (1 ≤ fld v 0 5 ∧ fld v 0 5 ≤ 16)
  else if page = 1 ∧ off = 0x100 then banksOk v
  else if page = 1 then decide (fld v 14 15 ≤ 16384) && !(fld v 29 2 != 0 && fld v 14 15 == 0)
  else if page = 2 ∧ off ≥ 0x200 then fld v 0 2 != 3
  else if page = 3 ∧ off = 0x130 then fld v 0 2 != 3
  else if page = 3 ∧ 0x140 ≤ off ∧ off ≤ 0x158 then fld v 0 2 != 3
  else true

/-- An FP32 code is neither NaN nor infinite. -/
def fp32Finite (c : Nat) : Bool := c / 2 ^ 23 % 256 != 255

def fp32NaN (c : Nat) : Bool := c / 2 ^ 23 % 256 == 255 && c % 2 ^ 23 != 0

/-- A table entry may be loaded (R81, R82, R150). KIND 1 takes ENTRY 255 too, which R82 gives no threshold and no
error: it is stored and read back, maps no rank, and is refused where it is a NaN (DESIGN CHOICE, log 127). -/
def tblEntryOk (kind entry : Nat) (v : Word) : Bool :=
  match kind with
  | 0 => fld v 0 4 == 0
  | 1 => !fp32NaN (fld v 0 32)
  | _ => decide (entry ≤ 127) && fp32Finite (fld v 0 32) &&
    (if entry % 2 = 0 then fp32Finite (fld v 32 32) else fld v 32 32 == 0)

/-- Table place that `TEN_TBLIDX` selects: kind, table, entry. -/
def tblSel (w : Word) : Nat × Nat × Nat := (fld w 0 2, fld w 2 2, fld w 4 8)

/-- Load a word of the shadow register set; a write of `TEN_TBLDATA` loads the selected entry and
advances ENTRY under AUTOINC (R91, R283). -/
def Tile.writeCreg (x : Tile) (page off : Nat) (v : Word) : Tile :=
  if page = 3 ∧ off = 0x138 then
    let ix := x.shadowReg 3 0x130
    let (k, tb, e) := tblSel ix
    let x := { x with cfg := { x.cfg with tblShadow := x.cfg.tblShadow.put (k * 4096 + tb * 256 + e) v 0 } }
    if bit ix 12 then x.setShadowReg 3 0x130 (setFld ix 4 8 (e + 1)) else x
  else x.setShadowReg page off (v &&& BitVec.ofNat 64 ((cregMask page off).getD 0))

/-! ## Closing checks over the shadow sets (R289) -/

/-- Plane and dwell of shadow step i; the number of steps. -/
def Tile.shSteps (x : Tile) : List (Nat × Nat) :=
  (List.range (fld (x.shadowReg 0 0x108) 0 5)).map (fun i =>
    let w := x.shadowReg 0 (0x110 + 8 * (i / 4))
    (fld w (16 * (i % 4)) 2, fld w (16 * (i % 4) + 2) 14))

/-- Planes the shadow plane sequence names. -/
def Tile.shPlanes (x : Tile) : List Nat := (x.shSteps.map (·.1)).eraseDups

/-- Dwells and equal descriptors (R176, R201, R204). -/
def Tile.fabricClosed (x : Tile) : Bool :=
  (x.shSteps.length ≤ 1 || x.shSteps.all (fun q => q.2 != 0)) &&
  (match x.shPlanes with
  | [] => true
  | p :: ps => ps.all (fun q => (List.range' 8 42).all (fun i => x.scword p 0 i == x.scword q 0 i)))

/-- A run of lines lies in the scratchpad and in enabled banks of a `TSP_SPCTRL` value. -/
def linesIn (w : Word) (base n : Nat) : Bool :=
  decide (base + n ≤ 16384) && (List.range n).all (fun i => bit w (bankOf (fld w 16 2) ((base + i) * 64)))

/-- Queue regions against banks, landing rings and windows (R186). -/
def Tile.queuesClosed (x : Tile) : Bool :=
  let p := x.shPlanes.headD 0
  let sp := x.shadowReg 1 0x100
  let qs := (List.range 34).filterMap (fun i =>
    let w := x.scword p 0 (16 + i)
    if fld w 14 7 = 0 then none else some (i, fld w 0 14, fld w 14 7))
  let rings := (List.range 4).filterMap (fun i =>
    let w := x.scword p 0 (8 + i)
    if bit w 37 then some (100 + i, fld w 0 14, fld w 14 14) else none)
  let wins := (List.range 16).filterMap (fun i =>
    let w := Win.ofWord (x.shadowReg 1 (0x180 + 8 * i))
    if w.mode = 0 then none else some (200 + i, w.base, w.size))
  qs.all (fun (i, b, n) => linesIn sp b n &&
    (qs ++ rings ++ wins).all (fun (j, b', n') => i == j || decide (b + n ≤ b' ∨ b' + n' ≤ b)))

/-- Window entries and bank sets (R38, R43). -/
def Tile.windowsClosed (x : Tile) : Bool :=
  let sp := x.shadowReg 1 0x100
  banksOk sp && (List.range 16).all (fun i => winOk sp (x.shadowReg 1 (0x180 + 8 * i)))

/-- The thresholds of every encode table rise (R82). -/
def Tile.tablesClosed (x : Tile) : Bool :=
  (List.range 4).all (fun tb =>
    let v (i : Nat) : Val := fp32L.decode (fld (x.cfg.tblShadow.get (4096 + tb * 256 + i) 0) 0 32)
    (List.range 254).all (fun i => !(v (i + 1)).lt (v i)))

/-- A nest uses the loop nest word input: a level with SRC 1, or a local CLAIM (R252). -/
def Tile.shWordUse (x : Tile) (t p n : Nat) : Bool × Bool :=
  let w (i : Nat) : Word := x.scword p 2 (32 * n + i)
  if !bit (w 0) 0 then (false, false)
  else
    ((List.range (fld (w 0) 1 3)).any (fun j => lvSrc (w (4 + 2 * j)) == 1),
     (List.range 8).any (fun a => actKind (w (16 + 2 * a)) == 8 && fld (w (17 + 2 * a)) 0 13 == t))

/-- Words 0 of the descriptor a nest names: its NEST field and the place of that field. -/
def Tile.shDesc (x : Tile) (p engine desc : Nat) : Word × Nat :=
  match engine with
  | 0 => (x.scword p 3 (2 * desc), 26)
  | 1 => (x.scword p 3 (32 + 2 * desc), 29)
  | _ => (x.scword p 3 (160 + 2 * desc), 22)

/-- The accumulation rules of a matrix nest (R253). -/
def Tile.accRules (x : Tile) (p n : Nat) (dw : Word) : Bool :=
  let w (i : Nat) : Word := x.scword p 2 (32 * n + i)
  (List.range (fld (w 0) 1 3)).all (fun j =>
    let w0 := w (4 + 2 * j)
    let w1 := w (5 + 2 * j)
    let acc := lvAcc w0 || (fld dw 21 2 == 2 && fld dw 29 3 == j)
    let still := fld w1 21 21 == 0 && lvSlotStr w0 == 0
    let moves := fld w0 26 21 != 0 || fld w1 0 21 != 0
    (!acc || still) && (!(still && moves) || acc))

/-- Nests against descriptors, in every plane, and the word input, over the planes of the plane sequence (R252,
R268). -/
def Tile.nestsClosed (x : Tile) (t : Nat) : Bool :=
  let ps := x.shPlanes
  let all := List.range 4
  let on (p n : Nat) : Bool := bit (x.scword p 2 (32 * n)) 0
  let eng (p n : Nat) : Nat := fld (x.scword p 2 (32 * n)) 4 2
  let dsc (p n : Nat) : Nat := fld (x.scword p 2 (32 * n)) 6 6
  let uses := ps.flatMap (fun p => (List.range 8).map (fun n => x.shWordUse t p n))
  all.all (fun p => (List.range 8).all (fun n => !on p n ||
    (let (dw, at_) := x.shDesc p (eng p n) (dsc p n)
     fld dw at_ 3 == n &&
     (List.range 8).all (fun k => k == n || !on p k || !(eng p k == eng p n && dsc p k == dsc p n)) &&
     (eng p n != 0 || (fld dw 0 4 != 0 && x.accRules p n dw))))) &&
  decide ((uses.filter (fun u => u.1 || u.2)).length ≤ 1) &&
  !(all.any (fun p => (List.range 8).any (fun n => (x.shWordUse t p n).2)) &&
    ps.any (fun p => srcOf (x.scword p 0 1) 11 != 15))

/-- Marker links of the shadow sets of a mould: from a tile's MARK_OUT to its neighbour's MARK_IN,
in the plane of step 0 (R300). -/
def State.markEdges (s : State) (ts : List Nat) : List (Nat × Nat) :=
  let word (t : Nat) : Word := (s.tile t).scword ((s.tile t).shPlanes.headD 0) 0 2
  ts.flatMap (fun t => (List.range 4).filterMap (fun d =>
    match s.neighbour t d with
    | some u => if bit (word t) (41 + d) && ts.contains u && bit (word u) (36 + opp d) then some (t, u) else none
    | none => none))

/-- Tiles reached from a set along links, in at most n steps. -/
def reach (es : List (Nat × Nat)) : Nat → List Nat → List Nat
  | 0, r => r
  | n + 1, r =>
    let more := ((es.filter (fun (a, b) => r.contains a && !r.contains b)).map (·.2)).eraseDups
    if more.isEmpty then r else reach es n (r ++ more)

/-- What is left of the links when those no other link leads to are taken away again and again. -/
def peel : Nat → List (Nat × Nat) → List (Nat × Nat)
  | 0, es => es
  | n + 1, es => peel n (es.filter (fun (a, _) => es.any (fun (_, b) => b == a)))

/-- Destinations of a tile's DIRECT and SEND records and of its nests' message actions (R300). -/
def Tile.shDests (x : Tile) : List Nat :=
  (List.range 8).filterMap (fun r =>
    let w := x.shadowReg 2 (0x200 + 8 * r)
    if recKind w = 1 ∨ recKind w = 2 then some (recDest w) else none) ++
  x.shPlanes.flatMap (fun p => (List.range 8).flatMap (fun n =>
    if bit (x.scword p 2 (32 * n)) 0 then (List.range 8).filterMap (fun a =>
      let k := actKind (x.scword p 2 (32 * n + 16 + 2 * a))
      if 5 ≤ k ∧ k ≤ 8 then some (fld (x.scword p 2 (32 * n + 17 + 2 * a)) 0 13) else none)
    else []))

/-- The marker tree (R300). -/
def State.markersClosed (s : State) (ts : List Nat) : Bool :=
  let es := s.markEdges ts
  let n := ts.length
  let origins := ts.filter (fun t => bit ((s.tile t).scword ((s.tile t).shPlanes.headD 0) 0 2) 40)
  let all := reach es n origins
  ts.all (fun t => all.contains t) && (peel n es).isEmpty &&
  ts.all (fun t =>
    let ds := (s.tile t).shDests.filter (fun d => d != t && ts.contains d)
    ds.isEmpty || (let r := reach es n [t]; ds.all (fun d => r.contains d)))

/-- The first closing check that fails, in table order (R289). -/
def State.closingCheck (s : State) (ts : List Nat) : Option Err :=
  if !ts.all (fun t => (s.tile t).fabricClosed) then some .castFabricInvalid
  else if !ts.all (fun t => (s.tile t).queuesClosed) then some .castQueueSpace
  else if !ts.all (fun t => (s.tile t).windowsClosed) then some .castCregInvalid
  else if !ts.all (fun t => (s.tile t).tablesClosed) then some .castTableInvalid
  else if !ts.all (fun t => (s.tile t).nestsClosed t) then some .castNestInvalid
  else if !s.markersClosed ts then some .castMarker
  else none

end Sys2Proof.Machine
end

