-- ==== Sys2Proof/Machine/Casting.lean ====
section
/-! DEFINITION.
Pours and recasts (R271 to R309): the configuration engine, its messages, the tiles' shadow sets, the
exchange and the RECAST marker. Command words of the body are executed one command at a time, from
the head of the verified words. -/

namespace Sys2Proof.Machine

/-! ## Management and configuration messages (R308, R480) -/

/-- A tile leaves OFF for IDLE: its clock starts, its statistics start from 0, and it learns the run
states (R219, R462, R521); after a FATAL stop it comes up halted (R362). -/
def leaveOff (t : Nat) (s : State) : State :=
  if (s.tile t).clk.pstate != .off then s
  else
    let p := periodOf (s.pwr.half (halfOf t)).freq
    let halt := (s.hdr (pgTile t 0)).halt
    let s := s.onTile t (fun x => { x with clk := { pstate := .idle, per := p, hist := [(0, p)] }
                                           cfg := { x.cfg with halted := x.cfg.halted || halt || s.stop.fatal } })
    let s := { s with stats := s.stats.filter (fun (k, _) => decide (k / 2048 ≠ pgTile t 0 / 4)) }
    sendAll [mgtMsg 0x33 0 t s.runStates 0 0 []] s

/-- Tiles at which packets from outside a mould meet its first router: those with a neighbour that is missing or
outside (R303), and those whose router a Tier 1 mover is attached to (R304, R398). -/
def State.border (s : State) (m : Mould) : List Nat :=
  (s.mouldTiles m).filter (fun t => (List.range 4).any (fun d => !s.inside m t d) || tidCol t % 4 == 1)

/-- Raise or lower the fence of a context's mould (R303, R308). -/
def sendFence (c : Nat) (on : Bool) (s : State) : State :=
  let s := s.onCtx c (fun x => { x with fence := on })
  match (s.ctx c).mould with
  | some m => sendAll ((s.border m).map (fun t => cfgMsg 0x28 c t (if on then 1 else 0) 0 [])) s
  | none => s

/-! ## Registers of the CFG page (R310) -/

/-- `CFG_POURn` as it reads. -/
def State.pourReg (s : State) (c : Nat) : Word :=
  let p := s.pour c
  packW [(2, p.st.toNat), (1, b2n (hdrPartial p.hdr)), (1, b2n (hdrEnc p.hdr)), (3, hdrKey p.hdr),
    (1, b2n p.auto), (8, p.group), (32, p.segs), (16, p.pending.length)]

/-- Bytes of context c's casting hash. -/
def State.castHash (s : State) (c : Nat) : List Byte :=
  (List.range 4).flatMap (fun w => leBytes 8 (s.devReg pgCfg (0x200 + 0x20 * c + 8 * w)).toNat)

def setCastHash (c : Nat) (h : List Byte) (s : State) : State :=
  (List.range 4).foldl (fun s w => s.setDevReg pgCfg (0x200 + 0x20 * c + 8 * w) (hdrW h w)) s

/-! ## Sessions (R446) -/

def State.session (s : State) (c : Nat) : Option Session := s.cast.sess.get c none

def setSession (c : Nat) (v : Option Session) (s : State) : State :=
  { s with cast := { s.cast with sess := s.cast.sess.put c v none } }

/-- Put a packet into a port's outgoing queue; a port that is not UP has none (R448). -/
def outPkt (p typ src : Nat) (pk : LnmPkt) (ackOf : Option Msg) (s : State) : State :=
  let q := s.lnm.get p {}
  if q.st = .up then
    { s with lnm := s.lnm.put p { q with outq := q.outq ++ [⟨typ, src, pk, ackOf⟩] } {} }
  else s

/-- CFG_RESP with the credit granted so far (R446). -/
def cfgResp (p c tag status credit : Nat) (s : State) : State :=
  outPkt p 0x09 8 { tctx := c, first := true, last := true, tag := tag, status := status, extra := credit % 2 ^ 32 } none s

def segCount (h : List Byte) : Nat := cdiv (hdrLen h) 65536

/-- Body bytes of segment i (R273). -/
def segLen (h : List Byte) (i : Nat) : Nat := min 65536 (hdrLen h - 65536 * i)

/-- Stream bytes that the configuration engine takes before it can go on: the header, a segment with its tag,
the final tag (R273). -/
def Pour.unit (p : Pour) : Nat :=
  if p.hdr.isEmpty then 64 else if p.segs < segCount p.hdr then segLen p.hdr p.segs + 16 else 16

/-- What the engine has consumed: every byte that has arrived and does not wait behind the unit it takes.
CFG_RESP at each 16 KiB, and at the final tag (R446). -/
def consume (c : Nat) (fin : Bool) (s : State) : State :=
  match s.session c with
  | none => s
  | some e =>
    let p := s.pour c
    let k := e.spent - (p.inb.length - p.unit)
    let g := if fin then 65536 + k else 65536 + k / 16384 * 16384
    let s := setSession c (some { e with consumed := k, granted := max e.granted g }) s
    if fin || decide (g > e.granted) then cfgResp e.port c 0 0 g s else s

/-! ## Rejection and abort (R291, R292) -/

/-- Discard a pour: the shadow sets of its mould go, and a context without a live casting gives up the
mould that SET_MOULD assigned (R272, R291). -/
def discardPour (c : Nat) (s : State) : State :=
  let p := s.pour c
  let giveUp := p.moulded && !(s.ctx c).live
  let s := if p.moulded then
      sendAll ((s.mouldTiles (hdrMould p.hdr)).map (fun t => cfgMsg 0x27 c t 0 (b2n giveUp) [])) s
    else s
  let s := if giveUp then s.onCtx c (fun x => { x with mould := none }) else s
  let s := if p.st = .pouring then setSession c none s else s
  s.setPour c {}

/-- Reject a stream in segment `seg` (R291): the error, `CFG_REJ`, the event, the discard. The address is a FAR or
a TID. -/
def rejectIn (c seg : Nat) (e : Err) (far tid : Option Nat) (s : State) : State :=
  let w := packW [(5, e.bit), (3, c), (17, (far.orElse (fun _ => tid)).getD 0), (1, b2n far.isSome), (32, seg)]
  let s := s.setDevReg pgCfg 0x180 w
  let s := raise pgCfg e [] none s
  emit 0x0020 (some c) [w] none (discardPour c s)

/-- Reject a stream outside its commands: the segment is the one that follows those that have passed (DESIGN
CHOICE, assumption 109). -/
def reject (c : Nat) (e : Err) (far tid : Option Nat) (s : State) : State :=
  rejectIn c (s.pour c).segs e far tid s

/-- Reject a stream at a command, or a frame, whose first word follows those that pour `p` has executed: the
segment is the one that word lies in (R273, R291). -/
def Pour.rejectAt (p : Pour) (c : Nat) (e : Err) (far tid : Option Nat) (s : State) : State :=
  rejectIn c (p.done.length / 8192) e far tid s

/-- Abort a pour that is POURING or ARMED (R292). -/
def abortPour (c : Nat) (s : State) : State :=
  match (s.pour c).st with
  | .pouring => reject c .castAborted none none s
  | .armed => reject c .castAborted none none s
  | _ => s

/-! ## Stream (R273 to R278) -/

/-- POUR_HEADER (R274, R289): 64 header bytes have arrived. -/
def pourHeader (c : Nat) (s : State) : State :=
  let p := s.pour c
  match s.session c with
  | none => s
  | some e =>
    if e.ended || p.st != .idle || decide (p.inb.length < 64) then s
    else
      let h := p.inb.take 64
      let s := s.setPour c { p with inb := p.inb.drop 64 }
      match s.hdrCheck c h with
      | some er =>
        let s := reject c er none none s
        setSession c (some { e with ended := true }) s
      | none =>
        consume c false (s.setPour c { st := .pouring, hdr := h, inb := p.inb.drop 64, lastByteAt := p.lastByteAt })

/-- POUR_HEADER (R289). -/
def execPourHeader (c : Fin 8) (s : State) : Host.Outcome State Fault Refusal := .next (pourHeader c.val s)

/-- Round keys of a pour's slot. -/
def State.pourKeys (s : State) (h : List Byte) : List (List Nat) :=
  aesKeys (natsOf (leBytes 32 (s.mgt.fuses.keys.get (hdrKey h) 0).toNat))

/-- Tag and plaintext of a segment (R275, R276). -/
def State.openSeg (s : State) (h : List Byte) (i : Nat) (bs : List Byte) : List Byte × List Byte :=
  if hdrEnc h then
    let ks := s.pourKeys h
    (gcmTag ks (segIv h i) (h ++ leBytes 4 i) bs, gcmCrypt ks (segIv h i) bs)
  else ((sha256 (h ++ leBytes 4 i ++ bs)).take 16, bs)

/-- SEGMENT (R278): the next segment and its tag have arrived; the words of one that passes await
execution. -/
def segment (c : Nat) (s : State) : State :=
  let p := s.pour c
  let n := segLen p.hdr p.segs
  if p.st != .pouring || decide (p.segs ≥ segCount p.hdr) || decide (p.inb.length < n + 16) then s
  else
    let tag := (p.inb.drop n).take 16
    let (want, plain) := s.openSeg p.hdr p.segs (p.inb.take n)
    if tag != want then reject c .castTag none none s
    else
      let ws := (groupsOf 8 (n / 8) plain).map (fun b => BitVec.ofNat 64 (leNat b))
      consume c false (s.setPour c
        { p with inb := p.inb.drop (n + 16), segs := p.segs + 1, tags := p.tags ++ tag, words := p.words ++ ws })

/-- SEGMENT (R278). -/
def execSegment (c : Fin 8) (s : State) : Host.Outcome State Fault Refusal := .next (segment c.val s)

/-! ## Command words (R279, R280) -/

def cmdOp (w : Word) : Nat := fld w 56 8

/-- Execute the command at the head of the verified words when its opcode is `op`: an unknown opcode
or a command that breaks the order of R280 rejects the stream. -/
def onCmd (c op : Nat) (f : Pour → Word → List Word → State → State) (s : State) : State :=
  let p := s.pour c
  if p.st != .pouring || p.left != 0 || p.ended then s
  else match p.words with
  | [] => s
  | w :: rest =>
    if cmdOp w > 7 then p.rejectAt c .castFormat none none s
    else if cmdOp w != op then s
    else if (!p.moulded && op != 1) || (p.armed && op != 7) then p.rejectAt c .castFormat none none s
    else f p w rest s

/-- The pour after n of its words have been executed. -/
def Pour.took (p : Pour) (n : Nat) : Pour :=
  { p with done := (p.words.take n).reverse ++ p.done, words := p.words.drop n }

/-- A command of no data words whose operand lies within a mask. -/
def plainCmd (c op mask : Nat) (f : Pour → Word → State → State) (s : State) : State :=
  onCmd c op (fun p w _ s =>
    if !within w (0xFF00000000000000 + mask) then p.rejectAt c .castFormat none none s
    else f p w (s.setPour c (p.took 1))) s

/-- NOP (R279). -/
def execNop (c : Fin 8) (s : State) : Host.Outcome State Fault Refusal :=
  .next (plainCmd c.val 0 0 (fun _ _ s => s) s)

/-- SET_MOULD (R272, R280, R288): the rectangle becomes the context's mould, and every tile prepares
its shadow set. -/
def execSetMould (c : Fin 8) (s : State) : Host.Outcome State Fault Refusal :=
  .next (plainCmd c.val 1 0xFFFFF (fun p w s =>
    if p.moulded || fld w 0 20 != fld (hdrW p.hdr 3) 0 20 then p.rejectAt c.val .castFormat none none s
    else
      let m := hdrMould p.hdr
      let s := s.setPour c.val { s.pour c.val with moulded := true }
      let s := s.onCtx c.val (fun x => { x with mould := some m })
      sendAll ((s.mouldTiles m).map (fun t => cfgMsg 0x20 c.val t 0 (b2n (hdrPartial p.hdr)) [])) s) s)

/-- SET_FAR (R281). -/
def execSetFar (c : Fin 8) (s : State) : Host.Outcome State Fault Refusal :=
  .next (plainCmd c.val 2 0x1FFFF (fun _ w s => s.setPour c.val { s.pour c.val with far := some (fld w 0 17) }) s)

/-- Why a frame or register target is refused (R287, R290). -/
def State.targetCheck (s : State) (m : Mould) (die col : Nat) : Option Err :=
  if !m.hasCol die col then some .castOutOfMould
  else if s.physCol die col == 31 then some .castGeometry
  else none

/-- Write the next frame of a WRITE_FRAMES whose data words have arrived (R282). -/
def writeFrame (c : Nat) (s : State) : State :=
  let p := s.pour c
  match p.far with
  | none => s
  | some far =>
    if p.st != .pouring || p.left == 0 || decide (p.words.length < 256) then s
    else
      let die := far / 4096
      let col := far / 256 % 16
      let t := die * 256 + far / 4 % 16 * 16 + col
      let m := hdrMould p.hdr
      let ws := p.words.take 256
      match s.targetCheck m die col with
      | some e => p.rejectAt c e (some far) none s
      | none =>
        match s.frameCheck m t (far % 4) (fun i => ws.getD i 0) with
        | some e => p.rejectAt c e (some far) none s
        | none =>
          let s := sendAll [cfgMsg 0x21 c t (BitVec.ofNat 64 far) 0 (ws.flatMap (fun w => leBytes 8 w.toNat))] s
          s.setPour c { p.took 256 with far := some (far + 1), left := p.left - 1 }

/-- WRITE_FRAMES (R282): the command word is taken, then every frame whose words have passed. A run that would
take the FAR past 0x1_FFFF is an operand fault, which comes before any target (R289). -/
def execWriteFrames (c : Fin 8) (s : State) : Host.Outcome State Fault Refusal :=
  let go (s : State) : State :=
    (List.range (s.pour c.val).left).foldl (fun s _ => writeFrame c.val s) s
  .next (if (s.pour c.val).left = 0 then
      go (plainCmd c.val 3 0x1FFF (fun p w s =>
        let n := fld w 0 13
        if p.far.isNone || n == 0 || decide (n > 4096) || decide (p.far.getD 0 + n > 0x1FFFF) then p.rejectAt c.val .castFormat none none s
        else s.setPour c.val { s.pour c.val with left := n }) s)
    else go s)

/-- No configuration message to tile t is on its way, in a router or in the tile's inbox. -/
def State.cfgQuiet (s : State) (t : Nat) : Bool :=
  !s.routers.any (fun (_, q) => q.any (fun p => p.msg.src == unitCfg && p.msg.dest == t)) &&
  !(s.inbox.get t []).any (fun m => m.msg.src == unitCfg)

/-- WRITE_CREG (R283): one register of the tiles its SCOPE names. A table entry is checked against
the tile's own `TEN_TBLIDX`, once the tile has taken every earlier message. -/
def writeCreg (c : Nat) (s : State) : State :=
  onCmd c 4 (fun p w rest s =>
    match rest with
    | [] => s
    | v :: _ =>
      let tid := fld w 0 13
      let page := fld w 13 2
      let off := fld w 15 12
      let scope := fld w 27 2
      let m := hdrMould p.hdr
      let die := tidDie tid
      let ts := match scope with
        | 0 => [tid]
        | 1 => (List.range 16).map (fun r => die * 256 + r * 16 + tidCol tid)
        | _ => s.mouldTiles m
      let tbl := page = 3 ∧ off = 0x138
      if !within w (0xFF00000000000000 + 0x1FFFFFFF) then p.rejectAt c .castFormat none none s
      else match (if scope ≤ 1 then s.targetCheck m die (tidCol tid) else none) with
      | some e => p.rejectAt c e none (some tid) s
      | none =>
        if scope = 3 ∨ (cregMask page off).isNone ∨ !cregValueOk page off v then
          p.rejectAt c .castCregInvalid none (some tid) s
        else if tbl ∧ !ts.all s.cfgQuiet then s
        else if tbl ∧ !ts.all (fun t =>
            let (k, _, e) := tblSel ((s.tile t).shadowReg 3 0x130)
            tblEntryOk k e v) then
          p.rejectAt c .castTableInvalid none (some tid) s
        else
          let sel (t : Nat) : Word := packW [(13, t), (2, page), (12, off), (2, 0)]
          sendAll (ts.map (fun t => cfgMsg 0x22 c t (sel t) 0 (leBytes 8 v.toNat))) (s.setPour c (p.took 2))) s

/-- WRITE_CREG (R283). -/
def execWriteCreg (c : Fin 8) (s : State) : Host.Outcome State Fault Refusal := .next (writeCreg c.val s)

/-- Bytes of the executed body words. -/
def Pour.bodyBytes (p : Pour) : List Byte := p.done.reverse.flatMap (fun w => leBytes 8 w.toNat)

/-- HASH_CHECK (R284). -/
def hashCheck (c : Nat) (s : State) : State :=
  onCmd c 5 (fun p w rest s =>
    if !within w 0xFF00000000000000 then p.rejectAt c .castFormat none none s
    else if rest.length < 4 then s
    else if (rest.take 4).flatMap (fun w => leBytes 8 w.toNat) != sha256 p.bodyBytes then p.rejectAt c .castHash none none s
    else s.setPour c (p.took 5)) s

/-- HASH_CHECK (R284). -/
def execHashCheck (c : Fin 8) (s : State) : Host.Outcome State Fault Refusal := .next (hashCheck c.val s)

/-- The enabled coordinator of context c with this GID (R348). -/
def State.coordOf (s : State) (c gid : Nat) : Option Nat :=
  (s.tiles.find? (fun (_, x) => x.owner == some c && x.cg.coord.st != 0 && cgGid x.cgc == gid)).map (·.1)

/-- ARM (R285, R293, R348): fill and read-back start in every tile. -/
def execArm (c : Fin 8) (s : State) : Host.Outcome State Fault Refusal :=
  .next (plainCmd c.val 6 0xFF01 (fun p w s =>
    let g := fld w 8 8
    let co := s.coordOf c.val g
    let x := s.tile (co.getD 0)
    if g ≠ 0 ∧ (co.isNone ∨ cgNlist x.cgc ≠ 0) then p.rejectAt c.val .castFormat none none s
    else
      let s := s.setPour c.val { s.pour c.val with
        armed := true, auto := bit w 0, group := g, coord := co.getD 0, sc := cgSc x.cgc, round := x.cg.coord.round }
      sendAll ((s.mouldTiles (hdrMould p.hdr)).map (fun t => cfgMsg 0x23 c.val t 0 0 [])) s) s)

/-- END (R280): right after ARM, its count the body's words. -/
def execCastEnd (c : Fin 8) (s : State) : Host.Outcome State Fault Refusal :=
  .next (plainCmd c.val 7 0xFFFFFFFF (fun p w s =>
    if !p.armed || fld w 0 32 * 8 != hdrLen p.hdr || p.done.length + 1 != fld w 0 32 then
      p.rejectAt c.val .castFormat none none s
    else s.setPour c.val { s.pour c.val with ended := true }) s)

/-- The head command can never complete: the body ends before its words do, or without END. -/
def Pour.stuck (p : Pour) : Bool :=
  !p.ended && p.segs == segCount p.hdr && (match p.words with
  | [] => true
  | w :: rest => if p.left != 0 then decide (p.words.length < 256)
    else (cmdOp w == 4 && rest.isEmpty) || (cmdOp w == 5 && decide (rest.length < 4)))

/-- The final tag (R275, R276). -/
def State.finalTag (s : State) (h tags : List Byte) : List Byte :=
  if hdrEnc h then gcmTag (s.pourKeys h) (segIv h 0xFFFFFFFF) (h ++ tags) []
  else (sha256 (h ++ tags)).take 16

/-- FINAL_TAG (R275, R276, R293): the tag passes and the closing checks start. -/
def finalTagCmd (c : Nat) (s : State) : State :=
  let p := s.pour c
  if p.st != .pouring || p.finalOk || p.segs != segCount p.hdr then s
  else if p.stuck then p.rejectAt c .castFormat none none s
  else if !p.ended || decide (p.inb.length < 16) then s
  else if p.inb.take 16 != s.finalTag p.hdr p.tags then reject c .castTag none none s
  else consume c true (s.setPour c { p with inb := [], finalOk := true })

/-- FINAL_TAG (R275). -/
def execFinalTag (c : Fin 8) (s : State) : Host.Outcome State Fault Refusal := .next (finalTagCmd c.val s)

/-! ## The tile's side (R288, R308) -/

/-- Take the shadow words of the tile's other set. -/
def Tile.setShadowWords (x : Tile) (ws : SMap Word) : Tile :=
  { x with cfg := if x.cfg.liveSet then { x.cfg with wordsA := ws } else { x.cfg with wordsB := ws } }

def Tile.shadowWords (x : Tile) : SMap Word := if x.cfg.liveSet then x.cfg.wordsA else x.cfg.wordsB
def Tile.liveWords (x : Tile) : SMap Word := if x.cfg.liveSet then x.cfg.wordsB else x.cfg.wordsA

/-- The shadow set of a full stream: frames zero, registers Cold (R288). -/
def Tile.clearShadow (x : Tile) : Tile :=
  let x := x.setShadowWords []
  { x with cfg := { x.cfg with shadow := [], tblShadow := [] } }

/-- The shadow set of a partial stream: a copy of the live set (R288). -/
def Tile.copyShadow (x : Tile) : Tile :=
  let x := x.setShadowWords x.liveWords
  { x with cfg := { x.cfg with shadow := x.cfg.live, tblShadow := x.cfg.tblLive } }

/-- CFG_SETUP (R272, R288, R308, R462): a tile in OFF comes up in IDLE. -/
def execCfgSetup (t : Nat) (s : State) : Host.Outcome State Fault Refusal :=
  s.atTile t (onMgt t 0x20 (fun m s => (leaveOff t s).onTile t (fun x =>
    let x := if m.status = 1 then x.copyShadow else x.clearShadow
    { x with cfg := { x.cfg with owned := true, ctx := m.sctx, pour := .pouring, fill := 0, readback := 0 } })))

/-- CFG_FRAME (R282, R308): one shadow frame. -/
def execCfgFrame (t : Nat) (s : State) : Host.Outcome State Fault Refusal :=
  s.atTile t (onMgt t 0x21 (fun m s => s.onTile t (fun x =>
    let far := m.w1.toNat
    let base := far / 64 % 4 * 1024 + far % 4 * 256
    let ws := (groupsOf 8 256 m.payload).map (fun b => BitVec.ofNat 64 (leNat b))
    x.setShadowWords ((ws.zipIdx).foldl (fun mp (w, i) => mp.put (base + i) w 0) x.shadowWords))))

/-- CFG_CREG (R283, R308): one shadow register. -/
def execCfgCreg (t : Nat) (s : State) : Host.Outcome State Fault Refusal :=
  s.atTile t (onMgt t 0x22 (fun m s => s.onTile t (fun x =>
    x.writeCreg (fld m.w1 13 2) (fld m.w1 15 12) (BitVec.ofNat 64 (leNat m.payload)))))

/-- CFG_ARM (R40, R293, R308): bank fill and read-back start. -/
def execCfgArm (t : Nat) (s : State) : Host.Outcome State Fault Refusal :=
  s.atTile t (onMgt t 0x23 (fun _ s => s.onTile t (fun x =>
    { x with cfg := { x.cfg with fill := if x.newBanks = 0 then 2 else 1, readback := 1 } })))

/-- Tiles of a tile's die column. -/
def dieColumn (t : Nat) : List Nat := (List.range 16).map (fun r => tidDie t * 256 + r * 16 + tidCol t)

/-- The last of a die column's tiles has finished fill and read-back: its row-0 tile tells the engine
(R294, R308). -/
def stageColumn (t : Nat) (s : State) : State :=
  let ts := dieColumn t
  if ts.all (fun u => (s.tile u).cfg.fill == 2 && decide ((s.tile u).cfg.readback ≥ 2)) then
    tileToMgt (tidDie t * 256 + tidCol t) 0x24 unitCfg (s.tile t).cfg.ctx 0 0
      (if ts.any (fun u => (s.tile u).cfg.readback == 3) then 6 else 0) [] s
  else s

/-- BANK_FILL_DONE (R40): the fill of the newly enabled banks completes. -/
def execBankFillDone (t : Nat) (s : State) : Host.Outcome State Fault Refusal :=
  s.atTile t (fun s =>
    if (s.tile t).cfg.fill != 1 then s
    else stageColumn t (s.onTile t (fun x =>
      let b := x.newBanks
      let x := x.zeroBanks b
      { x with cfg := { x.cfg with fill := 2, powered := x.cfg.powered ||| BitVec.ofNat 16 b } })))

/-- READBACK_DONE (R60, R293): a single-bit error is corrected, a double-bit error fails the pour. -/
def execReadbackDone (t : Nat) (ecc : List Upset) (s : State) : Host.Outcome State Fault Refusal :=
  s.atTile t (fun s =>
    if (s.tile t).cfg.readback != 1 then s
    else
      let s := if ecc.any (fun u => !u.dbl) then raiseT t .cfgCorrected [] none s else s
      stageColumn t (s.onTile t (fun x =>
        { x with cfg := { x.cfg with readback := if ecc.any (·.dbl) then 3 else 2 } })))

/-- CFG_DISCARD (R291, R308): the shadow set goes, banks the live set has off go off again, and the
tile leaves the mould where the context gives it up. -/
def execCfgDiscard (t : Nat) (s : State) : Host.Outcome State Fault Refusal :=
  s.atTile t (onMgt t 0x27 (fun m s => s.onTile t (fun x =>
    let x := (x.clearShadow).zeroBanks (65535 - x.spctrl.toNat % 65536)
    { x with cfg := { x.cfg with pour := .idle, fill := 0, readback := 0,
                                 powered := x.cfg.powered &&& BitVec.ofNat 16 (x.spctrl.toNat % 65536),
                                 owned := x.cfg.owned && m.status != 1 } })))

/-- CFG_FENCE (R303, R308). -/
def execCfgFence (t : Nat) (s : State) : Host.Outcome State Fault Refusal :=
  s.atTile t (onMgt t 0x28 (fun m s => s.onTile t (fun x => { x with cfg := { x.cfg with fence := bit m.w1 0 } })))

/-! ## Exchange (R58, R298) -/

/-- Generators loaded from the seed (R90). -/
def Tile.seedGens (x : Tile) : Tile :=
  let seed := fld (x.reg 3 0x108) 0 32
  let v := if seed = 0 then 1 else seed
  { x with gens := (List.range 4).foldl (fun m e =>
      m.put e ((BitVec.ofNat 32 v).rotateLeft (8 * e)).toNat 1) [] }

/-- Firings in progress are abandoned: no slot stays open, the length registers and the accumulators keep what they
hold (R253, R356). -/
def Tile.abandon (x : Tile) : Tile :=
  let x := x.onSlots (List.range 16) (fun z => { z with opened := false, addrC := 0, nest := 0 })
  { x with mtx := { x.mtx with issued := [], bufs := [], rows := [], drains := [] },
           vec := { vlen := x.vec.vlen, desc := x.vec.desc } }

/-- The resets that a flush and a recast share: fabric, nests and handle queues, records, firings, stopped units
(R205, R206, R223, R230, R261, R352). -/
def Tile.dropWork (x : Tile) : Tile :=
  let x := (((x.resetFabric).resetNests).resetRecs).abandon
  { x with stopped := [], mp := { x.mp with fenced := [] } }

/-- Accumulator valid bits, length registers and side memory after a restart or a recast (R120, R144, R159). -/
def Tile.resetEngines (x : Tile) : Tile := ((x.resetMatrix).resetVector).resetRow

/-- Exchange the sets of a tile in one cycle and apply the resets of R298. -/
def Tile.exchange (x : Tile) : Tile :=
  let on := (x.shadowReg 1 0x100).toNat % 65536
  let c := { x.cfg with liveSet := !x.cfg.liveSet, live := x.cfg.shadow, shadow := x.cfg.live,
                        tblLive := x.cfg.tblShadow, tblShadow := x.cfg.tblLive, pour := .idle, fill := 0,
                        readback := 0, origin := false, flushed := false }
  let x := { x with cfg := { c with powered := BitVec.ofNat 16 on } }
  let x := (((x.zeroBanks (65535 - on)).dropWork).resetEngines).groupsOff
  { ((x.resetCounters).seedGens) with flags := 0, flagNew := 0 }

/-- Counters with CHECK = 1 away from BASE raise CNT_RESIDUE before the exchange (R243). -/
def residue (t : Nat) (s : State) : State :=
  (List.range 16).foldl (fun s i =>
    let x := s.tile t
    let g := x.ccfg i
    let v := (x.counter i).value
    if bit g 36 && v != fld g 0 24 then raiseT t .cntResidue [(4, i), (24, v)] none s else s) s

/-- The tile exchanges and reports to the configuration engine (R298). -/
def exchangeTile (t : Nat) (s : State) : State :=
  let s := (residue t s).onTile t Tile.exchange
  tileToMgt t 0x26 unitCfg (s.tile t).cfg.ctx 0 0 0 [] s

/-- CFG_RECAST (R295, R296, R308): an origin takes its request; a direct request exchanges at once. -/
def execCfgRecast (t : Nat) (s : State) : Host.Outcome State Fault Refusal :=
  s.atTile t (onMgt t 0x25 (fun m s =>
    if m.status = 1 then exchangeTile t s
    else s.onTile t (fun x => { x with cfg := { x.cfg with origin := true } })))

/-- RECAST_INJECT (R296): the first cycle after the request in which no launch port has an open
sequence. -/
def execRecastInject (t : Nat) (s : State) : Host.Outcome State Fault Refusal :=
  s.atTile t (fun s =>
    let x := s.tile t
    if s.tileRuns t && x.cfg.origin && (List.range 4).all (fun la => !(x.launch la).openSeq) then
      s.onTile t (fun x => { x with fab := { x.fab with injRecast := true } })
    else s)

/-- Conditions 2 to 4 of R297: every firing's outputs are written, no answer is awaited, and the
queues of DIRECT and SEND records are empty. -/
def Tile.drained (x : Tile) : Bool :=
  x.mtx.issued.isEmpty && x.mtx.bufs.isEmpty && x.mtx.rows.isEmpty && x.mtx.drains.isEmpty &&
  x.vec.fire.isNone && x.vec.tail.isEmpty && x.vec.red.isEmpty && x.vec.held.isEmpty &&
  !x.mp.sent.any (fun o => o.msg.op == 1 || o.msg.op == 0x0A || o.msg.op == 0x0C) &&
  (List.range 8).all (fun r =>
    let w := x.chrec r
    !(recKind w == 1 || recKind w == 2) || (x.hqueue (recHq w)).isEmpty)

/-- RECAST_PASS (R40, R297, R298, R346): the markers leave, then the tile exchanges. -/
def execRecastPass (t : Nat) (s : State) : Host.Outcome State Fault Refusal :=
  s.atTile t (fun s =>
    let x := s.tile t
    if s.tileRuns t && s.collects t 13 x.fab.injRecast && x.drained && x.cfg.fill != 1 &&
        !(x.cg.coord.st == 2 || x.cg.coord.st == 3) && x.cfg.pour == .recasting then
      exchangeTile t (passMarker t 13 s)
    else s)

/-! ## Staging, commit, completion (R292 to R302, R327) -/

/-- Send a pour's staged acknowledgements to its group's coordinator, one for each newly staged die column; a
column whose read-back failed is not staged (R294, R348). -/
def ackColumns (c : Nat) (s : State) : State :=
  let p := s.pour c
  if p.group = 0 ∨ !p.closed then s
  else
    let new := p.cols.filter (fun k => !p.acked.contains k && !p.bad.contains k)
    let s := s.setPour c { p with acked := p.acked ++ new }
    new.foldl (fun s _ => sendMsg
      { op := 0x08, src := unitCfg, dest := p.coord, sctx := c, tctx := c, priv := true,
        w1 := cntW1 p.sc p.round true 1 0 0 0 false false } s) s

/-- Every open round of a context aborts before a pour of its own group commits (R350). -/
def abortRounds (c : Nat) (s : State) : State :=
  s.tiles.foldl (fun s (t, x) =>
    if x.owner = some c ∧ x.cg.coord.st = 1 ∧ (x.staged ≠ 0 ∨ x.cg.coord.go) then cgNotify t 2 s else s) s

/-- Set `TCT_STATE.POUR` of a pour's tiles. -/
def markPour (ts : List Nat) (st : PourSt) (s : State) : State :=
  ts.foldl (fun s t => s.onTile t (fun x => { x with cfg := { x.cfg with pour := st } })) s

/-- Commit an ARMED pour (R295): the fence rises, the ingress holds, and the tiles are told. -/
def commitPour (c : Nat) (s : State) : State :=
  let p := s.pour c
  let ts := s.mouldTiles (hdrMould p.hdr)
  let s := if p.group = 0 then abortRounds c s else s
  let s := startHold c (setHold c true (sendFence c true s))
  let s := markPour ts .recasting (s.setPour c { p with st := .recasting, pending := ts, commitAt := s.time })
  if (s.ctx c).live then
    sendAll ((ts.filter (fun t => (s.tile t).origin)).map (fun t => cfgMsg 0x25 c t 0 0 [])) s
  else sendAll (ts.map (fun t => cfgMsg 0x25 c t 0 1 [])) s

/-- Row-0 tiles of the die columns of a mould. -/
def State.mouldCols (s : State) (m : Mould) : List Nat := (s.mouldTiles m).filter (fun t => tidRow t == 0)

/-- The pour becomes ARMED once the final tag, the closing checks, fill and read-back have all passed; a failed
read-back rejects it as the last of the closing checks (R289, R292, R293). -/
def tryArm (c : Nat) (s : State) : State :=
  let p := s.pour c
  let m := hdrMould p.hdr
  if p.st != .pouring || !p.finalOk || !p.closed then s
  else if !p.bad.isEmpty then reject c .castShadowEcc none none s
  else if !(s.mouldCols m).all (fun k => p.cols.contains k) then s
  else
    let s := markPour (s.mouldTiles m) .armed (setSession c none (s.setPour c { p with st := .armed }))
    let s := emit 0x0021 (some c) [s.pourReg c] none s
    if p.auto && p.group == 0 then commitPour c s else s

/-- CLOSING_CHECKS_DONE (R289, R293): over the shadow sets, once every tile has taken its messages. -/
def closingDone (c : Nat) (s : State) : State :=
  let p := s.pour c
  let ts := s.mouldTiles (hdrMould p.hdr)
  if p.st != .pouring || !p.finalOk || p.closed || !ts.all s.cfgQuiet then s
  else match s.closingCheck ts with
  | some e => reject c e none none s
  | none => ackColumns c (tryArm c (s.setPour c { p with closed := true }))

/-- CLOSING_CHECKS_DONE (R293). -/
def execClosingChecksDone (c : Fin 8) (s : State) : Host.Outcome State Fault Refusal := .next (closingDone c.val s)

/-- CFG_STAGED (R294): a row-0 tile reports its die column. -/
def execCfgStaged (s : State) : Host.Outcome State Fault Refusal :=
  .next (onUnit unitCfg 0x24 (fun m s =>
    let c := m.sctx
    let p := s.pour c
    if p.st != .pouring || !(hdrMould p.hdr).has m.src then s
    else
      let s := s.setPour c { p with cols := p.cols ++ [m.src], bad := p.bad ++ (if m.status = 6 then [m.src] else []) }
      ackColumns c (tryArm c s)) s)

/-- SHADOW_ECC_ERROR (R60, R292): a double-bit error in a shadow word while the pour is ARMED. -/
def execShadowEccError (t : Nat) (addr : Nat) (s : State) : Host.Outcome State Fault Refusal :=
  s.atTile t (fun s =>
    match (s.tile t).owner with
    | some c => if (s.pour c).st == .armed && (hdrMould (s.pour c).hdr).has t && decide (addr < 4096) then
        reject c .castShadowEcc none none s else s
    | none => s)

/-- Write `CFG_CMDn` (R292, R310): ABORT, else GO. -/
def writeCfgCmd (c : Nat) (v : Word) (s : State) : State :=
  let p := s.pour c
  if bit v 0 && (p.st == .pouring || p.st == .armed) then abortPour c s
  else if bit v 1 && p.st == .armed && !p.auto && p.group == 0 then commitPour c s
  else s

/-- Management acts on a pour. -/
def actedCfg (c : Nat) (f : State → State) : State → State := acted pgCfg (0x100 + 8 * c) (fun s => s.pourReg c) f

/-- POUR_GO (R292). -/
def execPourGo (c : Fin 8) (s : State) : Host.Outcome State Fault Refusal := 
  .next (actedCfg c.val (writeCfgCmd c.val 2) s)

/-- POUR_ABORT (R292). -/
def execPourAbort (c : Fin 8) (s : State) : Host.Outcome State Fault Refusal := 
  .next (actedCfg c.val (writeCfgCmd c.val 1) s)

/-- POUR_IDLE_TIMEOUT (R292): no stream byte for POURIDLE ms. -/
def execPourIdleTimeout (c : Fin 8) (s : State) : Host.Outcome State Fault Refusal :=
  let lim := fld (s.devReg pgCfg 0x188) 16 16
  let p := s.pour c.val
  .next (if lim ≠ 0 ∧ p.st = .pouring ∧ s.time ≥ p.lastByteAt + lim * 1000000 then abortPour c.val s else s)

/-- CAST_RECAST_TIMEOUT (R292, R306): RECASTLIM µs after the commit. -/
def execCastRecastTimeout (c : Fin 8) (s : State) : Host.Outcome State Fault Refusal :=
  let lim := fld (s.devReg pgCfg 0x188) 0 16
  let p := s.pour c.val
  .next (if lim ≠ 0 ∧ p.st = .recasting ∧ s.time ≥ p.commitAt + lim * 1000 then
      raise pgCfg .castRecastTimeout [] (some c.val) s
    else s)

/-! ## Release of held requests (R327) -/

/-- Entry tiles of a context: those its enabled slots name (R316). -/
def State.entries (s : State) (c : Nat) : List Nat :=
  ((List.range 8).filterMap (fun i => if bit (s.slotA c i) 0 then some (fld (s.slotA c i) 1 13) else none)).eraseDups

/-- Arm every entry tile with the measured hold F (R327, R480). `why`: 1 a recast, 2 a restart. -/
def armEntries (c why : Nat) (s : State) : State :=
  let f := s.time - (s.ctx c).holdAt.getD s.time
  let es := s.entries c
  let s := s.onCtx c (fun x =>
    { x with lastF := satTo (2 ^ 32 - 1) f, armWait := es, armFor := why,
             armedAt := es ++ x.armedAt.filter (fun t => !es.contains t),
             noticed := x.noticed.filter (fun t => !es.contains t) })
  sendAll (es.map (armMsg c (satTo (2 ^ 32 - 1) f))) s

/-- The hold charge of an entry tile changes: what was armed stays with the requests that committed under it
(R327). -/
def Tile.setHold (x : Tile) (f : Option Nat) : Tile :=
  let past := match x.cfg.hold with
    | some g => [(x.cfg.holdFrom, x.clk.cyc, g)]
    | none => []
  { x with cfg := { x.cfg with hold := f, holdFrom := x.clk.cyc, holds := past ++ x.cfg.holds } }

/-- MGT_ARM (R327, R480): the entry tile is armed with F and acknowledges. -/
def execMgtArm (t : Nat) (s : State) : Host.Outcome State Fault Refusal :=
  s.atTile t (onMgt t 0x36 (fun m s =>
    let s := s.onTile t (fun x => x.setHold (if bit m.w1 32 then none else some (fld m.w1 0 32)))
    tileToMgt t 0x37 unitMgt m.sctx 0 m.tag 0 [] s))

/-- The largest ENTRY_NS of a context's slots. -/
def State.maxEntryNs (s : State) (c : Nat) : Nat :=
  (List.range 8).foldl (fun m i => if bit (s.slotA c i) 0 then max m (fld (s.slotA c i) 20 12) else m) 0

/-- MGT_DISARM (R327, R480): no sooner than the largest ENTRY_NS after the release, the management die sends an entry
tile of a context its disarm notice. -/
def execMgtDisarm (t : Nat) (s : State) : Host.Outcome State Fault Refusal :=
  s.atTile t (fun s =>
    match (List.range 8).find? (fun c => (s.ctx c).armedAt.contains t) with
    | none => s
    | some c =>
      let x := s.ctx c
      if x.armFor != 0 || x.noticed.contains t || decide (s.time < x.releasedAt + s.maxEntryNs c) then s
      else sendAll [disarmMsg c t] (s.onCtx c (fun x => { x with noticed := x.noticed ++ [t] })))

end Sys2Proof.Machine
end

