-- ==== Sys2Proof/Machine/Rim.lean ====
section
/-! DEFINITION.
What the units of the rim dies share: taking a message from an inbox, answering it, and putting
packets at a Laniem port (R209 to R219, R431, R434). -/

namespace Sys2Proof.Machine

/-! ## Messages at a rim unit -/

/-- Answer a message of a tile: a CLAIM by CRESP, a CWAIT by CREL, a CH_OPEN by CH_OPENR, any other by
an ACK (R218, R223, R546). -/
def rimRefuse (m : Msg) (status : Nat) (s : State) : State :=
  if m.op = 0x0A then sendMsg (answer m 0x0B status (setFld m.w1 13 24 0)) s
  else if m.op = 0x0C then sendMsg (answer m 0x0D status (setFld m.w1 13 24 0)) s
  else if m.op = 0x10 then sendMsg (answer m 0x11 status (m.w1 &&& 0x7F)) s
  else if m.op = 0x01 ∨ m.op = 0x08 ∨ m.op = 0x09 ∨ m.op = 0x0E then sendMsg (answer m 0x04 status 0) s
  else s

/-- OPs a rim unit acts on: WRITE, ACK, CH_GRANT. -/
def rimOp (op : Nat) : Bool := op == 0x01 || op == 0x04 || op == 0x12

/-- Complete messages with other OPs leave the inbox; those that always have an answer get ERROR
(R214, R546). -/
def rimPurge (u : Nat) (s : State) : State :=
  let q := s.inbox.get u []
  let bad := q.filter (fun m => m.complete && !rimOp m.msg.op)
  let s := { s with inbox := s.inbox.put u (q.filter (fun m => !(m.complete && !rimOp m.msg.op))) [] }
  bad.foldl (fun s m => rimRefuse m.msg 6 s) s

/-- Take a message from the inbox of rim unit u and act on it; a broken or corrupt one commits nothing
and a WRITE is answered ERROR (R215, R216, R218). -/
def onRim (u : Nat) (f : Msg → Bool) (act : Msg → State → State) (s : State) : State :=
  let s := rimPurge u s
  match pickIn f [] (s.inbox.get u []) with
  | none => s
  | some (m, rest) =>
    let s := { s with inbox := s.inbox.put u rest [] }
    match msgFault m with
    | some e => rimRefuse m.msg 6 (raise pgNone e (pktItems u m.msg) (some m.msg.sctx) s)
    | none => act m.msg s

/-- Discard every message of context c at a rim unit. -/
def dropCtx (u c : Nat) (s : State) : State :=
  { s with inbox := s.inbox.upd u [] (fun q => q.filter (fun m => m.msg.sctx != c)) }

/-! ## Packets at a port (R431, R432, R434) -/

/-- Blocks of a packet: header, payload, trailer (R431). -/
def pktBlocks (p : LnmPkt) : Nat := 2 + cdiv p.payload.length 64

/-- Virtual channel of a packet type (R432). -/
def vcOf (typ : Nat) : Nat :=
  if typ = 2 ∨ typ = 5 ∨ typ ≥ 9 ∧ typ ≠ 0x0A then 1 else 0

/-- Credit left on a virtual channel (R434). -/
def LnmPort.credit (q : LnmPort) (vc : Nat) : Nat :=
  if vc = 0 then q.grant0 - q.used0 else q.grant1 - q.used1

/-- Blocks of waiting packets on a virtual channel. -/
def LnmPort.queued (q : LnmPort) (vc : Nat) : Nat :=
  (q.outq.filter (fun o => vcOf o.typ == vc)).foldl (fun n o => n + pktBlocks o.pk) 0

/-- The port is UP in a role that takes WRITEs (R432, R449). -/
def LnmPort.takes (q : LnmPort) : Bool := q.st == .up && q.role != .none

/-- Pieces of 1,024 bytes. -/
def pieces : Nat → List Byte → List (List Byte)
  | 0, _ => []
  | n + 1, bs => bs.take 1024 :: pieces n (bs.drop 1024)

/-- WRITE packets of a message, split at 1,024 bytes (R384, R442): partner address targets advance
by 1,024, a window target stays and PKT counts. -/
def writePkts (tkind tctx : Nat) (target : Word) (bs : List Byte) : List LnmPkt :=
  let n := cdiv bs.length 1024
  (pieces n bs).zipIdx.map (fun (b, i) =>
    { tctx := tctx, first := i == 0, last := i + 1 == n, tkind := tkind, bytes := b.length,
      target := if tkind = 2 then target + BitVec.ofNat 64 (1024 * i) else target,
      pkt := i, payload := b })

end Sys2Proof.Machine
end

