-- ==== Sys2Proof/Machine/Gx.lean ====
section
/-! DEFINITION.
The gradient export engines (R378 to R388, R393, R394): message checks, mask, records, DONE and
ABORTED, and the export registers of the CTX pages. -/

namespace Sys2Proof.Machine

/-! ## Registers (R393) -/

def State.gxcfg (s : State) (c i : Nat) : Word := s.devReg (pgCtx c) (0x400 + 32 * i)

def gxEtype (w : Word) : Nat := fld w 4 3

/-- Element format of an ETYPE. -/
def gxFmt (e : Nat) : Option Fmt :=
  match e with
  | 0 => some .e4m3
  | 1 => some .e5m2
  | 2 => some .e2m3
  | 3 => some .e3m2
  | 4 => some .e2m1
  | 5 => some .int8
  | _ => none

/-- Laniem port of a stream: the engine's lower or higher (R378, R393). -/
def gxPort (w : Word) : Nat := 2 * fld w 1 2 + fld w 3 1

/-- COUNT, MASKED and FLAGS of a stream as stored; HELD is formed on a read. -/
def State.gxstat (s : State) (c i : Nat) : Word := s.devReg (pgCtx c) (0x418 + 32 * i)

def setGxstat (c i : Nat) (v : Word) (s : State) : State := s.setDevReg (pgCtx c) (0x418 + 32 * i) v

/-- COUNT and MASKED return to 0 (R385, R387, R393). -/
def zeroGxCounts (c i : Nat) (s : State) : State := setGxstat c i (setFld (s.gxstat c i) 0 40 0) s

/-- Records of a stream wait for its port (R386). -/
def State.gxHeld (s : State) (c i : Nat) : Bool :=
  s.gx.any (fun (_, g) => g.held.any (fun r => r.ctx == c && r.stream == i))

/-- `CTX_GXSTATi` as it reads. -/
def State.gxstatRead (s : State) (c i : Nat) : Word := setFld (s.gxstat c i) 44 1 (b2n (s.gxHeld c i))

/-- Mask word of a context (R381). -/
def State.gxMaskWord (s : State) (c w : Nat) : Word := s.gxMask.get (c * 4096 + w) (BitVec.ofNat 64 (2 ^ 64 - 1))

def setGxMask (c w : Nat) (v : Word) (s : State) : State :=
  { s with gxMask := s.gxMask.put (c * 4096 + w) v (BitVec.ofNat 64 (2 ^ 64 - 1)) }

/-- Every mask bit of a context is 1 (R381). -/
def freshGxMask (c : Nat) (s : State) : State :=
  { s with gxMask := s.gxMask.filter (fun (k, _) => k / 4096 != c) }

/-- The mask bit at an index. -/
def State.gxMaskBit (s : State) (c i : Nat) : Bool := bit (s.gxMaskWord c (i / 64)) (i % 64)

/-! ## Records (R382 to R385) -/

/-- Queue a record at its engine. -/
def holdRec (e : Nat) (r : GxRec) (s : State) : State :=
  { s with gx := s.gx.upd e {} (fun g => { g with held := g.held ++ [r] }) }

/-- The first 32 bytes of a record (R383). -/
def recHead (s : State) (c i kind idx src : Nat) (counts : Bool) : List Byte :=
  let st := s.gxstat c i
  leBytes 8 (pack [(2, kind), (3, c), (4, i), (3, gxEtype (s.gxcfg c i)), (20, 0), (18, idx)]) ++
  leBytes 8 (s.devReg (pgCtx c) 0x340).toNat ++
  leBytes 8 (if counts then pack [(20, fld st 0 20), (20, fld st 20 20)] else 0) ++
  leBytes 8 (src % 2 ^ 13)

/-- A DONE (2) or ABORTED (3) record goes to `CTX_GXDONEs` (R383 to R385, R387). -/
def endRecord (c i kind : Nat) (s : State) : State :=
  let w := s.gxcfg c i
  let a := s.devReg (pgCtx c) (0x410 + 32 * i)
  holdRec (fld w 1 2) ⟨gxPort w, c, i, a, recHead s c i kind 0 0 true ++ List.replicate 32 0⟩ s

/-- The BF16 code at (r, c) of a skewed tile given as bytes (R32, R33, R379). -/
def tileCode (bs : List Byte) (r c : Nat) : Nat :=
  let (a, i) := skewAt 16 0 r c
  leNat ((bs.drop (a + 2 * i)).take 2)

/-- Rows of the tile. -/
def tileRows (bs : List Byte) : List (List Val) :=
  (List.range 32).map (fun r => (List.range 32).map (fun c => bf16L.decode (tileCode bs r c)))

/-- Element codes packed as stored (R72, R383). -/
def packElems (f : Fmt) (cs : List Nat) : List Byte :=
  if f = .e2m1 then
    (List.range (cs.length / 2)).map (fun i =>
      BitVec.ofNat 8 (cs.getD (2 * i) 0 % 16 + 16 * (cs.getD (2 * i + 1) 0 % 16)))
  else cs.map (BitVec.ofNat 8)

/-- The canonical sum of exact squares in FP32, IEEE overflow (R382). -/
def squareSum (vs : List Val) : Nat × Flags := sumCode false (vs.map (fun v => v.mul v))

/-- The record body of a tile (R382, R383): scales, elements, row sums, column sums; and the flags. -/
def recBody (f : Fmt) (rows : List (List Val)) : List Byte × Flags :=
  let enc := rows.map (fun r => mxEncode f (List.replicate 32 .rne) r)
  let rs := rows.map squareSum
  let cs := (List.range 32).map (fun j => squareSum (rows.map (fun r => r.getD j .zero)))
  (enc.map (fun (x, _, _) => BitVec.ofNat 8 x) ++ enc.flatMap (fun (_, c, _) => packElems f c) ++
    (rs ++ cs).flatMap (fun p => leBytes 4 p.1),
   Flags.or (enc.foldl (fun a (_, _, g) => a.or g) .none) ((rs ++ cs).foldl (fun a p => a.or p.2) .none))

/-- A GRADIENT record of a message (R382 to R384). -/
def gradRecord (c i : Nat) (f : Fmt) (m : Msg) (s : State) : State :=
  let w := s.gxcfg c i
  let idx := leNat (m.payload.take 8)
  let (body, fl) := recBody f (tileRows (m.payload.drop 64))
  let st := s.gxstat c i
  let s := noteSet (rkey (pgCtx c) (0x418 + 32 * i)) (setFld 0 40 4 fl.toNat)
    (setGxstat c i (setFld st 40 4 (fld st 40 4 ||| fl.toNat)) s)
  let a := s.devReg (pgCtx c) (0x408 + 32 * i) + BitVec.ofNat 64 (idx * fld w 26 16 * 64)
  holdRec (fld w 1 2)
    ⟨gxPort w, c, i, a, recHead s c i 1 idx m.src false ++ (m.payload.drop 32).take 32 ++ body⟩ s

/-! ## Messages (R379 to R381, R385) -/

/-- The check a message fails (R380). -/
def gxCheck (s : State) (e : Nat) (m : Msg) : Option Err :=
  let w := s.gxcfg m.sctx m.win
  let idx := leNat (m.payload.take 8)
  if m.tctx ≠ m.sctx ∨ !bit w 0 ∨ fld w 1 2 ≠ e then some .gxStream
  else if m.mlen ≠ 2112 ∨ m.payload.length ≠ 2112 ∨ idx ≥ 2 ^ 18 ∨ leNat ((m.payload.drop 8).take 24) ≠ 0 then
    some .gxFormat
  else if bit w 7 ∧ fld w 8 18 + idx ≥ 262144 then some .gxFormat
  else none

/-- A message that passed: counted, its record formed unless the mask discards it, DONE at EXPECT,
and its ACK (R380 to R385). -/
def gxAccept (m : Msg) (s : State) : State :=
  let c := m.sctx
  let i := m.win
  let w := s.gxcfg c i
  let idx := leNat (m.payload.take 8)
  let st := s.gxstat c i
  let out := bit w 7 && !s.gxMaskBit c (fld w 8 18 + idx)
  let st' := setFld (setFld st 0 20 (fld st 0 20 + 1)) 20 20 (fld st 20 20 + b2n out)
  let s := setGxstat c i st' s
  let s := match (if out then none else gxFmt (gxEtype w)) with
    | some f => gradRecord c i f m s
    | none => s
  let s := if fld st' 0 20 = fld w 42 20 then zeroGxCounts c i (endRecord c i 2 s) else s
  rimRefuse m 0 s

/-- GX_MESSAGE (R380). -/
def execGxMessage (e : Fin 4) (s : State) : Host.Outcome State Fault Refusal :=
  .next (onRim (gxUnit e.val) (fun m => m.op == 0x01) (fun m s =>
    match gxCheck s e.val m with
    | some er =>
      let idx := leNat (m.payload.take 8) % 2 ^ 18
      rimRefuse m 6 (raise (pgCtx m.sctx) er
        [(4, m.win), (13, m.src), (18, if er = .gxFormat then idx else 0)] (some m.sctx) s)
    | none => gxAccept m s) s)

/-! ## Sending (R384, R386) -/

/-- The port takes the record's packets now: UP in a role, with credit for every block (R386, R434). -/
def State.gxReady (s : State) (r : GxRec) : Bool :=
  let q := s.lnm.get r.port {}
  let need := (writePkts 2 r.ctx r.addr r.bytes).foldl (fun n p => n + pktBlocks p) 0
  q.takes && decide (q.queued 0 + need ≤ q.credit 0)

/-- The oldest record of its port that can leave, and the others. -/
def pickRec (s : State) : List Nat → List GxRec → Option (GxRec × List GxRec)
  | _, [] => none
  | blocked, r :: rs =>
    if !blocked.contains r.port && s.gxReady r then some (r, rs)
    else (pickRec s (r.port :: blocked) rs).map (fun (k, l) => (k, r :: l))

/-- GX_RECORD_SEND (R386): a record leaves as WRITE packets to the partner's memory, and counts as the context's
(R333). -/
def execGxRecordSend (e : Fin 4) (s : State) : Host.Outcome State Fault Refusal :=
  .next (match pickRec s [] (s.gx.get e.val {}).held with
  | none => s
  | some (r, rest) =>
    let s := account r.ctx (3 + r.port) r.bytes.length { s with gx := s.gx.put e.val { held := rest } {} }
    (writePkts 2 r.ctx r.addr r.bytes).foldl (fun s p => outPkt r.port 0x01 r.ctx p none s) s)

/-! ## Configuration (R381, R393) -/

/-- A write that sets EN = 1 may stand (R393). -/
def gxSetupOk (s : State) (c i : Nat) (v : Word) : Bool :=
  let e := gxEtype v
  decide (e < 6) && decide (fld v 26 16 ≥ (if e = 4 then 14 else 22)) && fld v 42 20 != 0 &&
  fld v 62 2 == 0 && (s.devReg (pgCtx c) (0x408 + 32 * i)).toNat % 64 == 0 &&
  (s.devReg (pgCtx c) (0x410 + 32 * i)).toNat % 64 == 0

/-- The stream's held records go. -/
def dropHeld (c i : Nat) (s : State) : State :=
  (List.range 4).foldl (fun s e =>
    { s with gx := s.gx.upd e {} (fun g =>
      { held := g.held.filter (fun r => !(r.ctx == c && r.stream == i)) }) }) s

/-- A write of `CTX_GXCFGi` (R393). -/
def writeGxcfg (c i : Nat) (v : Word) (s : State) : State :=
  let refuse (s : State) := raise (pgCtx c) .gxSetup [(4, i), (13, 0), (18, 0)] none s
  let on := bit (s.gxcfg c i) 0
  if !bit v 0 then
    zeroGxCounts c i (dropHeld c i (s.setDevReg (pgCtx c) (0x400 + 32 * i) (setFld v 62 2 0)))
  else if on then refuse s
  else if gxSetupOk s c i v then s.setDevReg (pgCtx c) (0x400 + 32 * i) v
  else refuse s

/-- GX_CONFIG_WRITE (R393). -/
def execGxConfigWrite (c : Fin 8) (i : Fin 16) (v : Word) (s : State) : Host.Outcome State Fault Refusal :=
  .next (actedCtx c.val (writeGxcfg c.val i.val v) s)

/-- INDEX of `CTX_GXMSEL` moves on after an access of `CTX_GXMDATA` (R393). -/
def stepGxSel (c : Nat) (s : State) : State :=
  let w := s.devReg (pgCtx c) 0x348
  if bit w 12 then s.setDevReg (pgCtx c) 0x348 (setFld w 0 12 (fld w 0 12 + 1)) else s

/-- A write of `CTX_GXMDATA` reaches all four engines (R381, R393). -/
def writeGxMask (c : Nat) (v : Word) (s : State) : State :=
  stepGxSel c (setGxMask c (fld (s.devReg (pgCtx c) 0x348) 0 12) v s)

/-- GX_MASK_WRITE (R381). -/
def execGxMaskWrite (c : Fin 8) (v : Word) (s : State) : Host.Outcome State Fault Refusal :=
  .next (actedCtx c.val (writeGxMask c.val v) s)

/-! ## Restart and teardown (R387) -/

/-- Step 2 of a restart: the context's messages and records go, and each enabled stream sends
ABORTED with its counts. -/
def gxAbort (c : Nat) (s : State) : State :=
  let s := (List.range 4).foldl (fun s e =>
    let s := dropCtx (gxUnit e) c s
    { s with gx := s.gx.upd e {} (fun g => { held := g.held.filter (fun r => r.ctx != c) }) }) s
  (List.range 16).foldl (fun s i =>
    if bit (s.gxcfg c i) 0 then zeroGxCounts c i (endRecord c i 3 s) else s) s

/-- Teardown: as a restart, then EN = 0 on every stream. -/
def gxTeardown (c : Nat) (s : State) : State :=
  let s := gxAbort c s
  (List.range 16).foldl (fun s i =>
    s.setDevReg (pgCtx c) (0x400 + 32 * i) (setFld (s.gxcfg c i) 0 1 0)) s

end Sys2Proof.Machine
end

