-- ==== Sys2Proof/Machine/Movers.lean ====
section
/-! DEFINITION.
The memory tiers and their movers (R395 to R421, R331, R332): address layout, descriptors, pieces,
completion, grants, scrubbing and the CXL links. -/

namespace Sys2Proof.Machine

/-! ## Address layout (R21, R395, R396) -/

def State.hbm (s : State) (d : Nat) : Hbm := s.mem.hbm.get d {}
def State.ddr (s : State) (c : Nat) : Ddr := s.mem.ddr.get c {}
def State.cxl (s : State) (l : Nat) : Cxl := s.mem.cxl.get l {}

def setHbm (d : Nat) (v : Hbm) (s : State) : State := { s with mem := { s.mem with hbm := s.mem.hbm.put d v {} } }
def setDdr (c : Nat) (v : Ddr) (s : State) : State := { s with mem := { s.mem with ddr := s.mem.ddr.put c v {} } }
def setCxl (l : Nat) (v : Cxl) (s : State) : State := { s with mem := { s.mem with cxl := s.mem.cxl.put l v {} } }

/-- First byte of a mover's slot. -/
def slotBase (m : Nat) : Nat :=
  if m < 20 then 0x010000000000 + m * 0xC00000000
  else if m < 24 then 0x020000000000 + (m - 20) * 0x8000000000
  else 0x040000000000 + (m - 24) * 0x8000000000

/-- Bytes in n GB (decimal, R22). -/
def gb (n : Nat) : Nat := n * 1000000000

/-- A stack, channel or link has usable memory (R410, R413, R415, R417). -/
def State.stackOn (s : State) (d : Nat) : Bool := (s.hbm d).trained && !(s.hbm d).failed
def State.chanOn (s : State) (c : Nat) : Bool := (s.ddr c).trained && !(s.ddr c).failed
def State.linkOn (s : State) (l : Nat) : Bool := (s.cxl l).st == .online

/-- The region of a slot that an offset lies in, when its memory is usable: the member, its address,
and the region's number for the test of holes (R395, R396, R402). -/
def State.place (s : State) (m o : Nat) : Option (Nat × Nat × Nat) :=
  if m < 20 then
    if o < gb 48 ∧ s.stackOn m then some (m, o, 0) else none
  else if m < 24 then
    let g := m - 20
    if s.mem.fourWay.get g false then
      if o < 4 * gb (s.ddr (4 * g)).size ∧ (List.range 4).all (fun j => s.chanOn (4 * g + j)) then
        some (32 + 4 * g + o / 4096 % 4, o / 16384 * 4096 + o % 4096, 0)
      else none
    else
      let j := o / 0x2000000000
      let a := o % 0x2000000000
      if j < 4 ∧ a < gb (s.ddr (4 * g + j)).size ∧ s.chanOn (4 * g + j) then some (32 + 4 * g + j, a, j)
      else none
  else
    let p := m - 24
    if s.mem.twoWay.get p false then
      if o < 2 * gb (s.cxl (2 * p)).cap ∧ s.linkOn (2 * p) ∧ s.linkOn (2 * p + 1) then
        some (64 + 2 * p + o / 4096 % 2, o / 8192 * 4096 + o % 4096, 0)
      else none
    else
      let h := o / 0x4000000000
      let a := o % 0x4000000000
      if h < 2 ∧ a < gb (s.cxl (2 * p + h)).cap ∧ s.linkOn (2 * p + h) then some (64 + 2 * p + h, a, h)
      else none

/-- Member and member address of a device address of mover m. -/
def State.memAt (s : State) (m a : Nat) : Option (Nat × Nat) :=
  if a < slotBase m then none else (s.place m (a - slotBase m)).map (fun (k, b, _) => (k, b))

/-- The whole range [a, a + n) lies in usable memory of the mover, with no hole (R402 check 2). -/
def State.rangeOk (s : State) (m a n : Nat) : Bool :=
  decide (slotBase m ≤ a) && decide (0 < n) &&
  (match s.place m (a - slotBase m), s.place m (a + n - 1 - slotBase m) with
   | some (_, _, r), some (_, _, q) => r == q
   | _, _ => false)

/-- The mover that serves a device address (R397). -/
def moverOf (a : Nat) : Option Nat :=
  (List.range 28).find? (fun m =>
    decide (slotBase m ≤ a) && decide (a < slotBase m + (if m < 20 then 0xC00000000 else 0x8000000000)))

/-- Error page of a member. -/
def memPage (k : Nat) : Nat :=
  if k < 32 then pgHbm k else if k < 64 then pgDdr (k - 32) else pgCxl ((k - 64) / 2)

/-! ## Bytes -/

def memKey (k b : Nat) : Nat := k * 2 ^ 48 + b

/-- A byte of a tier; memory that is not there reads as nothing. -/
def State.memByte (s : State) (m a : Nat) : Option Byte :=
  (s.memAt m a).map (fun (k, b) => s.mem.bytes.get (memKey k b) 0)

/-- Write a byte of a tier. -/
def setMemByte (m a : Nat) (v : Byte) (s : State) : State :=
  match s.memAt m a with
  | some (k, b) => { s with mem := { s.mem with bytes := s.mem.bytes.put (memKey k b) v 0 } }
  | none => s

/-- Write whole granules: their uncorrectable errors go (R419). -/
def writeMem (m a : Nat) (bs : List Byte) (s : State) : State :=
  let s := bs.zipIdx.foldl (fun s (v, i) => setMemByte m (a + i) v s) s
  (List.range (cdiv bs.length 64)).foldl (fun s g =>
    match s.memAt m (a + 64 * g) with
    | some (k, b) => { s with mem := { s.mem with bad := s.mem.bad.put (memKey k b / 64) false false } }
    | none => s) s

/-- A granule holds an uncorrectable error. -/
def State.granBad (s : State) (m a : Nat) : Bool :=
  match s.memAt m a with
  | some (k, b) => s.mem.bad.get (memKey k b / 64) false
  | none => true

/-- Mark a granule uncorrectable. -/
def markBad (m a : Nat) (s : State) : State :=
  match s.memAt m a with
  | some (k, b) => { s with mem := { s.mem with bad := s.mem.bad.put (memKey k b / 64) true false } }
  | none => s

/-- Tier of a mover, 0 to 2. -/
def tierOf (m : Nat) : Nat := if m < 20 then 0 else if m < 24 then 1 else 2

/-- Bytes that a mover moves for a context (R333): of its tier, and on a stack, also as a part of what every context
moves there. -/
def accountMove (m c n : Nat) (s : State) : State :=
  let s := account c (tierOf m) n s
  if m < 20 then account c (acctStack + m) n (accountAll (acctStackAll + m) n s) else s

/-! ## Segment table (R331, R332) -/

/-- The range one segment entry of a context covers, when valid: first byte, one past the last. -/
def State.seg (s : State) (c i : Nat) : Option (Nat × Nat × Word) :=
  let lo := s.devReg (pgCtx c) (0x1C0 + 16 * i)
  let b := fld lo 12 36 * 4096
  if bit lo 0 then some (b, b + fld (s.devReg (pgCtx c) (0x1C8 + 16 * i)) 0 36 * 4096, lo) else none

/-- One valid entry with the permission holds the whole range (R332). -/
def State.segAllows (s : State) (c a n : Nat) (write : Bool) : Bool :=
  (List.range 16).any (fun i => match s.seg c i with
    | some (b, e, lo) => decide (b ≤ a) && decide (a + n ≤ e) && bit lo (if write then 4 else 3)
    | none => false)

/-- Contexts with a valid entry that overlaps [a, e) (R417). -/
def State.mappedTo (s : State) (a e : Nat) : List Nat :=
  (List.range 8).filter (fun c => (List.range 16).any (fun i => match s.seg c i with
    | some (b, f, _) => decide (b < e) && decide (a < f)
    | none => false))

/-- Clear VALID of every entry that overlaps [a, e) (R417). -/
def clearSegs (a e : Nat) (s : State) : State :=
  (List.range 8).foldl (fun s c => (List.range 16).foldl (fun s i => match s.seg c i with
    | some (b, f, lo) =>
      if b < e ∧ a < f then s.setDevReg (pgCtx c) (0x1C0 + 16 * i) (setFld lo 0 1 0) else s
    | none => s) s) s

/-! ## Descriptor fields (R401) -/

def Desc.w (d : Desc) (i : Nat) : Word := d.ws.getD i 0
def Desc.load (d : Desc) : Bool := fld (d.w 0) 0 4 == 1
def Desc.doneEn (d : Desc) : Bool := bit (d.w 0) 4
def Desc.stageEn (d : Desc) : Bool := bit (d.w 0) 6
def Desc.addr (d : Desc) : Nat := fld (d.w 1) 0 48
def Desc.len (d : Desc) : Nat := fld (d.w 2) 0 30
def Desc.dest (d : Desc) : Nat := fld (d.w 3) 0 13
def Desc.win (d : Desc) : Nat := fld (d.w 3) 13 4
def Desc.off (d : Desc) : Nat := fld (d.w 3) 17 20

/-- The completion increment's word 1 (R405). -/
def Desc.doneW1 (d : Desc) : Word :=
  cntW1 (fld (d.w 4) 13 4) (fld (d.w 4) 41 8) (bit (d.w 0) 5) (fld (d.w 4) 17 24) 0 0 0 false false

/-- The staged acknowledgement's word 1 (R336, R405). -/
def Desc.stageW1 (d : Desc) : Word := cntW1 (fld (d.w 5) 13 4) (fld (d.w 5) 17 8) true 1 0 0 0 false false

def Desc.cunit (d : Desc) : Nat := fld (d.w 4) 0 13
def Desc.sunit (d : Desc) : Nat := fld (d.w 5) 0 13

def State.mover (s : State) (m : Nat) : Mover := s.mov.get m {}
def setMover (m : Nat) (v : Mover) (s : State) : State := { s with mov := s.mov.put m v {} }

/-- The format check (R402 check 1). -/
def descFormat (s : State) (d : Desc) : Bool :=
  let op := fld (d.w 0) 0 4
  (op == 1 || op == 2) && fld (d.w 0) 7 57 == 0 && fld (d.w 1) 48 16 == 0 && fld (d.w 2) 30 34 == 0 &&
  fld (d.w 3) 37 27 == 0 && fld (d.w 4) 49 15 == 0 && fld (d.w 5) 25 39 == 0 && d.w 6 == 0 && d.w 7 == 0 &&
  (op == 1 || d.w 3 == 0) && d.addr % 64 == 0 && d.off % 64 == 0 && d.len % 64 == 0 && d.len != 0 &&
  (!d.doneEn || s.unitExists d.cunit) && (!d.stageEn || s.unitExists d.sunit)

/-- The check a descriptor fails (R402). -/
def descCheck (s : State) (m : Nat) (d : Desc) : Option Err :=
  if !descFormat s d then some .movFormat
  else if !s.rangeOk m d.addr d.len then some .movRange
  else if !s.segAllows d.ctx d.addr d.len (!d.load) then some .segViolation
  else if d.load then
    let (lines, c) := (s.mover m).grants.get (d.dest * 16 + d.win) (0, 0)
    if lines ≠ 0 ∧ c = d.ctx ∧ d.off + d.len ≤ lines * 64 then none else some .movCredit
  else none

/-- Detail of a mover error (R421). -/
def movItems (src addr : Nat) : List (Nat × Nat) := [(13, src), (48, addr)]

/-- Little-endian words of 64 bytes. -/
def words8 (bs : List Byte) : List Word :=
  (List.range 8).map (fun i => BitVec.ofNat 64 (leNat ((bs.drop (8 * i)).take 8)))

/-- Accept the descriptors of a message one by one; the first that fails ends the message (R402). -/
def acceptDescs (m : Nat) (msg : Msg) : Nat → List Byte → State → State
  | 0, _, s => rimRefuse msg 0 s
  | n + 1, bs, s =>
    let v := s.mover m
    let d : Desc := { src := msg.src, ctx := msg.sctx, ws := words8 (bs.take 64), seq := v.seq,
                      spoiled := v.ended.get (msg.src * 8 + msg.sctx) false }
    match descCheck s m d with
    | some e => rimRefuse msg 6 (raise (pgMov m) e (movItems msg.src d.addr) (some msg.sctx) s)
    | none => acceptDescs m msg n (bs.drop 64) (setMover m { v with queue := v.queue ++ [d], seq := v.seq + 1 } s)

/-- Accepted descriptors that are not complete (R408). -/
def Mover.held (v : Mover) : Nat := (v.queue.filter (fun d => !d.done)).length

/-- MOVER_DESCRIPTOR (R400, R402, R408): a WIN 0 message with room for its descriptors, or a message
of another window than 0 and 1. -/
def execMoverDescriptor (m : Fin 28) (s : State) : Host.Outcome State Fault Refusal :=
  .next (if s.stop.fatal then s else
    onRim (movUnit m.val) (fun msg => msg.op == 0x01 && msg.win != 1 &&
        (msg.win != 0 || decide ((s.mover m.val).held + msg.payload.length / 64 ≤ 256))) (fun msg s =>
      let n := msg.payload.length
      if msg.win ≠ 0 ∨ msg.mlen ≠ n ∨ n % 64 ≠ 0 ∨ n = 0 then
        rimRefuse msg 6 (raise (pgMov m.val) .movFormat (movItems msg.src 0) (some msg.sctx) s)
      else acceptDescs m.val msg (n / 64) msg.payload s) s)

/-! ## Ending a descriptor -/

/-- Remove descriptor i of the queue, which does not complete: the later ones of its source and context, those in
the queue and those to come, send no staged acknowledgement (R405). Data that it has not written is refused. -/
def endDesc (m i : Nat) (s : State) : State :=
  let v := s.mover m
  match v.queue[i]? with
  | some d =>
    let q := v.queue.map (fun e =>
      if e.src = d.src ∧ e.ctx = d.ctx ∧ d.seq < e.seq then { e with spoiled := true } else e)
    let s := setMover m { v with queue := q.eraseIdx i, ended := v.ended.put (d.src * 8 + d.ctx) true false } s
    d.fill.foldl (fun s (_, msg) => rimRefuse msg 6 s) s
  | none => s

/-- The mover works: no HALT of its page (R501, R516), no FATAL stop. -/
def State.movRuns (s : State) (m : Nat) : Bool := !(s.hdr (pgMov m)).halt && !s.stop.fatal

/-- The context's descriptors that have not started wait (R410). -/
def State.ctxWaits (s : State) (c : Nat) : Bool :=
  (s.ctx c).st == .preempting || (s.ctx c).st == .preempted

/-! ## STORE data (R404, R407) -/

/-- Bytes of a STORE that the mover has accepted and not written. -/
def Desc.waiting (d : Desc) : Nat := (d.fill.map (fun (_, m) => m.payload.length)).sum - d.part

/-- Index of the oldest STORE of a source that lacks data. -/
def Mover.storeOf (v : Mover) (src : Nat) : Option Nat :=
  v.queue.findIdx? (fun d => d.src == src && !d.load && !d.done && decide (d.pos + d.waiting < d.len))

/-- A message of STORE data whose STORE is descriptor i: it is accepted, to be written piece by piece (R404, R408). -/
def storeInto (m i : Nat) (d : Desc) (msg : Msg) (s : State) : State :=
  let n := msg.payload.length
  let v := s.mover m
  if msg.mlen ≠ n ∨ n % 64 ≠ 0 ∨ n = 0 ∨ n > d.len - d.pos - d.waiting then
    rimRefuse msg 6 (endDesc m i (raise (pgMov m) .movFormat (movItems msg.src d.addr) (some msg.sctx) s))
  else
    setMover m { v with queue := v.queue.set i { d with fill := d.fill ++ [(v.seq, msg)] }, seq := v.seq + 1 } s

/-- STORE_DATA (R404): a halted mover accepts data too, it only starts no piece (R516). -/
def execStoreData (m : Fin 28) (s : State) : Host.Outcome State Fault Refusal :=
  .next (if s.stop.fatal then s else
    onRim (movUnit m.val) (fun msg => msg.op == 0x01 && msg.win == 1) (fun msg s =>
      match (s.mover m.val).storeOf msg.src with
      | some i => match (s.mover m.val).queue[i]? with
        | some d => storeInto m.val i d msg s
        | none => s
      | none =>
        rimRefuse msg 6 (raise (pgMov m.val) .movFormat (movItems msg.src 0) (some msg.sctx) s)) s)

/-! ## Pieces (R403, R406, R408) -/

/-- Minimum efficient size of a mover's path (R265). -/
def pieceSize (m : Nat) : Nat := if m < 20 then 2048 else 4096

/-- Bytes that descriptor e has accepted before acceptance `k` and not written: they follow `e.pos`. -/
def Desc.before (e : Desc) (k : Nat) : Nat :=
  ((e.fill.filter (fun (j, _) => decide (j < k))).map (fun (_, m) => m.payload.length)).sum - e.part

/-- STORE data accepted before acceptance `k` for bytes of [a, b) is not all written (R407). -/
def Mover.owed (v : Mover) (k a b : Nat) : Bool :=
  v.queue.any (fun e => e.before k != 0 && decide (e.addr + e.pos < b) && decide (a < e.addr + e.pos + e.before k))

/-- A LOAD's next piece waits for STORE data that was accepted earlier for bytes of it (R407). -/
def Mover.loadWaits (v : Mover) (m : Nat) (d : Desc) : Bool :=
  v.owed d.seq (d.addr + d.pos) (d.addr + d.pos + min (pieceSize m) (d.len - d.pos))

/-- Bytes of a STORE's oldest data message that a piece with room for `room` bytes writes next: none while data
accepted earlier, whichever STORE it is of, is owed there (R407). -/
def Mover.storeNow (v : Mover) (d : Desc) (room : Nat) : Nat :=
  match d.fill with
  | [] => 0
  | (k, msg) :: _ =>
    let n := min room (msg.payload.length - d.part)
    if v.owed k (d.addr + d.pos) (d.addr + d.pos + n) then 0 else n

/-- A descriptor has a piece to serve: a LOAD with fewer than 16 unsettled WRITEs, a STORE with data, or one whose
range is usable no more, which ends (R403, R404, R410); one not started waits while its context is pre-empted. -/
def State.pieceReady (s : State) (m : Nat) (v : Mover) (d : Desc) : Bool :=
  if d.pos == 0 && d.part == 0 && s.ctxWaits d.ctx then false
  else if !s.rangeOk m d.addr d.len then true
  else if d.load then decide (d.writes.length < 16) && !v.loadWaits m d
  else decide (v.storeNow d (pieceSize m) ≠ 0)

/-- The descriptor of a source and context whose piece is next: the oldest with data to move (R408). -/
def State.nextOf (s : State) (m : Nat) (v : Mover) (src c : Nat) : Option Nat :=
  match v.queue.findIdx? (fun d => d.src == src && d.ctx == c && !d.done && decide (d.pos < d.len)) with
  | none => none
  | some i => match v.queue[i]? with
    | some d => if s.pieceReady m v d then some i else none
    | none => none

/-- Sources of a context with a piece to serve, rising. -/
def State.sources (s : State) (m : Nat) (v : Mover) (c : Nat) : List Nat :=
  ((v.queue.map (·.src)).eraseDups.filter (fun u => (s.nextOf m v u c).isSome)).mergeSort (· ≤ ·)

/-- The first after `last` in a rising list, wrapping. -/
def after (last : Nat) (l : List Nat) : Option Nat := ((l.filter (· > last)) ++ l).head?

/-- Context and source served next, round-robin (R408). -/
def State.nextPiece (s : State) (m : Nat) (v : Mover) : Option (Nat × Nat × Nat) :=
  match after v.rrCtx ((List.range 8).filter (fun c => !(s.sources m v c).isEmpty)) with
  | none => none
  | some c => match after (v.rrSrc.get c 0) (s.sources m v c) with
    | none => none
    | some u => (s.nextOf m v u c).map (fun i => (c, u, i))

/-- Bytes a LOAD reads at [a, a + n) (R407). -/
def State.loadBytes (s : State) (m : Nat) (d : Desc) (a n : Nat) : List Byte :=
  (List.range n).map (fun i => match d.old.get (a + i) 0 with
    | 0 => (s.memByte m (a + i)).getD 0
    | v + 1 => BitVec.ofNat 8 v)

/-- Granule g as LOAD d reads it is uncorrectable: what it kept of an earlier content, else the memory (R406, R407). -/
def State.loadBad (s : State) (m : Nat) (d : Desc) (g : Nat) : Bool :=
  if d.old.get g 0 = 0 then s.granBad m g else d.oldBad.contains g

/-- Errors that LOAD d's read of [a, a + n) meets (R406, R418): the first uncorrectable granule, if any. -/
def readErrs (m : Nat) (d : Desc) (a n : Nat) (ecc : List Upset) (s : State) : Option Nat × State :=
  let here := ecc.filter (fun u => decide (a ≤ u.addr) && decide (u.addr < a + n))
  let s := here.foldl (fun s u =>
    if u.dbl then markBad m u.addr s
    else match s.memAt m u.addr with
      | some (k, _) => raise (memPage k) .memCorrected [(48, u.addr / 64 * 64)] none s
      | none => s) s
  ((List.range (cdiv n 64)).findSome? (fun g =>
    if s.loadBad m d (a + 64 * g) then some (a + 64 * g) else none), s)

/-- A WRITE of a LOAD (R403). -/
def loadWrite (m : Nat) (v : Mover) (d : Desc) (bs : List Byte) : Msg :=
  { op := 0x01, src := movUnit m, dest := d.dest, sctx := d.ctx, priv := true, tctx := d.ctx,
    w1 := winW1 d.win (d.off + d.sent) bs.length, tag := v.tag, payload := bs }

/-- Send what a LOAD has read as WRITEs of 4,096 bytes, the last one shorter (R403). -/
def sendLoad (m i : Nat) (s : State) : State :=
  let v := s.mover m
  match v.queue[i]? with
  | none => s
  | some d =>
    if d.buf.length ≥ 4096 ∨ (d.pos = d.len ∧ !d.buf.isEmpty) then
      let bs := d.buf.take 4096
      let msg := loadWrite m v d bs
      let d' := { d with buf := d.buf.drop 4096, sent := d.sent + bs.length, writes := d.writes ++ [{ msg := msg }] }
      sendMsg msg (setMover m { v with queue := v.queue.set i d', tag := (v.tag + 1) % 2 ^ 32 } s)
    else s

/-- Descriptors accepted earlier keep what they have not read of the range that is overwritten, good or bad (R407). -/
def keepOld (s : State) (m a n seq : Nat) (d : Desc) : Desc :=
  if d.load && decide (d.seq < seq) then
    let fresh (b : Nat) : Bool := decide (d.addr + d.pos ≤ b) && decide (b < d.addr + d.len) && d.old.get b 0 == 0
    { d with
      oldBad := d.oldBad ++ ((List.range (cdiv n 64)).map (fun g => a + 64 * g)).filter (fun g => fresh g && s.granBad m g),
      old := (List.range n).foldl (fun o i =>
        if fresh (a + i) then o.put (a + i) (((s.memByte m (a + i)).getD 0).toNat + 1) 0 else o) d.old }
  else d

/-- `n` bytes of the oldest data message of STORE descriptor i are written; a message is acknowledged once it is
written whole (R404). -/
def storeBytes (m i n : Nat) (d : Desc) (s : State) : State :=
  match d.fill with
  | [] => s
  | (seq, msg) :: rest =>
    let a := d.addr + d.pos
    let bs := (msg.payload.drop d.part).take n
    let whole := d.part + n = msg.payload.length
    let v := s.mover m
    let q := (v.queue.map (keepOld s m a n seq)).set i
      { d with pos := d.pos + n, fill := if whole then rest else d.fill, part := if whole then 0 else d.part + n }
    let s := accountMove m d.ctx n (writeMem m a bs (setMover m { v with queue := q } s))
    if whole then rimRefuse msg 0 s else s

/-- The data messages of STORE descriptor i, up to `k`, that a piece with room for `room` bytes takes up. -/
def storeRun (m i : Nat) : Nat → Nat → State → State
  | 0, _, s => s
  | k + 1, room, s =>
    match (s.mover m).queue[i]? with
    | none => s
    | some d =>
      let n := (s.mover m).storeNow d room
      if n = 0 then s else storeRun m i k (room - n) (storeBytes m i n d s)

/-- One piece of STORE descriptor i: of the data that waits, whatever messages it came in (R404, R408). -/
def storePiece (m i : Nat) (d : Desc) (s : State) : State :=
  if !s.rangeOk m d.addr d.len then
    let s := if d.pos = 0 then raise (pgMov m) .movRange (movItems d.src d.addr) (some d.ctx) s else s
    endDesc m i s
  else storeRun m i d.fill.length (pieceSize m) s

/-- One piece of LOAD descriptor i. -/
def loadPiece (m i : Nat) (d : Desc) (ecc : List Upset) (s : State) : State :=
  let a := d.addr + d.pos
  let n := min (pieceSize m) (d.len - d.pos)
  if !s.rangeOk m d.addr d.len then
    let s := endDesc m i s
    if d.pos = 0 then raise (pgMov m) .movRange (movItems d.src d.addr) (some d.ctx) s else s
  else
    let (bad, s) := readErrs m d a n ecc s
    match bad with
    | some g =>
      let s := endDesc m i s
      match s.memAt m g with
      | some (k, _) => raise (memPage k) .memUncorrectable [(48, g)] (some d.ctx) s
      | none => s
    | none =>
      let v := s.mover m
      let d' := { d with pos := d.pos + n, buf := d.buf ++ s.loadBytes m d a n }
      let s := setMover m { v with queue := v.queue.set i d' } s
      sendLoad m i (accountMove m d.ctx n s)

/-- MOVER_PIECE (R408). -/
def execMoverPiece (m : Fin 28) (ecc : List Upset) (s : State) : Host.Outcome State Fault Refusal :=
  .next (if !s.movRuns m.val then s else
    let v := s.mover m.val
    match s.nextPiece m.val v with
    | none => s
    | some (c, u, i) =>
      let s := setMover m.val { v with rrCtx := c, rrSrc := v.rrSrc.put c u 0 } s
      match v.queue[i]? with
      | some d => if d.load then loadPiece m.val i d ecc s else storePiece m.val i d s
      | none => s)

/-! ## Completion (R405) -/

/-- Every WRITE answered, or every byte written. -/
def Desc.complete (d : Desc) : Bool :=
  if d.load then d.sent == d.len && d.writes.isEmpty else d.pos == d.len

/-- Send an increment of a mover, and keep it for a FROZEN answer (R219, R405). -/
def movInc (m c dest : Nat) (w1 : Word) (s : State) : State :=
  let v := s.mover m
  let msg : Msg := { op := 0x08, src := movUnit m, dest := dest, sctx := c, priv := true, tctx := c,
                     w1 := w1, tag := v.tag }
  sendMsg msg (setMover m { v with tag := (v.tag + 1) % 2 ^ 32, incs := v.incs ++ [{ msg := msg }] } s)

/-- Complete descriptors leave, in order; a staged acknowledgement waits for the earlier descriptors of
its source and context, and is not sent where one of them has ended without completing (R405). Answers the rest and those whose acknowledgement goes out. -/
def flushDone : List Desc → List Desc → List Desc × List Desc
  | _, [] => ([], [])
  | before, d :: ds =>
    let blocked := before.any (fun e => e.src == d.src && e.ctx == d.ctx)
    if d.done && !(d.stageEn && blocked) then
      let (r, o) := flushDone before ds
      (r, if d.stageEn && !d.spoiled then d :: o else o)
    else
      let (r, o) := flushDone (before ++ [d]) ds
      (d :: r, o)

/-- DESCRIPTOR_COMPLETE (R405). -/
def execDescriptorComplete (m : Fin 28) (s : State) : Host.Outcome State Fault Refusal :=
  .next (
    let v := s.mover m.val
    match v.queue.findIdx? (fun d => !d.done && d.complete) with
    | none => s
    | some i => match v.queue[i]? with
      | none => s
      | some d =>
        let v := { v with queue := v.queue.set i { d with done := true } }
        let (rest, stage) := flushDone [] v.queue
        let s := setMover m.val { v with queue := rest } s
        let s := if d.doneEn then movInc m.val d.ctx d.cunit d.doneW1 s else s
        stage.foldl (fun s d => movInc m.val d.ctx d.sunit d.stageW1 s) s)

/-! ## Answers (R405, R406) -/

/-- An ACK at a mover: a WRITE is settled, ends its LOAD, or waits to be resent (R406). -/
def moverAck (m : Nat) (a : Msg) (s : State) : State :=
  let v := s.mover m
  let frz (l : List MovWrite) := l.map (fun w => if w.msg.tag = a.tag then { w with frozenAt := some s.time } else w)
  if v.incs.any (fun w => w.msg.tag == a.tag) then
    setMover m { v with incs := if a.status = 3 then frz v.incs else v.incs.filter (fun w => w.msg.tag != a.tag) } s
  else match v.queue.findIdx? (fun d => d.writes.any (fun w => w.msg.tag == a.tag)) with
  | none => s
  | some i => match v.queue[i]? with
    | none => s
    | some d =>
      if a.status = 3 then setMover m { v with queue := v.queue.set i { d with writes := frz d.writes } } s
      else if a.status = 0 then
        setMover m { v with queue := v.queue.set i { d with writes := d.writes.filter (fun w => w.msg.tag != a.tag) } } s
      else endDesc m i s

/-- An operation of the mover answered FROZEN at least 1 µs ago. -/
def Mover.thawed (v : Mover) (now : Nat) : Option Msg :=
  ((v.queue.flatMap (·.writes) ++ v.incs).find? (fun w => match w.frozenAt with
    | some t => decide (t + 1000 ≤ now)
    | none => false)).map (·.msg)

/-- MOVER_FROZEN_RESEND (R406). -/
def execMoverFrozenResend (m : Fin 28) (s : State) : Host.Outcome State Fault Refusal :=
  .next (
    let v := s.mover m.val
    match v.thawed s.time with
    | none => s
    | some msg =>
      let melt (l : List MovWrite) := l.map (fun w => if w.msg.tag = msg.tag then { w with frozenAt := none } else w)
      sendMsg msg (setMover m.val { v with queue := v.queue.map (fun d => { d with writes := melt d.writes }),
                                           incs := melt v.incs } s))

/-! ## Grants and context events (R409, R410) -/

/-- A CH_GRANT at a mover (R409). -/
def moverGrant (m : Nat) (g : Msg) (s : State) : State :=
  let v := s.mover m
  let k := g.src * 16 + g.win
  if v.grants.length ≥ 1024 ∧ v.grants.get k (0, 0) = (0, 0) then
    raise (pgMov m) .movGrantFull (movItems g.src 0) (some g.sctx) s
  else setMover m { v with grants := v.grants.put k (g.lines, g.sctx) (0, 0) } s

/-- The grants of a tile leave every mover (R409). -/
def clearMovGrants (t : Nat) (s : State) : State :=
  { s with mov := s.mov.map (fun (m, v) => (m, { v with grants := v.grants.filter (fun (k, _) => k / 16 != t) })) }

/-- Restart or teardown: the context's descriptors go, none sends a completion (R410). STORE data that is not yet
written is answered OWNER_LOST (DESIGN CHOICE, assumption 110). -/
def moverRestart (c : Nat) (s : State) : State :=
  let dropped := s.mov.flatMap (fun (_, v) => (v.queue.filter (fun d => d.ctx == c)).flatMap (·.fill))
  let s := dropped.foldl (fun s (_, msg) => rimRefuse msg 2 s) s
  { s with mov := s.mov.map (fun (m, v) =>
      (m, { v with queue := v.queue.filter (fun d => d.ctx != c),
                   ended := v.ended.filter (fun (k, _) => k % 8 != c) })) }

/-! ## Patrol scrub (R419) -/

/-- PATROL_SCRUB (R419): one granule of a stack or channel is read. -/
def patrolScrub (m addr : Nat) (ecc : List Upset) (s : State) : State :=
  match s.memAt m addr with
  | none => s
  | some (k, _) =>
    let per := if m < 20 then fld (s.devReg (pgHbm m) 0x108) 0 16 else fld (s.devReg (pgDdr (k - 32)) 0x110) 0 16
    if m ≥ 24 ∨ per = 0 ∨ s.stop.fatal then s
    else
      let a := addr / 64 * 64
      let here := ecc.filter (fun u => u.addr / 64 == a / 64)
      if here.any (·.dbl) ∨ s.granBad m a then
        raise (memPage k) .memUePatrol [(48, a)] none (markBad m a s)
      else if here.isEmpty then s
      else raise (memPage k) .memCorrected [(48, a)] none s

/-- PATROL_SCRUB (R419). -/
def execPatrolScrub (m : Fin 28) (addr : Nat) (ecc : List Upset) (s : State) :
    Host.Outcome State Fault Refusal :=
  .next (patrolScrub m.val addr ecc s)

/-! ## CXL links (R416, R417) -/

def CxlSt.toNat : CxlSt → Nat
  | .empty => 0
  | .enumerating => 1
  | .ready => 2
  | .online => 3
  | .offlining => 4
  | .rejected => 5

/-- `CXL_LSTATh` as it reads (R420). -/
def Cxl.lstat (c : Cxl) : Word := packW [(3, c.st.toNat), (2, c.width), (1, b2n c.rate), (9, c.cap), (16, c.lat)]

/-- The CXL_LINK event of a link (R444). -/
def cxlEvent (p h : Nat) (s : State) : State :=
  emit 0x0050 none [packW [(2, p), (1, h), (61, (s.cxl (2 * p + h)).lstat.toNat)]] none s

/-- The links a command on a half acts on: both of a 2-way port, through half 0 (R417). -/
def State.linksOf (s : State) (p h : Nat) (cmd : Bool) : List Nat :=
  if s.mem.twoWay.get p false then (if cmd && h == 1 then [] else [2 * p, 2 * p + 1]) else [2 * p + h]

/-- The device range of a link (R395, R396). -/
def State.linkRange (s : State) (p h : Nat) : Nat × Nat :=
  let b := slotBase (24 + p)
  if s.mem.twoWay.get p false then (b, b + 2 * gb (s.cxl (2 * p)).cap)
  else (b + h * 0x4000000000, b + h * 0x4000000000 + gb (s.cxl (2 * p + h)).cap)

/-- Set the state of links. -/
def setCxlSt (ls : List Nat) (st : CxlSt) (s : State) : State :=
  ls.foldl (fun s l => setCxl l { s.cxl l with st := st } s) s

/-- CXL_LINK_UP (R417): the half 1 of an x16 port has no link. -/
def execCxlLinkUp (p : Fin 4) (half : Fin 2) (width : Nat) (s : State) : Host.Outcome State Fault Refusal :=
  .next (
    let wide := s.mem.wide.get p.val false
    let l := 2 * p.val + half.val
    if (s.cxl l).st = .empty ∧ !(wide && half.val == 1) then
      setCxl l { st := .enumerating, width := if wide && width != 1 then 2 else 1 } s
    else s)

/-- CXL_ENUMERATED (R417). -/
def execCxlEnumerated (p : Fin 4) (half : Fin 2) (dev : CxlDevice) (s : State) :
    Host.Outcome State Fault Refusal :=
  .next (
    let l := 2 * p.val + half.val
    let c := s.cxl l
    if c.st = .enumerating then
      if dev.conforms && decide (dev.cap ≤ 256) then
        cxlEvent p.val half.val
          (setCxl l { c with st := .ready, cap := dev.cap, lat := dev.lat % 65536, rate := dev.fast } s)
      else raise (pgCxl p.val) .cxlRejected [] none (setCxl l { c with st := .rejected } s)
    else s)

/-- A removed range (R417): overlapping entries lose VALID and each mapped context gets
EXPANDER_REMOVED. -/
def removeRange (p h : Nat) (s : State) : State :=
  let (a, e) := s.linkRange p h
  let cs := s.mappedTo a e
  let s := clearSegs a e s
  cs.foldl (fun s c => raise (pgCxl p) .expanderRemoved [(48, a)] (some c) s) s

/-- A link goes down (R417): what was ONLINE or OFFLINING loses its range. -/
def linkLost (p h : Nat) (s : State) : State :=
  let l := 2 * p + h
  match (s.cxl l).st with
  | .empty => s
  | .online => go s
  | .offlining => go s
  | _ => setCxl l {} s
where
  go (s : State) : State :=
    let (a, e) := s.linkRange p h
    let cs := s.mappedTo a e
    let s := clearSegs a e s
    let s := (s.linksOf p h false).foldl (fun s l => setCxl l {} s) s
    let s := { s with mem := { s.mem with twoWay := s.mem.twoWay.put p false false } }
    cs.foldl (fun s c => raise (pgCxl p) .expanderRemoved [(48, a)] (some c) s) s

/-- CXL_LINK_DOWN (R417). -/
def execCxlLinkDown (p : Fin 4) (half : Fin 2) (s : State) : Host.Outcome State Fault Refusal :=
  .next (linkLost p.val half.val s)

/-- Both halves of a port that is asked to interleave are READY with equal capacity (R416). -/
def State.canInterleave (s : State) (p : Nat) : Bool :=
  s.mem.ilv.get p false && !s.mem.wide.get p false && (s.cxl (2 * p)).st == .ready &&
  (s.cxl (2 * p + 1)).st == .ready && (s.cxl (2 * p)).cap == (s.cxl (2 * p + 1)).cap

/-- ONLINE on a link (R417). -/
def cxlOnline (p h : Nat) (s : State) : State :=
  -- a pair that is to interleave goes ONLINE as one, through half 0
  let pair := s.canInterleave p
  let s := if pair ∧ h = 0 then { s with mem := { s.mem with twoWay := s.mem.twoWay.put p true false } } else s
  let ls := if pair ∧ h ≠ 0 then [] else s.linksOf p h true
  if !ls.isEmpty ∧ ls.all (fun l => (s.cxl l).st == .ready) then
    ls.foldl (fun s l => cxlEvent p (l % 2) s) (setCxlSt ls .online s)
  else s

/-- Management acts on a CXL link. -/
def actedCxl (p h : Nat) (f : State → State) : State → State :=
  acted (pgCxl p) (0x100 + 8 * h) (fun s => (s.cxl (2 * p + h)).lstat) f

/-- CXL_ONLINE (R417). -/
def execCxlOnline (p : Fin 4) (half : Fin 2) (s : State) : Host.Outcome State Fault Refusal :=
  .next (actedCxl p.val half.val (cxlOnline p.val half.val) s)

/-- OFFLINE on a link (R417). -/
def cxlOffline (p h : Nat) (force : Bool) (s : State) : State :=
  let ls := s.linksOf p h true
  if !ls.isEmpty ∧ ls.all (fun l => (s.cxl l).st == .online) then
    let (a, e) := s.linkRange p h
    match (if force then [] else s.mappedTo a e) with
    | c :: _ => raise (pgCxl p) .cxlBusy [(3, c)] none s
    | [] => setCxlSt ls .offlining s
  else s

/-- CXL_OFFLINE (R417). -/
def execCxlOffline (p : Fin 4) (half : Fin 2) (force : Bool) (s : State) :
    Host.Outcome State Fault Refusal :=
  .next (actedCxl p.val half.val (cxlOffline p.val half.val force) s)

/-- CXL_OFFLINE_COMPLETE (R417). -/
def execCxlOfflineComplete (p : Fin 4) (half : Fin 2) (s : State) : Host.Outcome State Fault Refusal :=
  .next (
    let ls := s.linksOf p.val half.val false
    if (s.cxl (2 * p.val + half.val)).st = .offlining then
      let s := removeRange p.val half.val (setCxlSt ls .ready s)
      let s := { s with mem := { s.mem with twoWay := s.mem.twoWay.put p.val false false } }
      ls.foldl (fun s l => cxlEvent p.val (l % 2) s) s
    else s)

/-! ## Self-refresh and link rest (R410, R466) -/

/-- Every trained stack and channel enters or leaves self-refresh. -/
def setSr (on : Bool) (s : State) : State :=
  let s := (List.range 20).foldl (fun s d =>
    if (s.hbm d).trained then setHbm d { s.hbm d with sr := on } s else s) s
  (List.range 16).foldl (fun s c =>
    if (s.ddr c).trained then setDdr c { s.ddr c with sr := on } s else s) s

/-- Every CXL link that is up rests in L1, or leaves it. -/
def setL1 (on : Bool) (s : State) : State :=
  { s with mem := { s.mem with cxl := s.mem.cxl.map (fun (l, k) =>
      (l, { k with l1 := on && (k.st == .ready || k.st == .online || k.st == .offlining) })) } }

/-- The device leaves D-idle for D0. -/
def leaveIdle (s : State) : State :=
  setL1 false (setSr false { s with pwr := { s.pwr with dstate := 0 } })

/-- A VC0 packet on a Laniem link is a wake event in D-idle only (R468): it aborts an entry in its check phase, is
latched in the commit phase, and otherwise starts the exit. -/
def vc0Wake (s : State) : State :=
  match s.pwr.entering with
  | some e =>
    if e.target ≠ 1 then s
    else if !e.commit then acctAbort 2 { s with pwr := { s.pwr with entering := none } }
    else setWake 8 { s with pwr := { s.pwr with entering := some { e with latched := e.latched ||| wakeBit 8 } } }
  | none => if s.pwr.dstate = 1 then leaveIdle (setWake 8 s) else s

end Sys2Proof.Machine
end

