-- ==== Sys2Proof/Machine/Laniem.lean ====
section
/-! DEFINITION.
The Laniem ports (R422 to R449, R451, R452): training, control blocks, packets, ingress, egress,
events, configuration sessions. A packet command means the packet with the SEQ the port expects and
a valid CRC; PACKET_DROP is any other. -/

namespace Sys2Proof.Machine

def State.port (s : State) (p : Nat) : LnmPort := s.lnm.get p {}
def setPort (p : Nat) (q : LnmPort) (s : State) : State := { s with lnm := s.lnm.put p q {} }
def onPort (p : Nat) (f : LnmPort → LnmPort) (s : State) : State := setPort p (f (s.port p)) s

def State.lnmCfg (s : State) (p : Nat) : Word := s.devReg (pgLnm p) 0x100

def LState.toNat : LState → Nat
  | .disabled => 0
  | .dark => 1
  | .lock => 2
  | .eq => 3
  | .align => 4
  | .hello => 5
  | .up => 6
  | .down => 7

def Role.toNat : Role → Nat
  | .none => 0
  | .control => 1
  | .peer => 2

/-- `LNM_STAT` as it reads (R451). -/
def LnmPort.stat (q : LnmPort) : Word :=
  packW [(3, q.st.toNat), (2, q.role.toNat), (8, q.pkind), (8, q.version), (4, q.cause), (16, q.linkups),
    (11, q.grants.length)]

/-! ## Blocks on the line (R424, R431) -/

/-- A byte string in 64-byte blocks. -/
def blocks (bs : List Byte) : List (List Byte) := groupsOf 64 (cdiv bs.length 64) bs

def zeros (n : Nat) : List Byte := List.replicate n 0

/-- The header block of a packet (R431); bytes 24 to 27 carry the credit of a CFG_RESP (R446). -/
def hdrBlock (typ : Nat) (k : LnmPkt) : List Byte :=
  leBytes 8 (pack [(8, typ), (3, k.tctx), (1, b2n k.ackreq), (1, b2n k.first), (1, b2n k.last), (2, k.tkind),
    (16, k.bytes), (32, k.tag)]) ++
  leBytes 8 k.target.toNat ++ leBytes 8 (pack [(8, k.status), (2, k.pkt)]) ++ leBytes 4 k.extra ++ zeros 36

/-- The blocks of a packet with a sequence number: header, payload filled with zeros, trailer with SEQ and the
CRC over header and payload blocks (R431). -/
def pktLine (typ seq : Nat) (k : LnmPkt) : List (List Byte) :=
  let body := hdrBlock typ k ++ k.payload ++ zeros (cdiv k.payload.length 64 * 64 - k.payload.length)
  blocks (body ++ leBytes 4 seq ++ leBytes 4 (crc32c body) ++ zeros 56)

/-- Put a packet on the line after what waits for it. -/
def putLine (typ seq : Nat) (k : LnmPkt) (q : LnmPort) : LnmPort := { q with line := q.line ++ pktLine typ seq k }

/-- The device's own receive buffers in blocks (R434). -/
def ownBuf0 : Nat := 4096
def ownBuf1 : Nat := 1024

/-- The device's own hello record (R428). -/
def ownHello (p agreed : Nat) (id : BitVec 128) : List Byte :=
  [1, 1, 2, BitVec.ofNat 8 p] ++ leBytes 4 0x1F ++ leBytes 4 ownBuf0 ++ leBytes 4 ownBuf1 ++ leBytes 16 id.toNat ++
  leBytes 1 agreed ++ zeros 95

/-- The HELLO packet of a port; before UP it has SEQ 0 (DESIGN CHOICE, assumption 111). -/
def helloPkt (p agreed : Nat) (id : BitVec 128) : LnmPkt :=
  { first := true, last := true, bytes := 128, payload := ownHello p agreed id }

/-- Bytes 0 to 59 of the control block that a port sends (R425); before a packet has been accepted ACKSEQ is
the number before the first (DESIGN CHOICE, assumption 111). -/
def ctlBody (q : LnmPort) : List Byte :=
  leBytes 8 0x5A3C96E10F78C3A5 ++ leBytes 4 q.sfSeq ++ leBytes 4 ((q.rxSeq + (2 ^ 32 - 1)) % 2 ^ 32) ++ leBytes 4 q.rxSeq ++
  leBytes 4 q.freed0 ++ leBytes 4 q.freed1 ++ leBytes 1 q.st.toNat ++ leBytes 1 (b2n q.nak + 2 * b2n q.downReq) ++ zeros 30

def ctlBlock (q : LnmPort) : List Byte := let b := ctlBody q; b ++ leBytes 4 (crc32c b)

/-- The next superframe (R424): the control block, the blocks that wait, idle blocks for the rest. -/
def superframe (q : LnmPort) : List (List Byte) :=
  let d := q.line.take 256
  ctlBlock q :: (d ++ List.replicate (256 - d.length) (zeros 64))

/-! ## Going up and down (R426 to R430, R448, R449) -/

/-- Role of a link (R430). -/
def roleOf (cfg : Word) (r : HelloRec) : Role :=
  if r.kind = 1 ∧ bit (BitVec.ofNat 64 r.cap) 5 ∧ bit cfg 1 then .control
  else if r.kind = 2 ∧ bit cfg 2 then .peer else .none

/-- Egress packets of an accepted tile message (R442); the last one carries its ACK. -/
def egressPkts (s : State) (p : Nat) (m : Msg) : List LnmPkt :=
  let w := s.devReg (pgLnm p) (0x200 + 16 * m.win)
  let b := s.devReg (pgLnm p) (0x208 + 16 * m.win)
  if bit w 4 then
    writePkts 1 (fld w 20 3) (packW [(13, fld b 0 13), (4, fld b 13 4), (20, m.off), (13, m.mlen)]) m.payload
  else writePkts 2 (fld w 1 3) (b + BitVec.ofNat 64 m.off) m.payload

/-- Queue the packets of a tile message at the port, its ACK on the last (R442). -/
def egressSend (p : Nat) (m : Msg) (s : State) : State :=
  let ps := egressPkts s p m
  let c := fld (s.devReg (pgLnm p) (0x200 + 16 * m.win)) 1 3
  ps.foldl (fun s k => outPkt p 0x01 c k (if k.last then some m else none) s) s

/-- Drop a tile message for a port that is down: acknowledged and counted (R448). -/
def egressDrop (p : Nat) (m : Msg) (s : State) : State := (rimRefuse m 0 s).stat (pgLnm p) 0x70 1

/-- Entry to UP (R426, R430, R449). -/
def goUp (p : Nat) (r : HelloRec) (s : State) : State :=
  let q := s.port p
  let role := roleOf (s.lnmCfg p) r
  let fresh := r.id != q.lastId
  let q' := { q with st := .up, role := role, pkind := r.kind, version := 1,
                     linkups := satTo 65535 (q.linkups + 1), since := s.time, lastId := r.id,
                     txSeq := 0, rxSeq := 0, nak := false, replay := [], replayPos := none, replaySeq := 0, replays := 0,
                     grant0 := r.buf0, grant1 := r.buf1, used0 := 0, used1 := 0, cred0 := 0, cred1 := 0,
                     freed0 := 0, freed1 := 0, badSf := 0, outq := [], asm := none, held := [] }
  let s := setPort p q' s
  let s := emit 0x0001 none [packW [(3, p), (2, role.toNat), (8, r.kind), (1, b2n fresh)],
    r.id.extractLsb' 0 64, r.id.extractLsb' 64 64] (some p) s
  -- held egress writes go to a partner whose role admits them
  if role = .none then onPort p (fun x => { x with held := q.held }) s
  else q.held.foldl (fun s m => egressSend p m s) s

/-- A configuration session closes; a pour that is still POURING aborts (R292, R446). -/
def closeSession (c : Nat) (s : State) : State :=
  let s := if (s.pour c).st = .pouring then abortPour c s else s.setPour c { s.pour c with inb := [] }
  setSession c none s

/-- Leave UP (R448). -/
def leaveUp (p cause : Nat) (s : State) : State :=
  let q := s.port p
  let back := q.outq.filterMap (·.ackOf)
  -- the partner does not learn the fate of what was not answered
  let mute (l : List InWrite) : List InWrite := l.map (fun w => { w with ackreq := false })
  let s := setPort p { q with outq := [], replay := [], replayPos := none, asm := none, attBusy := false,
                              ctxq := q.ctxq.map (fun (c, l) => (c, mute l)), holdq := q.holdq.map (fun (c, l) => (c, mute l)),
                              issued := q.issued.map (fun i => { i with ackreq := false }) } s
  -- unsent egress writes: dropped and acknowledged, or held for the next link
  let s := back.foldl (fun s m =>
    if bit (s.devReg (pgLnm p) (0x200 + 16 * m.win)) 5 then onPort p (fun x => { x with held := x.held ++ [m] }) s
    else egressDrop p m s) s
  let s := (List.range 8).foldl (fun s c => match s.session c with
    | some e => if e.port = p then closeSession c s else s
    | none => s) s
  -- register requests complete, but nothing answers them
  let accQ := s.mgt.accQ.map (fun (k, l) => (k, if k = 2 + p then l.map (fun a => { a with ans := none }) else l))
  let flying := s.mgt.flying.map (fun (k, a) =>
    (k, if k = 2 + p then a.map (fun a => { a with ans := none }) else a))
  -- and so do attestation requests: one that waits goes, the report of one being signed is for nobody
  let attQ := s.mgt.attQ.filter (fun r => r.src != p)
  let signing := s.mgt.signing.map (fun r => if r.req.src = p then { r with req := { r.req with src := 9 } } else r)
  let s := { s with mgt := { s.mgt with accQ := accQ, flying := flying, attQ := attQ, signing := signing } }
  let s := emit 0x0002 none [packW [(3, p), (4, cause)]] (some p) s
  raise (pgLnm p) .lnmLinkDown [(8, 0), (3, 0), (32, 0)] none s

/-- Leave the current state for DOWN or DISABLED with a cause. -/
def goDown (p cause : Nat) (st : LState) (s : State) : State :=
  let was := (s.port p).st
  let s := onPort p (fun q => { q with st := st, role := .none, pkind := 0, version := 0, cause := cause,
                                       since := s.time, partner := none, sentAgreed := 0, helloAt := none,
                                       line := [] }) s
  if was = .up then leaveUp p cause s else s

/-! ## Training events (R426, R427) -/

/-- A transition from one state to another. -/
def trainTo (p : Nat) (from_ dst : LState) (s : State) : State :=
  if (s.port p).st = from_ then onPort p (fun q => { q with st := dst, since := s.time }) s else s

/-- `LNM_CFG.EN` has become 1 (R426). -/
def portOn (p : Nat) (s : State) : State := trainTo p .disabled .dark s

/-- `LNM_CFG.EN` has become 0 (R426): a DOWN request goes out from ALIGN on. -/
def portOff (p : Nat) (s : State) : State :=
  let st := (s.port p).st
  if st = .disabled then s
  else
    let late := st == .align || st == .hello || st == .up
    goDown p 1 .disabled (onPort p (fun q => { q with downReq := late }) s)

def setEn (p : Nat) (b : Bool) (s : State) : State := s.setDevReg (pgLnm p) 0x100 (setFld (s.lnmCfg p) 0 1 (b2n b))

/-- A write of `LNM_CFG` (R451). -/
def writeLnmCfg (p : Nat) (v : Word) (s : State) : State :=
  let s := s.setDevReg (pgLnm p) 0x100 (setFld v 33 31 0)
  if bit v 0 then portOn p s else portOff p s

/-- Management acts on a port. -/
def actedPort (p : Nat) (f : State → State) : State → State :=
  acted (pgLnm p) 0x108 (fun s => (s.port p).stat) f

/-- PORT_ENABLE (R426). -/
def execPortEnable (p : Fin 8) (s : State) : Host.Outcome State Fault Refusal :=
  .next (actedPort p.val (fun s => portOn p.val (setEn p.val true s)) s)

/-- PORT_DISABLE (R426). -/
def execPortDisable (p : Fin 8) (s : State) : Host.Outcome State Fault Refusal :=
  .next (actedPort p.val (fun s => portOff p.val (setEn p.val false s)) s)

/-- LIGHT_DETECT (R426). -/
def execLightDetect (p : Fin 8) (s : State) : Host.Outcome State Fault Refusal :=
  .next (trainTo p.val .dark .lock s)

/-- LANE_LOCK (R426). -/
def execLaneLock (p : Fin 8) (s : State) : Host.Outcome State Fault Refusal :=
  .next (trainTo p.val .lock .eq s)

/-- The transmit swing step nearest to the one asked for within the bounds of `LNM_EQ` (R427). -/
def State.swingIn (s : State) (p step : Nat) : Nat :=
  let w := s.devReg (pgLnm p) 0x120
  max (fld w 0 4) (min (fld w 4 4) step)

/-- The transmit swing follows a partner's request as far as the bounds admit (R427). -/
def setSwing (p step : Nat) (s : State) : State := onPort p (fun q => { q with swing := s.swingIn p step }) s

/-- EQ_CONVERGED (R426, R427): control blocks start from SFSEQ 0; the swing stands at the partner's request. The loop
goes on while the port is UP, where it converges to a new step. -/
def execEqConverged (e : EqEnd) (s : State) : Host.Outcome State Fault Refusal :=
  .next (
    let p := e.port.val
    match (s.port p).st with
    | .eq => onPort p (fun q => { q with st := .align, since := s.time, sfSeq := 0, goodCtl := 0, badSf := 0,
                                         swing := s.swingIn p e.step.toNat }) s
    | .up => setSwing p e.step.toNat s
    | _ => s)

/-- A write of `LNM_EQ`: the swing never leaves the bounds (R427). -/
def writeEq (p : Nat) (v : Word) (s : State) : State :=
  let s := s.setDevReg (pgLnm p) 0x120 (v &&& 0xFFFF)
  setSwing p (s.port p).swing s

/-- PARTNER_ALIGNED (R426): four consecutive valid control blocks have arrived. -/
def execPartnerAligned (p : Fin 8) (s : State) : Host.Outcome State Fault Refusal :=
  .next (if (s.port p.val).st = .align ∧ (s.port p.val).goodCtl ≥ 4 then
    onPort p.val (fun q => { q with st := .hello, since := s.time, partner := none, sentAgreed := 0, helloAt := none }) s
  else s)

/-- The limit of a training state in ns (R427). -/
def trainLimit : LState → Option Nat
  | .lock => some 2000000
  | .eq => some 20000000
  | .align => some 100000
  | .hello => some 2000000
  | _ => none

/-- TRAINING_LIMIT (R427). -/
def execTrainingLimit (p : Fin 8) (s : State) : Host.Outcome State Fault Refusal :=
  .next (match trainLimit (s.port p.val).st with
  | some n => if s.time ≥ (s.port p.val).since + n then goDown p.val 8 .down s else s
  | none => s)

/-- The port has lock on its lanes (R426). -/
def LState.locked : LState → Bool
  | .eq => true
  | .align => true
  | .hello => true
  | .up => true
  | _ => false

/-- A cause of R427 takes an UP port down. -/
def downIfUp (p cause : Nat) (s : State) : State := if (s.port p).st = .up then goDown p cause .down s else s

/-- LOSS_OF_LIGHT (R427). -/
def execLossOfLight (p : Fin 8) (s : State) : Host.Outcome State Fault Refusal := .next (downIfUp p.val 2 s)

/-- LOSS_OF_LOCK (R427). -/
def execLossOfLock (p : Fin 8) (s : State) : Host.Outcome State Fault Refusal := .next (downIfUp p.val 3 s)

/-- ALIGNMENT_LOST (R427): three superframes without a valid control block. -/
def execAlignmentLost (p : Fin 8) (s : State) : Host.Outcome State Fault Refusal :=
  .next (if (s.port p.val).badSf ≥ 3 then downIfUp p.val 4 s else s)

/-- RETRY_EXPIRY (R426). -/
def execRetryExpiry (p : Fin 8) (s : State) : Host.Outcome State Fault Refusal :=
  .next (
    let q := s.port p.val
    if q.st = .down ∧ s.time ≥ q.since + fld (s.devReg (pgLnm p.val) 0x120) 8 8 * 1000000 then
      trainTo p.val .down .dark s
    else s)

/-! ## Hello records (R428, R429) -/

/-- Both sides have sent and received a HELLO with the same AGREED. -/
def tryUp (p : Nat) (s : State) : State :=
  let q := s.port p
  match q.partner with
  | some r => if q.st = .hello ∧ r.agreed = 1 ∧ q.sentAgreed = 1 then goUp p r s else s
  | none => s

/-- A HELLO in HELLO state (R428, R429). -/
def helloIn (p : Nat) (r : HelloRec) (s : State) : State :=
  if r.res ∨ r.buf0 < 4096 then s
  else if r.vmin ≤ 1 ∧ 1 ≤ r.vmax then tryUp p (onPort p (fun q => { q with partner := some r }) s)
  else goDown p 6 .down s

/-- HELLO (R429): in HELLO state it serves the agreement; on a link that is UP it is one more packet. -/
def execHello (p : Fin 8) (rec : HelloRec) (s : State) : Host.Outcome State Fault Refusal :=
  .next (match (s.port p.val).st with
  | .hello => helloIn p.val rec s
  | .up => onPort p.val (fun q => { q with rxSeq := (q.rxSeq + 1) % 2 ^ 32, nak := false,
                                           freed1 := (q.freed1 + 4) % 2 ^ 32 }) s
  | _ => s)

/-- HELLO_SEND (R428, R429): every 10 µs, AGREED set once the partner's record is known. -/
def execHelloSend (p : Fin 8) (s : State) : Host.Outcome State Fault Refusal :=
  .next (
    let q := s.port p.val
    let due := match q.helloAt with
      | some t => decide (s.time ≥ t + 10000)
      | none => true
    if q.st = .hello && due then
      tryUp p.val (onPort p.val (fun q =>
        let a := b2n q.partner.isSome
        putLine 0x0D 0 (helloPkt p.val a s.mgt.fuses.id) { q with helloAt := some s.time, sentAgreed := a }) s)
    else s)

/-! ## Superframes and control blocks (R424, R425, R433, R434) -/

/-- SUPERFRAME (R424): the port sends a control block and up to 256 waiting blocks; a DOWN request goes with it
once. `fec`: the codewords received since the last one that the FEC has corrected, and could not correct (R451, R522). -/
def execSuperframe (p : Fin 8) (s : State) (fec : Codewords := {}) : Host.Outcome State Fault Refusal :=
  .next (
    let s := (s.stat (pgLnm p) 0x40 fec.corr).stat (pgLnm p) 0x48 fec.unc
    let q := s.port p.val
    if q.st = .align ∨ q.st = .hello ∨ q.st = .up ∨ q.downReq then
      setPort p.val { q with frame := superframe q, line := q.line.drop 256, sfSeq := (q.sfSeq + 1) % 2 ^ 32,
                             downReq := false } s
    else s)

/-- Packets up to the one that ACKSEQ names leave the replay buffer (R433). -/
def acked (a : Nat) (l : List (Nat × OutPkt)) : List (Nat × OutPkt) :=
  match l.findIdx? (fun e => e.1 == a) with
  | some i => l.drop (i + 1)
  | none => l

/-- A replay request: a new replay starts from NAKSEQ unless one runs (R433). -/
def nakIn (p n : Nat) (s : State) : State :=
  let q := s.port p
  match q.replay.findIdx? (fun e => e.1 == n), q.replayPos with
  | some i, none =>
    let k := if q.replays ≠ 0 ∧ q.replaySeq = n then q.replays + 1 else 1
    setPort p { q with replayPos := some i, replaySeq := n, replays := k } s
  | _, _ => s

/-- A valid control block on a link that is UP. -/
def controlIn (p : Nat) (cb : CtlBlock) (s : State) : State :=
  if cb.down then goDown p 7 .down s
  else
    let s := onPort p (fun q =>
      let r := acked cb.ackSeq q.replay
      { q with replay := r, replayPos := q.replayPos.map (fun i => i - (q.replay.length - r.length)),
               grant0 := q.grant0 + (cb.cred0 + 2 ^ 32 - q.cred0) % 2 ^ 32,
               grant1 := q.grant1 + (cb.cred1 + 2 ^ 32 - q.cred1) % 2 ^ 32,
               cred0 := cb.cred0, cred1 := cb.cred1 }) s
    if cb.nak then nakIn p cb.nakSeq s else s

/-- CONTROL_BLOCK (R425): one whose marker or CRC fails is ignored, and is a superframe without a valid
control block (R427). -/
def execControlBlock (p : Fin 8) (cb : CtlBlock) (s : State) : Host.Outcome State Fault Refusal :=
  .next (
    if !cb.valid then onPort p.val (fun q => { q with badSf := q.badSf + 1, goodCtl := 0 }) s
    else
      let s := onPort p.val (fun q => { q with badSf := 0, goodCtl := q.goodCtl + 1 }) s
      if (s.port p.val).st = .up then controlIn p.val cb s else s)

/-! ## Receiving packets (R431, R432, R436) -/

/-- Detail of a packet error (R452). -/
def lnmItems (typ : Nat) (k : LnmPkt) : List (Nat × Nat) := [(8, typ), (3, k.tctx), (32, k.tag), (64, k.target.toNat)]

/-- A request answered REFUSED or DENIED is counted (R522). -/
def portRefusal (p : Nat) (s : State) : State := s.stat (pgLnm p) 0x60 1

/-- WACK for a packet that asked for one (R439). -/
def sendWack (p c tag status : Nat) (s : State) : State :=
  let s := if status = 4 ∨ status = 5 then portRefusal p s else s
  outPkt p 0x02 8 { tctx := c, first := true, last := true, tag := tag, status := status } none s

/-- A packet discarded as LNM_PROTO (R432). -/
def proto (p typ : Nat) (k : LnmPkt) (s : State) : State :=
  let s := (raise (pgLnm p) .lnmProto (lnmItems typ k) none s).stat (pgLnm p) 0x58 1
  if k.ackreq then sendWack p k.tctx k.tag 5 s else s

/-- The link's role admits the type (R432). -/
def roleTakes (r : Role) (typ : Nat) : Bool :=
  match r, typ with
  | .control, 0x01 => true
  | .control, 0x02 => true
  | .control, 0x03 => true
  | .control, 0x04 => true
  | .control, 0x06 => true
  | .control, 0x07 => true
  | .control, 0x08 => true
  | .peer, 0x01 => true
  | .peer, 0x02 => true
  | _, 0x0A => true
  | _, _ => false

/-- The header keeps R431: no reserved bit, a target form in use, BYTES in range and equal to the
payload, STATUS 0 in a request. -/
def hdrOk (typ : Nat) (k : LnmPkt) : Bool :=
  !k.res && decide (k.tkind < 3) && decide (k.bytes ≤ 1024) && k.payload.length == k.bytes &&
  decide (k.pkt < 4) && (typ == 0x02 || k.status == 0) && k.extra == 0

/-- The message in assembly is discarded by the packet that breaks it; a WRITE that asked for an answer
gets one (R438, R439). -/
def breakMsg (p typ : Nat) (k : LnmPkt) (s : State) : State :=
  match (s.port p).asm with
  | none => s
  | some w =>
    let s := proto p typ { k with ackreq := false } (onPort p (fun q => { q with asm := none }) s)
    if w.ackreq then sendWack p w.tctx w.tag 5 s else s

/-- Take a packet of an UP link: SEQ moves on and its blocks are freed; a bad one is discarded. A
packet on VC0 other than an accepted window WRITE ends a message in assembly (R433, R434, R438). -/
def recv (p typ : Nat) (k : LnmPkt) (f : State → State) (s : State) : State :=
  let q := s.port p
  -- a FATAL stop ends admission (R362)
  if q.st != .up || s.stop.fatal then s
  else
    let s := if vcOf typ = 0 then vc0Wake s else s
    let n := pktBlocks k
    let s := setPort p { q with rxSeq := (q.rxSeq + 1) % 2 ^ 32, nak := false,
                                freed0 := if vcOf typ = 0 then (q.freed0 + n) % 2 ^ 32 else q.freed0,
                                freed1 := if vcOf typ = 1 then (q.freed1 + n) % 2 ^ 32 else q.freed1 } s
    let ok := roleTakes q.role typ && hdrOk typ k
    let s := if vcOf typ == 0 && !(ok && typ == 1 && k.tkind == 1) then breakMsg p typ k s else s
    if ok then f s else proto p typ k s

/-- A type for which the device has a use when a partner sends it (R432). -/
def typeHasRow (typ : Nat) : Bool := [0x01, 0x02, 0x03, 0x04, 0x06, 0x07, 0x08, 0x0A, 0x0D].contains typ

/-- PACKET_DROP (R432, R433): a packet that fails its CRC or has another SEQ than the one expected is dropped,
and the receiver asks for a replay; one in order of a TYPE that no partner may send, and a HELLO whose header breaks
R431, is discarded as LNM_PROTO. -/
def execPacketDrop (p : Fin 8) (seq : Nat) (got : Arrived) (s : State) :
    Host.Outcome State Fault Refusal :=
  .next (
    let q := s.port p.val
    let badHello := got.typ = 0x0D && !hdrOk 0x0D got.pkt
    if q.st == .hello && got.crcOk && badHello then proto p.val 0x0D got.pkt s
    else if q.st != .up then s
    else if !(got.crcOk && seq == q.rxSeq) then setPort p.val { q with nak := true } s
    else if got.typ = 0 || (typeHasRow got.typ.toNat && !badHello) then s
    else recv p.val got.typ.toNat got.pkt id s)

/-- A WRITE refused by R438: LNM_REFUSED, and WACK status 5 where asked for. -/
def lnmRefuse (p c tag : Nat) (ackreq : Bool) (target : Word) (s : State) : State :=
  let s := raise (pgLnm p) .lnmRefused [(8, 1), (3, c), (32, tag), (64, target.toNat)] none s
  if ackreq then sendWack p c tag 5 s else s

/-- Requests for the context are held at this port (R436). -/
def State.heldAt (s : State) (p c : Nat) : Bool := bit (s.devReg (pgLnm p) 0x130) c

def queueBytes (l : List InWrite) : Nat := l.foldl (fun n w => n + w.bytes.length) 0

/-- Place a complete message in the context's queue or hold buffer; a full one answers HELD_FULL
(R436). -/
def placeWrite (p : Nat) (w : InWrite) (s : State) : State :=
  let q := s.port p
  let hold := s.heldAt p w.tctx
  let l := (if hold then q.holdq else q.ctxq).get w.tctx []
  if queueBytes l + w.bytes.length > (if hold then 65536 else 32768) then
    let s := s.stat (pgLnm p) 0x68 1
    if w.ackreq then sendWack p w.tctx w.tag 7 s else s
  else if hold then setPort p { q with holdq := q.holdq.put w.tctx (l ++ [w]) [] } s
  else setPort p { q with ctxq := q.ctxq.put w.tctx (l ++ [w]) [] } s

/-- Fields of a window target (R431). -/
def tgtTid (t : Word) : Nat := fld t 0 13
def tgtWin (t : Word) : Nat := fld t 13 4
def tgtOff (t : Word) : Nat := fld t 17 20
def tgtLen (t : Word) : Nat := fld t 37 13

/-- The link's permission for a context (R438 check 1). -/
def State.permits (s : State) (p c : Nat) : Bool :=
  match (s.port p).role with
  | .control => bit (s.lnmCfg p) (6 + c)
  | .peer => bit (s.lnmCfg p) (14 + c)
  | .none => false

/-- A grant covers the write (R438 check 2). -/
def State.grantCovers (s : State) (p c : Nat) (t : Word) : Bool :=
  let (lines, g) := (s.port p).grants.get (tgtTid t * 16 + tgtWin t) (0, 0)
  lines != 0 && g == c && decide (tgtOff t + tgtLen t ≤ lines * 64)

/-- The packet is the next of a message: its index, flags and length (R438). -/
def pktFits (k : LnmPkt) (i : Nat) : Bool :=
  let n := cdiv (tgtLen k.target) 1024
  let len := tgtLen k.target
  decide (1 ≤ len) && decide (len ≤ 4096) && k.pkt == i && k.first == (i == 0) && k.last == (i + 1 == n) &&
  k.bytes == (if i + 1 = n then len - 1024 * i else 1024)

/-- A window WRITE packet joins or starts a message; a complete one is checked and placed (R438). -/
def windowWrite (p : Nat) (k : LnmPkt) (s : State) : State :=
  let q := s.port p
  let start (s : State) : State :=
    if k.first && pktFits k 0 then
      done { tctx := k.tctx, tag := k.tag, ackreq := k.ackreq, target := k.target, pkts := 1, bytes := k.payload } s
    else proto p 1 k s
  match q.asm with
  | none => start s
  | some w =>
    if pktFits k w.pkts && k.tctx == w.tctx && k.target == w.target && k.tag == w.tag then
      done { w with pkts := w.pkts + 1, bytes := w.bytes ++ k.payload } s
    else
      let s := breakMsg p 1 k s
      if k.first then start s
      else if k.ackreq && !(w.ackreq && k.tag == w.tag) then sendWack p k.tctx k.tag 5 s else s
where
  done (w : InWrite) (s : State) : State :=
    if w.bytes.length < tgtLen w.target then onPort p (fun q => { q with asm := some w }) s
    else
      let s := onPort p (fun q => { q with asm := none }) s
      if !s.permits p w.tctx || (!s.heldAt p w.tctx && !s.grantCovers p w.tctx w.target) then
        lnmRefuse p w.tctx w.tag w.ackreq w.target s
      else placeWrite p w s

/-- A partner WRITE to a tier address (R440). -/
def tierWrite (p : Nat) (k : LnmPkt) (s : State) : State :=
  if (s.port p).role == .control && bit (s.lnmCfg p) 5 && (moverOf (fld k.target 0 48)).isSome then
    placeWrite p { tctx := k.tctx, tag := k.tag, ackreq := k.ackreq, target := k.target, pkts := 1,
                   bytes := k.payload, tier := true } s
  else
    if k.ackreq then sendWack p k.tctx k.tag 5 s else s

/-- A WRITE by its target form; TKIND 2 goes from device to partner only (R432). -/
def writeIn (p : Nat) (k : LnmPkt) (s : State) : State :=
  if k.tkind = 1 then windowWrite p k s else if k.tkind = 0 then tierWrite p k s else proto p 1 k s

/-- LNM_WRITE (R438). -/
def execLnmWrite (p : Fin 8) (pkt : LnmPkt) (s : State) : Host.Outcome State Fault Refusal :=
  .next (recv p.val 0x01 pkt (writeIn p.val pkt) s)

/-- LNM_TIER_WRITE (R440): a WRITE with TKIND 0. -/
def execLnmTierWrite (p : Fin 8) (pkt : LnmPkt) (s : State) : Host.Outcome State Fault Refusal :=
  .next (if pkt.tkind = 0 then recv p.val 0x01 pkt (tierWrite p.val pkt) s else s)

/-- WACK (R439): the device asks for none, so an answer changes nothing more. -/
def execWack (p : Fin 8) (pkt : LnmPkt) (s : State) : Host.Outcome State Fault Refusal :=
  .next (recv p.val 0x02 pkt id s)

/-! ## Issuing (R436, R438 to R440) -/

/-- Packets of a message join those that wait for their context's turn (R438). -/
def portSend (p : Nat) (m : Msg) (s : State) : State :=
  onPort p (fun q => { q with cur := q.cur.upd m.sctx [] (· ++ packets m) }) s

/-- Issue an engine's WRITE and keep it until it is answered. -/
def issue (p c dest : Nat) (w1 : Word) (bs data : List Byte) (tag : Nat) (ackreq : Bool) (s : State) : State :=
  let q := s.port p
  let m : Msg := { op := 0x01, src := lnmUnit p, dest := dest, sctx := c, priv := true, tctx := c, w1 := w1,
                   tag := q.nextTag, payload := bs }
  portSend p m (setPort p { q with nextTag := (q.nextTag + 1) % 2 ^ 32,
                                   issued := q.issued ++ [{ msg := m, tag := tag, ackreq := ackreq, data := data }] } s)

/-- Bytes rounded up to 64 with zeros. -/
def pad64 (bs : List Byte) : List Byte := bs ++ List.replicate (cdiv bs.length 64 * 64 - bs.length) 0

/-- A STORE descriptor of one tier write (R401, R440). -/
def storeDesc (a n : Nat) : List Byte := leBytes 8 2 ++ leBytes 8 a ++ leBytes 8 n ++ List.replicate 40 0

/-- Destination of a complete message. -/
def InWrite.dest (w : InWrite) : Nat :=
  if w.tier then ((moverOf (fld w.target 0 48)).map movUnit).getD 0 else tgtTid w.target

/-- Issue one message of a queue. -/
def issueWrite (p : Nat) (w : InWrite) (s : State) : State :=
  let a := fld w.target 0 48
  if w.tier then
    match moverOf a with
    | some m =>
      let d := pad64 w.bytes
      issue p w.tctx (movUnit m) (winW1 0 0 64) (storeDesc a d.length) d w.tag w.ackreq
        (account w.tctx (3 + p) w.bytes.length s)
    | none => s
  else if s.grantCovers p w.tctx w.target then
    issue p w.tctx (tgtTid w.target) (winW1 (tgtWin w.target) (tgtOff w.target) w.bytes.length) w.bytes [] w.tag
      w.ackreq (account w.tctx (3 + p) w.bytes.length s)
  else lnmRefuse p w.tctx w.tag w.ackreq w.target s

/-- The next message of a context at a port: the hold buffer, unless it holds, ahead of the queue
(R436). -/
def State.nextWrite (s : State) (p c : Nat) : Option (InWrite × Bool) :=
  let q := s.port p
  match (if s.heldAt p c then [] else q.holdq.get c []), q.ctxq.get c [] with
  | w :: _, _ => some (w, true)
  | [], w :: _ => some (w, false)
  | [], [] => none

/-- No other context has sent a part of a message to the destination: the packets of one message stay together
(R215). -/
def LnmPort.clearTo (q : LnmPort) (c dest : Nat) : Bool :=
  q.cur.all (fun (c', ps) => c' == c || match ps with
    | k :: _ => k.first || k.msg.dest != dest
    | [] => true)

/-- No STORE of the engine at the mover still awaits its answer or has data to send: the data of one follows its
descriptor before the next descriptor, since the mover takes data for the oldest STORE of the source (R404, R440). -/
def LnmPort.storeFree (q : LnmPort) (dest : Nat) : Bool :=
  q.issued.all (fun i => i.msg.dest != dest || i.data.isEmpty) &&
  q.cur.all (fun (_, ps) => ps.all (fun k => k.msg.dest != dest))

/-- The context has a packet to send at this port, or a message to begin. -/
def State.portTurn (s : State) (p c : Nat) : Bool :=
  let q := s.port p
  match q.cur.get c [] with
  | k :: _ => !k.first || q.clearTo c k.msg.dest
  | [] => match s.nextWrite p c with
    | some (w, _) => q.clearTo c w.dest && (!w.tier || q.storeFree w.dest)
    | none => false

/-- Begin the next message of a context: it leaves its queue (R436). -/
def beginWrite (p c : Nat) (s : State) : State :=
  match s.nextWrite p c with
  | none => s
  | some (w, fromHold) =>
    issueWrite p w (onPort p (fun q =>
      if fromHold then { q with holdq := q.holdq.upd c [] List.tail }
      else { q with ctxq := q.ctxq.upd c [] List.tail }) s)

/-- The first waiting message packet of a context enters the network. -/
def sendTurn (p c : Nat) (s : State) : State :=
  match (s.port p).cur.get c [] with
  | [] => s
  | k :: ks =>
    let (n, i) := entryPoint k.msg
    enqueue n i [k] (onPort p (fun q => { q with cur := q.cur.put c ks [] }) s)

/-- INGRESS_ISSUE (R438): the contexts take turns, one message packet at a time; admission ends at a FATAL stop
(R362). -/
def execIngressIssue (p : Fin 8) (s : State) : Host.Outcome State Fault Refusal :=
  .next (
    if s.stop.fatal then s
    else match after (s.port p.val).rrCtx ((List.range 8).filter (s.portTurn p.val)) with
    | none => s
    | some c =>
      let s := onPort p.val (fun q => { q with rrCtx := c }) s
      sendTurn p.val c (if ((s.port p.val).cur.get c []).isEmpty then beginWrite p.val c s else s))

/-- An ACK at a port engine (R438 to R440). -/
def lnmAck (p : Nat) (a : Msg) (s : State) : State :=
  let q := s.port p
  match q.issued.find? (fun i => i.msg.tag == a.tag) with
  | none => s
  | some i =>
    if a.status = 3 then
      setPort p { q with issued := q.issued.map (fun j =>
        if j.msg.tag = a.tag then { j with frozenAt := some s.time } else j) } s
    else
      let s := setPort p { q with issued := q.issued.filter (fun j => j.msg.tag != a.tag) } s
      if a.status = 0 ∧ !i.data.isEmpty then
        issue p i.msg.sctx i.msg.dest (winW1 1 0 i.data.length) i.data [] i.tag i.ackreq s
      else if i.ackreq then sendWack p i.msg.sctx i.tag a.status s else s

/-- INGRESS_FROZEN_RESEND (R438). -/
def execIngressFrozenResend (p : Fin 8) (s : State) : Host.Outcome State Fault Refusal :=
  .next (
    let q := s.port p.val
    match q.issued.find? (fun i => match i.frozenAt with
      | some t => decide (t + 1000 ≤ s.time)
      | none => false) with
    | none => s
    | some i =>
      portSend p.val i.msg (setPort p.val { q with issued := q.issued.map (fun j =>
        if j.msg.tag = i.msg.tag then { j with frozenAt := none } else j) } s))

/-! ## Grants (R437) -/

/-- A CH_GRANT at a port engine. -/
def lnmGrant (p : Nat) (g : Msg) (s : State) : State :=
  let q := s.port p
  let k := g.src * 16 + g.win
  if q.grants.length ≥ 1024 ∧ q.grants.get k (0, 0) = (0, 0) then
    raise (pgLnm p) .lnmGrantFull [(8, 0), (3, g.sctx), (32, g.tag), (4, g.win)] (some g.sctx) s
  else setPort p { q with grants := q.grants.put k (g.lines, g.sctx) (0, 0) } s

/-- The grants of a tile leave every engine. -/
def clearLnmGrants (t : Nat) (s : State) : State :=
  { s with lnm := s.lnm.map (fun (p, q) => (p, { q with grants := q.grants.filter (fun (k, _) => k / 16 != t) })) }

/-! ## Egress (R442, R448, R451) -/

/-- The window admits the write (R442). -/
def egressOk (w : Word) (m : Msg) : Bool :=
  bit w 0 && m.sctx == fld w 1 3 && m.tctx == fld w 1 3 && m.mlen == m.payload.length && m.mlen != 0 &&
  decide (m.off + m.mlen ≤ fld w 6 14 * 64)

/-- EGRESS_WRITE (R442, R448). -/
def execEgressWrite (p : Fin 8) (s : State) : Host.Outcome State Fault Refusal :=
  .next (onRim (lnmUnit p.val) (fun m => m.op == 0x01) (fun m s =>
    let w := s.devReg (pgLnm p.val) (0x200 + 16 * m.win)
    if !egressOk w m then
      rimRefuse m 6 (raise (pgLnm p.val) .lnmEgress [(8, 1), (3, m.tctx), (32, m.tag), (4, m.win)] (some m.sctx) s)
    else if (s.port p.val).takes then
      egressSend p.val m (account (fld w 1 3) (3 + p.val) m.mlen s)
    else if bit w 5 then
      onPort p.val (fun q => { q with held := q.held ++ [m] }) (account (fld w 1 3) (3 + p.val) m.mlen s)
    else egressDrop p.val m s) s)

/-- A configuration that sets EN = 1 may stand (R451). -/
def egressSetupOk (w b : Word) : Bool :=
  fld w 6 14 != 0 && fld w 23 41 == 0 && (if bit w 4 then decide (b.toNat < 2 ^ 17) else decide (b.toNat % 64 = 0))

/-- A write of `LNM_EGWCFGi` or `LNM_EGWBASEi` (R451). -/
def writeEgress (p i : Nat) (base : Bool) (v : Word) (s : State) : State :=
  if base then s.setDevReg (pgLnm p) (0x208 + 16 * i) v
  else if bit v 0 ∧ !egressSetupOk v (s.devReg (pgLnm p) (0x208 + 16 * i)) then
    raise (pgLnm p) .lnmSetup [(8, 0), (3, 0), (32, 0), (4, i)] none s
  else s.setDevReg (pgLnm p) (0x200 + 16 * i) (setFld v 23 41 0)

/-- EGRESS_WINDOW_WRITE (R451). -/
def execEgressWindowWrite (p : Fin 8) (i : Fin 16) (base : Bool) (v : Word) (s : State) :
    Host.Outcome State Fault Refusal :=
  .next (actedPort p.val (writeEgress p.val i.val base v) s)

/-! ## Transmitting (R433, R434, R443, R445) -/

/-- EVSEQ of an event record. -/
def EvRec.seq (e : EvRec) : Nat := fld (e.words.headD 0) 0 32

/-- How many queued records go in one EVENT packet: consecutive EVSEQ, at most 16, no wrap of the ring
of 1,024 (R445). -/
def evRun : Nat → Nat → List EvRec → Nat
  | 0, _, _ => 0
  | _, _, [] => 0
  | n + 1, want, e :: es =>
    if e.seq = want then 1 + (if (want + 1) % 1024 = 0 then 0 else evRun n (want + 1) es) else 0

/-- The bytes of an event record (R444). -/
def EvRec.bytes (e : EvRec) : List Byte :=
  (List.range 8).flatMap (fun i => leBytes 8 (e.words.getD i 0).toNat)

/-- The EVENT packet that is next, and how many records it takes (R445). -/
def State.eventPkt (s : State) (p : Nat) : Option (OutPkt × Nat) :=
  let q := s.port p
  match q.evq with
  | [] => none
  | e :: _ =>
    if q.role != .control then none
    else
      let n := evRun 16 e.seq q.evq
      let bs := (q.evq.take n).flatMap EvRec.bytes
      let a := s.devReg (pgLnm p) 0x128 + BitVec.ofNat 64 (64 * (e.seq % 1024))
      some (⟨0x0C, 8, { first := true, last := true, tkind := 2, bytes := bs.length, target := a, payload := bs }, none⟩, n)

/-- The packet a source would send: VC1 before VC0 (R443); the management die's answers, then its
events. Its place in the queue, or the records it takes. -/
def State.sourcePkt (s : State) (p k : Nat) : Option (OutPkt × Sum Nat Nat) :=
  let q := s.port p
  let pick (vc : Nat) := (q.outq.zipIdx.find? (fun (o, _) => o.src == k && vcOf o.typ == vc)).map
    (fun (o, i) => (o, Sum.inl (β := Nat) i))
  match pick 1, (if k = 8 then s.eventPkt p else none), pick 0 with
  | some r, _, _ => some r
  | none, some (o, n), _ => some (o, Sum.inr n)
  | none, none, r => r

/-- A packet may leave: partner credit for its blocks, and room in the replay buffer of 4,096 blocks
(R433, R434). -/
def LnmPort.maySend (q : LnmPort) (o : OutPkt) : Bool :=
  decide (pktBlocks o.pk ≤ q.credit (vcOf o.typ)) &&
  decide (q.replay.foldl (fun n e => n + pktBlocks e.2.pk) 0 + pktBlocks o.pk ≤ 4096)

/-- A new packet leaves and enters the replay buffer; a tile's message is acknowledged with its last
(R442). The last packet of a report, not a refusal, ends an attestation request (R447). -/
def transmit (p k : Nat) (o : OutPkt) (from_ : Sum Nat Nat) (s : State) : State :=
  let s := onPort p (fun q =>
    let n := pktBlocks o.pk
    let q := match from_ with
      | .inl i => { q with outq := q.outq.eraseIdx i }
      | .inr n => { q with evq := q.evq.drop n }
    { putLine o.typ q.txSeq o.pk q with
             rrSrc := k, replay := q.replay ++ [(q.txSeq, o)], txSeq := (q.txSeq + 1) % 2 ^ 32,
             used0 := if vcOf o.typ = 0 then q.used0 + n else q.used0,
             used1 := if vcOf o.typ = 1 then q.used1 + n else q.used1,
             attBusy := q.attBusy && !(o.typ == 0x0B && o.pk.last && o.pk.status == 0) }) s
  match o.ackOf with
  | some m => rimRefuse m 0 s
  | none => s

/-- LNM_TRANSMIT (R443): the next replayed packet while a replay runs, else one packet of the next
source in turn. -/
def execLnmTransmit (p : Fin 8) (s : State) : Host.Outcome State Fault Refusal :=
  .next (
    let q := s.port p.val
    if q.st != .up then s
    else match q.replayPos with
    | some i =>
      match q.replay[i]? with
      | none => setPort p.val { q with replayPos := none } s
      | some (n, o) =>
        let nxt := if i + 1 < q.replay.length then some (i + 1) else none
        let s := (setPort p.val (putLine o.typ n o.pk { q with replayPos := nxt }) s).stat (pgLnm p.val) 0x50 1
        -- the eighth replay of one SEQ in succession ends the link (R427)
        if n = q.replaySeq ∧ q.replays ≥ 8 then goDown p.val 5 .down s else s
    | none =>
      let ok (k : Nat) : Bool := match s.sourcePkt p.val k with
        | some (o, _) => q.maySend o
        | none => false
      match after q.rrSrc ((List.range 9).filter ok) with
      | none => s
      | some k => match s.sourcePkt p.val k with
        | some (o, f) => transmit p.val k o f s
        | none => s)

/-! ## Configuration sessions (R446) -/

/-- A request that is well formed and reaches a link in a role that does not take it is answered as its rule says,
beside its discard (R432, R441, R446). -/
def otherRole (p typ : Nat) (k : LnmPkt) (answer_ : State → State) (s : State) : State :=
  let q := s.port p
  if q.st == .up && !s.stop.fatal && q.role != .control && hdrOk typ k then answer_ s else s

/-- CFG_OPEN (R446). -/
def execCfgOpen (p : Fin 8) (pkt : LnmPkt) (s : State) : Host.Outcome State Fault Refusal :=
  .next (otherRole p.val 0x06 pkt (fun s => portRefusal p.val (cfgResp p.val pkt.tctx pkt.tag 4 0 s)) <|
    recv p.val 0x06 pkt (fun s =>
    let c := pkt.tctx
    if !bit (s.lnmCfg p.val) 4 then portRefusal p.val (cfgResp p.val c pkt.tag 4 0 s)
    else if (s.session c).isSome || (s.pour c).st != .idle then
      portRefusal p.val (cfgResp p.val c pkt.tag 5 0 s)
    else cfgResp p.val c pkt.tag 0 65536 (setSession c (some { port := p.val }) (s.setPour c {}))) s)

/-- CFG_DATA (R446). -/
def execCfgData (p : Fin 8) (pkt : LnmPkt) (s : State) : Host.Outcome State Fault Refusal :=
  .next (recv p.val 0x07 pkt (fun s =>
    let c := pkt.tctx
    match s.session c with
    | none => proto p.val 0x07 pkt s
    | some e =>
      if e.port ≠ p.val then proto p.val 0x07 pkt s
      else if e.spent + pkt.bytes > e.granted then proto p.val 0x07 pkt (closeSession c s)
      else
        let s := setSession c (some { e with spent := e.spent + pkt.bytes }) s
        if e.ended then s
        else consume c false
          (s.setPour c { s.pour c with inb := (s.pour c).inb ++ pkt.payload, lastByteAt := s.time })) s)

/-- CFG_CLOSE (R446). -/
def execCfgClose (p : Fin 8) (pkt : LnmPkt) (s : State) : Host.Outcome State Fault Refusal :=
  .next (recv p.val 0x08 pkt (fun s =>
    match s.session pkt.tctx with
    | none => proto p.val 0x08 pkt s
    | some e => if e.port = p.val then closeSession pkt.tctx s else proto p.val 0x08 pkt s) s)

end Sys2Proof.Machine
end

