-- ==== Sys2Proof/Machine/Recovery.lean ====
section
/-! DEFINITION.
The management die's side of contexts (R312 to R316, R327, R329, R331, R333), restarts (R350 to R362),
decision notices (R340, R481), the completion of a recast (R302, R309), the error log's read pointer,
and the two answers that every kind of unit takes, ACK and CH_GRANT. -/

namespace Sys2Proof.Machine

/-! ## ACK and CH_GRANT (R218, R231, R409, R437) -/

/-- An ACK or CH_GRANT at a unit of a rim die, by the unit's kind. -/
def rimAnswer (u op : Nat) (s : State) : State :=
  onRim u (fun m => m.op == op) (fun m s =>
    match movOf u, lnmOf u with
    | some k, _ => if op = 0x04 then moverAck k m s else moverGrant k m s
    | none, some p => if op = 0x04 then lnmAck p m s else lnmGrant p m s
    | none, none => s) s

/-- ACK (R218): at a tile it completes the operation it names. -/
def execAck (u : Nat) (s : State) : Host.Outcome State Fault Refusal :=
  if tidDie u < 20 then s.atTile u (onAnswer u 0x04 (tileAck u)) else .next (rimAnswer u 0x04 s)

/-- CH_GRANT (R231): at a tile it is credit of a SEND record (R223). -/
def execChGrant (u : Nat) (s : State) : Host.Outcome State Fault Refusal :=
  if tidDie u < 20 then s.atTile u (onHead u 0x12 (addCredit u)) else .next (rimAnswer u 0x12 s)

/-! ## Freezing and release (R302, R327, R329) -/

/-- Freeze or thaw the tiles of a context (R239, R329); a tile that HALT stops stays halted. -/
def freezeCtx (c : Nat) (on : Bool) (s : State) : State :=
  (s.ctxTiles c).foldl (fun s t =>
    let s := s.onTile t (fun x =>
      { x with cfg := { x.cfg with frozen := on, halted := on || s.stop.fatal || (s.hdr (pgTile t 0)).halt } })
    if on then s else thawTile t s) s

/-- The pour state forbids a PREEMPT until its recast ends (R307). -/
def State.recasting (s : State) (c : Nat) : Bool := (s.pour c).st == .recasting

/-- PREEMPT in RUNNING (R312, R329). -/
def beginDrain (c : Nat) (s : State) : State :=
  let s := abortPour c s
  setCState c .preempting (s.onCtx c (fun x => { x with held := false, drainAt := s.time }))

/-- Lift the fence and let the held requests go (R302, R327). -/
def release (c : Nat) (s : State) : State :=
  let s := setHold c false (sendFence c false s)
  s.onCtx c (fun x => { x with holdAt := none, releasedAt := s.time, armFor := 0, armWait := [] })

/-- The end of a device restart: no context is part of it any more; a queued error starts it again
(R353, R361). -/
def endDevice (s : State) : State :=
  if s.stop.restart.isNone || (List.range 8).any (fun c => (s.ctx c).handling.device) then s
  else
    let q := s.stop.queued
    let s := { s with stop := { s.stop with restart := none, queued := false } }
    if q then startDeviceRestart s else s

/-- Step 6 is done: the context runs again, or comes to rest in PREEMPTED, or restarts once more (R312,
R354, R356). -/
def finishRestart (c : Nat) (s : State) : State :=
  let x := s.ctx c
  let s := s.onCtx c (fun x => { x with handling := {}, rounds := [] })
  let s := if x.handling.again then startRestart c false s
    else if x.pend then
      setCState c .preempted (freezeCtx c true (s.onCtx c (fun x => { x with pend := false })))
    else setCState c .running s
  endDevice s

/-- The entry tiles have acknowledged: release, and go on with what the arming served. -/
def armDone (c : Nat) (s : State) : State :=
  let why := (s.ctx c).armFor
  let s := release c s
  if why = 2 then finishRestart c s else s

/-- Arm the entry tiles; a context without entries releases at once (R327). -/
def armOrRelease (c why : Nat) (s : State) : State :=
  let s := armEntries c why s
  if (s.ctx c).armWait.isEmpty then armDone c s else s

/-- MGT_ARM_ACK (R327, R480): the answer to a disarm notice, or to an arming. -/
def execMgtArmAck (s : State) : Host.Outcome State Fault Refusal :=
  .next (onUnit unitMgt 0x37 (fun m s =>
    let c := m.sctx
    if m.tag = 1 then
      if (s.ctx c).noticed.contains m.src then s.onCtx c (fun x =>
        { x with noticed := x.noticed.erase m.src, armedAt := x.armedAt.erase m.src }) else s
    else if (s.ctx c).armFor = 0 ∨ s.stop.fatal then s
    else
      let s := s.onCtx c (fun x => { x with armWait := x.armWait.erase m.src })
      if (s.ctx c).armWait.isEmpty then armDone c s else s) s)

/-! ## Recast completion (R302, R309) -/

/-- The casting hash after a stream's recast (R309). -/
def newHash (s : State) (c : Nat) (p : Pour) : List Byte :=
  let h := sha256 (p.hdr ++ p.bodyBytes)
  if hdrPartial p.hdr then sha256 (s.castHash c ++ h) else h

/-- The last tile has exchanged (R302, R312). -/
def recastDone (c : Nat) (s : State) : State :=
  let p := s.pour c
  let s := setCastHash c (newHash s c p) s
  let s := (s.onCtx c (fun x => { x with live := true, floor := hdrFloor p.hdr, rounds := [] })).setPour c {}
  let s := emit 0x0022 (some c) ((List.range 4).map (fun w => s.devReg pgCfg (0x200 + 0x20 * c + 8 * w))) none s
  match (s.ctx c).st with
  | .restarting => s.onCtx c (fun x => { x with pend := x.pend || x.held, held := false })
  | st =>
    let s := armOrRelease c 1 s
    let s := if st = .bound then setCState c .running s else s
    if (s.ctx c).held then beginDrain c s else s

/-- CFG_DONE (R302, R308): a tile has exchanged; its grants go (R409, R437). -/
def execCfgDone (s : State) : Host.Outcome State Fault Refusal :=
  .next (onUnit unitCfg 0x26 (fun m s =>
    let c := m.sctx
    let p := s.pour c
    if p.st != .recasting || !p.pending.contains m.src then s
    else
      let s := clearLnmGrants m.src (clearMovGrants m.src s)
      let s := s.setPour c { p with pending := p.pending.erase m.src }
      if (s.pour c).pending.isEmpty then recastDone c s else s) s)

/-! ## Restart and teardown steps at a tile (R314, R350, R356, R480) -/

/-- The decision the management die has recorded for a record's open round (R350, R481). -/
def State.recorded (s : State) (x : Tile) (r : Nat) : Nat :=
  (s.ctx x.cfg.ctx).rounds.get (cgGid (s.tile (cpCoord (x.cgp r))).cgc * 256 + (x.part r).round) 0

/-- Record r acts on every recorded decision from its own round onward, at most `n` of them: a commit swaps its
windows, an abort does not (R342, R350). -/
def actRecorded (s : State) (r : Nat) : Nat → Tile → Tile
  | 0, x => x
  | n + 1, x =>
    let d := s.recorded x r
    if d = 0 then x
    else
      let x := if d = 1 ∧ cpSwap (x.cgp r) ≠ 0 then x.applySwap r else x
      actRecorded s r n (x.setPart r { x.part r with st := 1, round := ((x.part r).round + 1) % 256 })

/-- Complete the rounds whose commit point has passed (R350): a pending record swaps, and one that has not acted
on recorded commits. The round table keeps 128 rounds. -/
def resolveRounds (s : State) (x : Tile) : Tile :=
  (List.range 4).foldl (fun y r =>
    match (y.part r).st with
    | 0 => y
    | 3 => actRecorded s r 128 (y.applySwap r)
    | _ => actRecorded s r 128 y) x

/-- A tile whose recast was interrupted exchanges at once, without a marker (R306, R314). -/
def finishExchange (t : Nat) (s : State) : State :=
  if (s.tile t).cfg.pour == .recasting then exchangeTile t s else s

/-- Scrub (R359): each word met with one wrong bit is corrected and logged, one with two fails the
scrub. Addresses below 2^20 are scratchpad offsets of enabled banks, the others configuration words
of the live set. Answers whether the scrub failed. -/
def scrubTile (t c : Nat) (ecc : List Upset) (s : State) : Bool × State :=
  let x := s.tile t
  let here := ecc.filter (fun u => decide (u.addr ≥ 2 ^ 20) || x.bankOn (bankOf x.ilv u.addr))
  let s := here.foldl (fun s u =>
    if u.dbl then raise (pgCtx c) .scrubFail [(13, t), (20, u.addr % 2 ^ 20)] (some c) s
    else if u.addr < 2 ^ 20 then raiseT t .spCorrected [(20, u.addr / 8 * 8)] none s
    else raiseT t .cfgCorrected [] none s) s
  (here.any (·.dbl), s)

/-- The engines stop, the flush abandons what is in flight (R205, R223, R230, R261, R356). -/
def flushTile (x : Tile) : Tile :=
  let x := (x.dropWork).clearLinks
  { x with mp := { x.mp with sent := [], parked := [] }, cfg := { x.cfg with flushed := true, origin := false } }

/-- What step 5 of a restart restores (R90, R120, R144, R159, R241, R261, R350, R356). -/
def restoreTile (x : Tile) : Tile :=
  (((((x.resetCounters).resetNests).resetEngines).seedGens).groupsRestart).clearLinks

/-- One restart step at a tile (R356). Answers whether the scrub failed. -/
def restartStep (t c n : Nat) (ecc : List Upset) (s : State) : Bool × State :=
  match n with
  | 1 =>
    let edge := match (s.ctx c).mould with
      | some m => (s.border m).contains t
      | none => false
    (false, s.onTile t (fun x => { x with cfg := { x.cfg with contained := true, fence := x.cfg.fence || edge } }))
  | 2 =>
    let s := s.onTile t (resolveRounds s)
    (false, loseCounters t (finishExchange t s))
  | 3 => (false, s.onTile t flushTile)
  | 4 => scrubTile t c ecc s
  | 5 => (false, s.onTile t restoreTile)
  | _ => (false, s)

/-- One teardown step at a tile (R314). -/
def teardownStep (t c n : Nat) (s : State) : State :=
  match n with
  | 1 =>
    let edge := match (s.ctx c).mould with
      | some m => (s.border m).contains t
      | none => false
    finishExchange t (s.onTile t (fun x => { x with cfg := { x.cfg with fence := x.cfg.fence || edge } }))
  | 2 => loseCounters t s
  | 3 => s.onTile t (fun x => ((flushTile x).resetCounters).resetEngines)
  | 4 => s.onTile t (fun x =>
      let x := (x.clearShadow).groupsOff
      { x with cfg := { x.cfg with owned := false, pour := .idle, fill := 0, readback := 0, hold := none,
                                   contained := false, frozen := false,
                                   halted := s.stop.fatal || (s.hdr (pgTile t 0)).halt } })
  | _ => s

/-- MGT_STEP (R356, R480): the tile runs the step and acknowledges; after a FATAL stop no step goes on (R353,
R362). -/
def execMgtStep (t : Nat) (ecc : List Upset) (s : State) : Host.Outcome State Fault Refusal :=
  s.atTile t (onMgt t 0x38 (fun m s =>
    if s.stop.fatal then s else
    let s := readFirst (pgTile t 0) 0x100 (s.tctState t) s
    let n := fld m.w1 0 3
    let (bad, s) := if bit m.w1 3 then (false, teardownStep t m.sctx n s) else restartStep t m.sctx n ecc s
    tileToMgt t 0x39 unitMgt m.sctx m.w1 m.tag (if bad then 6 else 0) [] s))

/-! ## Driving the steps (R314, R354 to R356, R361) -/

/-- Teardown step 5 (R314, R436, R439): the ports drop the context's WRITEs, grants and tables go. -/
def teardownLast (c : Nat) (s : State) : State :=
  let ts := s.ctxTiles c
  let s := (List.range 8).foldl (fun s p =>
    let q := s.port p
    let ws := q.holdq.get c [] ++ q.ctxq.get c []
    let s := setPort p { q with holdq := q.holdq.put c [] [], ctxq := q.ctxq.put c [] [] } s
    ws.foldl (fun s w => if w.ackreq then sendWack p c w.tag 2 s else s) s) s
  let s := ts.foldl (fun s t => clearLnmGrants t (clearMovGrants t s)) s
  let s := sendFence c false (setHold c false s)
  let s := (List.range 8).foldl (fun s i =>
    (s.setDevReg (pgCtx c) (0x140 + 16 * i) 0).setDevReg (pgCtx c) (0x148 + 16 * i) 0) s
  let s := (List.range 16).foldl (fun s i =>
    (s.setDevReg (pgCtx c) (0x1C0 + 16 * i) 0).setDevReg (pgCtx c) (0x1C8 + 16 * i) 0) s
  let s := (setCastHash c (List.replicate 32 0) s).setPour c {}
  s.onCtx c (fun x => { x with handling := { x.handling with step := 5 } })

/-- Send teardown step n; without tiles nothing is awaited. -/
def toTeardown (c n : Nat) (s : State) : State :=
  let s := if n = 2 then gxTeardown c (moverRestart c s) else s
  if n ≥ 5 ∨ (s.ctxTiles c).isEmpty then teardownLast c (if n < 2 then gxTeardown c (moverRestart c s) else s)
  else sendStep c n true s

/-- What the management die does itself at the start of step 2: the pour, the movers, the export
engines (R306, R387, R410). -/
def resolveCtx (c : Nat) (s : State) : State := gxAbort c (moverRestart c (abortPour c s))

/-- Every context of the device restart has passed step 3. -/
def State.deviceFlushed (s : State) : Bool :=
  (List.range 8).all (fun c =>
    let h := (s.ctx c).handling
    !h.device || decide (h.step > 3) || (h.step == 3 && h.waiting.isEmpty))

/-- The contexts of the device restart go on to step 4 together; between, every router discards what it
holds, and with it the messages of which it held a part (R361). -/
def deviceScrub (s : State) : State :=
  if s.stop.restart.isNone || !s.deviceFlushed then s
  else
    let s := discardPackets s
    (List.range 8).foldl (fun s c =>
      let h := (s.ctx c).handling
      if h.device ∧ h.step = 3 then sendStep c 4 false s else s) s

/-- Step 5 has ended for the mould: its tiles commit messages and work again, together (R356, R358). -/
def endContain (c : Nat) (s : State) : State :=
  (s.ctxTiles c).foldl (fun s t => s.onTile t (fun x =>
    { x with cfg := { x.cfg with contained := false, flushed := false, frozen := false } })) s

/-- Every tile has completed the restart step in progress. The rounds of the round table have been resolved
when step 5 begins to number them from 0 again (R350, R353). -/
def restartAdvance (c : Nat) (s : State) : State :=
  let h := (s.ctx c).handling
  match h.step with
  | 1 => sendStep c 2 false (resolveCtx c s)
  | 2 => sendStep c 3 false s
  | 3 => if h.device then deviceScrub s else sendStep c 4 false s
  | 4 => if h.scrubFail then s else sendStep c 5 false (s.onCtx c (fun x => { x with rounds := [] }))
  | 5 => armOrRelease c 2 (endContain c (s.onCtx c (fun x => { x with handling := { x.handling with step := 6 } })))
  | _ => s

/-- MGT_STEP_ACK (R356, R480): an acknowledgement of the step in progress. -/
def execMgtStepAck (s : State) : Host.Outcome State Fault Refusal :=
  .next (onUnit unitMgt 0x39 (fun m s =>
    let c := m.sctx
    let x := s.ctx c
    let td := bit m.w1 3
    let live := if td then x.st == .teardown else x.st == .restarting
    if !live || s.stop.fatal || fld m.w1 0 3 != x.handling.step || !x.handling.waiting.contains m.src then s
    else
      let s := s.onCtx c (fun x => { x with handling := { x.handling with
        waiting := x.handling.waiting.erase m.src, scrubFail := x.handling.scrubFail || m.status == 6 } })
      if !(s.ctx c).handling.waiting.isEmpty then s
      else if td then toTeardown c (x.handling.step + 1) s else restartAdvance c s) s)

/-- RESTART_TIMEOUT (R355): 1,000 µs after its start, save one that SCRUB_FAIL stopped. -/
def execRestartTimeout (c : Fin 8) (s : State) : Host.Outcome State Fault Refusal :=
  .next (
    let x := s.ctx c.val
    if x.st = .restarting ∧ !x.handling.scrubFail ∧ s.time ≥ x.handling.start + 1000000 then
      raise (pgCtx c.val) .restartTimeout [] none s
    else s)

/-- DEVICE_STUCK (R355): a device restart is not complete after 2,000 µs. -/
def execDeviceStuck (s : State) : Host.Outcome State Fault Refusal :=
  .next (match s.stop.restart with
  | some t => if s.time ≥ t + 2000000 ∧ !s.stop.fatal then raise pgErr .deviceStuck [] none s else s
  | none => s)

/-! ## Context commands (R312) -/

/-- A command without a row for the state (R312). -/
def cmdState (c : Nat) (s : State) : State := raise (pgCtx c) .cmdState [] none s

/-- Start a teardown (R312, R314): a pour that is RECASTING ends without an event (R292), and a device restart goes
on with the contexts that are left (R361). -/
def startTeardown (c : Nat) (s : State) : State :=
  let s := setHold c true (abortPour c s)
  let s := if s.recasting c then s.setPour c {} else s
  let s := s.onCtx c (fun x =>
    { x with fence := true, held := false, pend := false, armWait := [], armFor := 0, armedAt := [], noticed := [], holdAt := none,
             handling := { step := 1, start := s.time } })
  endDevice (deviceScrub (toTeardown c 1 (setCState c .teardown s)))

/-- `CTX_CMD` (R312). -/
def ctxCommand (c cmd : Nat) (s : State) : State :=
  let st := (s.ctx c).st
  match cmd, st with
  | 1, .free =>
    let s := (List.range 14).foldl (fun s i => s.setDevReg (pgCtx c) (0x2C0 + 8 * i) 0) s
    setCState c .bound { freshGxMask c s with ctxs := s.ctxs.put c {} {} }
  | 2, .running =>
    if s.recasting c then s.onCtx c (fun x => { x with held := true }) else beginDrain c s
  | 2, .restarting => s.onCtx c (fun x => { x with pend := true })
  | 3, .preempted => setCState c .running (freezeCtx c false s)
  | 4, .bound => startTeardown c s
  | 4, .running => startTeardown c s
  | 4, .restarting => startTeardown c s
  | 4, .preempting => startTeardown c s
  | 4, .preempted => startTeardown c s
  | 5, .running => startRestart c false s
  | 0, _ => s
  | _, _ => cmdState c s

/-- CREATE (R312). -/
def execCreate (c : Fin 8) (s : State) : Host.Outcome State Fault Refusal := .next (actedCtx c.val (ctxCommand c.val 1) s)

/-- PREEMPT (R312). -/
def execPreempt (c : Fin 8) (s : State) : Host.Outcome State Fault Refusal := .next (actedCtx c.val (ctxCommand c.val 2) s)

/-- RESUME (R312). -/
def execResume (c : Fin 8) (s : State) : Host.Outcome State Fault Refusal := .next (actedCtx c.val (ctxCommand c.val 3) s)

/-- TEARDOWN (R312). -/
def execTeardown (c : Fin 8) (s : State) : Host.Outcome State Fault Refusal := .next (actedCtx c.val (ctxCommand c.val 4) s)

/-- RESTART (R312). -/
def execRestart (c : Fin 8) (s : State) : Host.Outcome State Fault Refusal := .next (actedCtx c.val (ctxCommand c.val 5) s)

/-- TEARDOWN_COMPLETE (R312): the mould is released. -/
def execTeardownComplete (c : Fin 8) (s : State) : Host.Outcome State Fault Refusal :=
  .next (
    let x := s.ctx c.val
    if x.st = .teardown ∧ x.handling.step = 5 then
      setCState c.val .free (s.onCtx c.val (fun x => { restarts := x.restarts, acct := x.acct }))
    else s)

/-- Every tile meets conditions 2 to 4 of R297 and no launch or landing port has an open sequence
(R329). -/
def State.drainDone (s : State) (c : Nat) : Bool :=
  (s.ctxTiles c).all (fun t =>
    let x := s.tile t
    x.drained && (List.range 4).all (fun i => !(x.launch i).openSeq && !x.landingOpen i))

/-- PREEMPT_DRAIN_COMPLETE (R312, R329). -/
def execPreemptDrainComplete (c : Fin 8) (s : State) : Host.Outcome State Fault Refusal :=
  .next (if (s.ctx c.val).st = .preempting ∧ s.drainDone c.val then
    setCState c.val .preempted (freezeCtx c.val true s) else s)

/-- PREEMPT_TIMEOUT (R312, R329): the drain has taken `CTX_CFG.PREEMPT_LIMIT` µs. -/
def execPreemptTimeout (c : Fin 8) (s : State) : Host.Outcome State Fault Refusal :=
  .next (
    let lim := fld (s.devReg (pgCtx c.val) 0x110) 0 16
    if (s.ctx c.val).st = .preempting ∧ lim ≠ 0 ∧ s.time ≥ (s.ctx c.val).drainAt + lim * 1000 then
      raise (pgCtx c.val) .preemptTimeout [] (some c.val) s
    else s)

/-! ## Slot table, segment table, accounting (R316, R331, R333) -/

/-- Another enabled slot of the device names the same tile and window (R316). -/
def State.slotClash (s : State) (c i : Nat) (v : Word) : Bool :=
  bit v 0 && (List.range 8).any (fun d => (List.range 8).any (fun j =>
    let w := s.slotA d j
    !(d == c && j == i) && bit w 0 && fld w 1 17 == fld v 1 17))

/-- A write of `CTX_SLOTAi` (R316). -/
def writeSlot (c i : Nat) (v : Word) (s : State) : State :=
  let st := (s.ctx c).st
  let v := setFld v 51 13 0
  if (st = .bound ∨ st = .preempted) ∧ !s.slotClash c i v then s.setDevReg (pgCtx c) (0x140 + 16 * i) v
  else cmdState c s

/-- SLOT_ENTRY_WRITE (R316). `hi` names `CTX_SLOTBi`, which no write changes (R334). -/
def execSlotEntryWrite (c : Fin 8) (i : Fin 8) (hi : Bool) (v : Word) (s : State) :
    Host.Outcome State Fault Refusal :=
  .next (actedCtx c.val (fun s => if hi then s else writeSlot c.val i.val v s) s)

/-- Window of a tier (R21). -/
def tierWindow (t : Nat) : Nat × Nat :=
  match t with
  | 1 => (0x010000000000, 0x020000000000)
  | 2 => (0x020000000000, 0x040000000000)
  | 3 => (0x040000000000, 0x060000000000)
  | _ => (0, 0)

/-- A write of `CTX_SEGLOi` (R331): an entry that fails its check is stored invalid. -/
def writeSegLo (c i : Nat) (v : Word) (s : State) : State :=
  let v := setFld (setFld v 5 7 0) 48 16 0
  let pages := fld (s.devReg (pgCtx c) (0x1C8 + 16 * i)) 0 36
  let b := fld v 12 36 * 4096
  let (lo, hi) := tierWindow (fld v 1 2)
  if bit v 0 ∧ !(pages ≠ 0 ∧ lo ≤ b ∧ b + pages * 4096 ≤ hi ∧ fld v 1 2 ≠ 0) then
    raise (pgCtx c) .segEntry [(4, i)] none (s.setDevReg (pgCtx c) (0x1C0 + 16 * i) (setFld v 0 1 0))
  else s.setDevReg (pgCtx c) (0x1C0 + 16 * i) v

/-- SEG_ENTRY_WRITE (R331). -/
def execSegEntryWrite (c : Fin 8) (i : Fin 16) (v : Word) (s : State) : Host.Outcome State Fault Refusal :=
  .next (actedCtx c.val (writeSegLo c.val i.val v) s)

/-- Engine time in ns: that of each island rounded up, and summed (R321, R333). -/
def State.engineNs (s : State) (c : Nat) : Nat :=
  ((List.range 40).map (fun h => cdiv ((s.ctx c).acct.get (acctTime + h) 0) 65536)).sum

/-- A context's part of an amount that is split by its count n of a total of k. -/
def shareOf (e n k : Nat) : Nat := if k = 0 then 0 else e * n / k

/-- Energy in µJ that a measurement charges to context c (R333): the active share of a half by engine cycles, its
idle share by tile count, a stack's energy by the bytes moved on it. -/
def State.energyShare (s : State) (c : Nat) (m : AcctSample) : Nat :=
  let a := (s.ctx c).acct
  let tiles (h : Nat) : List (Nat × Tile) := s.tiles.filter (fun (t, _) => halfOf t == h)
  (m.halves.map (fun (h, act, idle) =>
    shareOf act (a.get (acctEng + h.val) 0) (a.get (acctEngAll + h.val) 0) +
    shareOf idle ((tiles h.val).filter (fun (_, x) => x.owner == some c)).length (tiles h.val).length)).sum +
  (m.hbmUse.map (fun (d, e) => shareOf e (a.get (acctStack + d.val) 0) (a.get (acctStackAll + d.val) 0))).sum

/-- ACCOUNTING_UPDATE (R333): all accounting registers take their values together, and the counts that divide the
next measurement start anew. -/
def execAccountingUpdate (c : Fin 8) (sample : AcctSample) (s : State) : Host.Outcome State Fault Refusal :=
  .next (
    let a := (s.ctx c.val).acct
    let e := (s.devReg (pgCtx c.val) 0x320).toNat + s.energyShare c.val sample
    let put (off v : Nat) (s : State) : State := s.setDevReg (pgCtx c.val) off (BitVec.ofNat 64 v)
    let s := put 0x2C0 (s.engineNs c.val) s
    let s := (List.range 11).foldl (fun s i => put (0x2C8 + 8 * i) (a.get i 0) s) s
    let s := put 0x328 s.elapsed (put 0x320 e s)
    s.onCtx c.val (fun x => { x with acct := x.acct.filter (fun (k, _) => decide (k < acctEng)) }))

/-! ## Decisions (R340, R349, R481) -/

/-- A pour of context c rides on group `gid` (R348). -/
def State.rides (s : State) (c gid : Nat) : Bool :=
  let p := s.pour c
  gid != 0 && p.group == gid && p.armed && (p.st == .pouring || p.st == .armed)

/-- CGCOORD_WRITE (R349): a coordinator that starts again numbers its rounds from 0, so the recorded
rounds of its group go. -/
def cgcoordWrite (t : Nat) (v : Word) (s : State) : State :=
  let x := s.tile t
  let c := x.cfg.ctx
  let was := x.cg.coord.st
  let s := writeCgcoord t v (s.rides c (cgGid x.cgc)) s
  if was = 0 ∧ (s.tile t).cg.coord.st = 1 then
    s.onCtx c (fun k => { k with rounds := k.rounds.filter (fun (i, _) => i / 256 != cgGid v) })
  else s

/-- CGCOORD_WRITE (R349). -/
def execCgcoordWrite (t : Nat) (v : Word) (s : State) : Host.Outcome State Fault Refusal :=
  s.atTile t (actedTile t (cgcoordWrite t v))

/-- A context whose notices are answered OWNER_LOST: its restart has begun, or it runs no more (R481). -/
def lostState (st : CState) : Bool := st == .restarting || st == .teardown || st == .free

/-- The management die records a decision, reports it, takes it for a riding pour, and acknowledges
(R340, R341, R444, R481). -/
def takeNotice (m : Msg) (s : State) : State :=
  let c := m.sctx
  let gid := fld m.w1 0 8
  let r := fld m.w1 8 8
  let d := fld m.w1 16 2
  let reply (st : Nat) (s : State) : State :=
    sendAll [mgtMsg 0x35 c m.src m.w1 m.tag st []] s
  let note (d : Nat) (s : State) : State := s.onCtx c (fun x =>
    { x with rounds := (x.rounds.put (gid * 256 + r) d 0).put (gid * 256 + (r + 128) % 256) 0 0 })
  if lostState (s.ctx c).st then reply 2 (note 2 s)
  else
    let s := emit 0x0030 (some c) [packW [(8, gid), (8, r), (2, d)]] none (note d s)
    let p := s.pour c
    let s := if s.rides c gid && p.round == r then
        (if d = 2 then abortPour c s else if p.st = .armed then commitPour c s else s)
      else s
    reply 0 s

/-- MGT_NOTICE (R481). -/
def execMgtNotice (s : State) : Host.Outcome State Fault Refusal := .next (onUnit unitMgt 0x34 takeNotice s)

/-- MGT_NOTICE_ACK (R340, R346); at a frozen tile, whose rounds stay as they stand, it is set aside until the thaw
(R350). -/
def execMgtNoticeAck (t : Nat) (s : State) : Host.Outcome State Fault Refusal :=
  s.atTile t (onMgt t 0x35 (fun m s =>
    if (s.tile t).cfg.frozen then setAside t { msg := m, complete := true } s else takeNoticeAck t m s))

/-- MGT_RUNSTATE (R219, R480): the tile's copy of the run states. -/
def execMgtRunstate (t : Nat) (s : State) : Host.Outcome State Fault Refusal :=
  s.atTile t (onMgt t 0x33 (fun m s => s.onTile t (fun x => { x with mp := { x.mp with
    runStates := (List.range 8).foldl (fun r c => r.put c (fld m.w1 (3 * c) 3) 0) x.mp.runStates } })))

/-! ## Error log (R365) -/

/-- RDPTR takes the value written and U follows (R365). -/
def writeRdptr (v : Word) (s : State) : State :=
  let r := fld v 16 10
  { s with log := { s.log with rd := r, unread := (s.log.wr + 1024 - r) % 1024 } }

/-- ERR_RDPTR_WRITE (R365). -/
def execErrRdptrWrite (v : Word) (s : State) : Host.Outcome State Fault Refusal :=
  .next (served (writeRdptr v) s)

end Sys2Proof.Machine
end

