-- ==== Sys2Proof/Machine/Power.lean ====
section
/-! DEFINITION.
Power of tiles and halves (R453 to R465, R470 to R473, R536): periods, floors, the adaptive loops, the
safety overrides, the tile rails and the tile states. -/

namespace Sys2Proof.Machine

/-! ## Halves (R454, R457, R458) -/

def State.half (s : State) (h : Nat) : Half := s.pwr.half h

def setHalf (h : Nat) (v : Half) (s : State) : State :=
  { s with pwr := { s.pwr with halves := s.pwr.halves.put h v {} } }

def onHalf (h : Nat) (f : Half → Half) (s : State) : State := setHalf h (f (s.half h)) s

/-- `PWR_HALFCFGh` (R477). -/
def State.halfCfg (s : State) (h : Nat) : Word := s.devReg pgPwr (0x200 + 8 * h)

/-- A floor of context c binds (R457). -/
def State.floorBinds (s : State) (c : Nat) : Bool :=
  let x := s.ctx c
  x.live && x.floor != 0 && (x.st == .running || x.st == .restarting || x.st == .preempting)

/-- A casting's floor binds half h. -/
def State.floorOn (s : State) (h : Nat) : Bool :=
  (List.range 8).any (fun c => s.floorBinds c && (match (s.ctx c).mould with
    | some m => m.touches h
    | none => false))

/-- Effective floor of half h (R458). -/
def State.floorOf (s : State) (h : Nat) : Nat :=
  (List.range 8).foldl (fun f c => match (s.ctx c).mould with
    | some m => if s.floorBinds c && m.touches h then max f (cdiv (s.ctx c).floor 25 * 25) else f
    | none => f) (fld (s.halfCfg h) 0 10)

/-- Effective ceiling (R458). -/
def State.ceilOf (s : State) (h : Nat) : Nat := fld (s.halfCfg h) 10 10

/-- F that the loops of R471 choose: floors win. -/
def State.wantF (s : State) (h : Nat) : Nat :=
  max (s.floorOf h) (min (s.ceilOf h) (min (s.half h).capF (s.half h).thF))

/-- A safety override holds half h (R472). -/
def State.overridden (s : State) (h : Nat) : Bool := (s.half h).hot != 0 || s.pwr.cur != 0 || s.pwr.vlt != 0

/-- What sets F: 0 ceiling; 1 floor; 2 cap; 3 thermal; 4 override (R477). -/
def State.limitOf (s : State) (h : Nat) : Nat :=
  let x := s.half h
  let m := min (s.ceilOf h) (min x.capF x.thF)
  if s.overridden h then 4
  else if m < s.floorOf h then 1
  else if x.capF = m ∧ m < s.ceilOf h then 2
  else if x.thF = m ∧ m < s.ceilOf h then 3
  else 0

/-- Set F of a half: the calibration unit publishes the new P of its tiles (R454, R456). -/
def setF (h f : Nat) (s : State) : State :=
  let s := onHalf h (fun x => { x with freq := f }) s
  { s with tiles := s.tiles.map (fun (t, x) =>
      if halfOf t = h ∧ x.clk.pstate ≠ .off then (t, x.setPer (periodOf f)) else (t, x)) }

/-- Detail of a PWR error that has a half and a measured value (R478). -/
def pwrItems (h v : Nat) : List (Nat × Nat) := [(6, h), (32, v)]

/-- P of the island of tile t in every state of the tile (R454, R455): one in OFF has the clock that its router runs
on, at F of its half or, with the tile rail off, at 400 MHz (R460). -/
def State.perNow (s : State) (t : Nat) : Nat :=
  let x := s.tile t
  let h := s.half (halfOf t)
  if x.clk.pstate != .off then x.clk.per else periodOf (if h.on then h.freq else 400)

/-- CALIBRATION_WINDOW (R455): a window of 64 cycles that took `len`, in 2^-16 ns; in every tile state. -/
def execCalibrationWindow (t : Nat) (len : Nat) (s : State) : Host.Outcome State Fault Refusal :=
  s.atTile t (fun s => if len > 64 * s.perNow t then raiseT t .clkGuard [] none s else s)

/-! ## Samples (R470) -/

/-- Since when a condition holds. -/
def since (cond : Bool) (was : Option Nat) (now : Nat) : Option Nat :=
  if cond then some (was.getD now) else none

/-- A sample of the power input and the regulators. -/
def takeSample (m : PowerSample) (s : State) : State :=
  let s := m.halves.foldl (fun s (h, w, e) => onHalf h.val (fun x => { x with power := w, energy := e }) s) s
  { s with pwr := { s.pwr with
      vin := m.vin, iin := m.iin, pin := m.pin, eovh := m.eovh,
      curFrom := since (decide (m.iin > 1150)) s.pwr.curFrom s.time,
      vltFrom := since (decide (m.vin < 3500 ∨ m.vin > 4500)) s.pwr.vltFrom s.time,
      vltOkFrom := since (decide (3600 ≤ m.vin ∧ m.vin ≤ 4400)) s.pwr.vltOkFrom s.time } }

def setTj (h temp : Nat) (s : State) : State := onHalf h (fun x => { x with tj := temp }) s

/-! ## Adaptive loops (R458, R471, R536) -/

/-- The floor above the ceiling raises BOUND_CONFLICT once (R458). -/
def checkBounds (h : Nat) (s : State) : State :=
  let high := decide (s.floorOf h > s.ceilOf h)
  let told := (s.half h).floorTold
  let s := onHalf h (fun x => { x with floorTold := high }) s
  if high && !told then raise pgPwr .boundConflict (pwrItems h (s.floorOf h)) none s else s

/-- FREQUENCY_LOOP (R456, R471): F moves one step towards what the loops choose. -/
def execFrequencyLoop (h : Fin 40) (s : State) : Host.Outcome State Fault Refusal :=
  .next (
    let s := checkBounds h.val s
    let f := (s.half h.val).freq
    let w := s.wantF h.val
    if !(s.half h.val).on || s.overridden h.val then s
    else if f < w then setF h.val (min w (f + 25)) s
    else if w < f then setF h.val (max w (f - 25)) s
    else s)

/-- The cap in force: 0 disables it, above 4,200 W it acts as 4,200 W (R471). -/
def State.capW (s : State) : Option Nat :=
  let c := fld (s.devReg pgPwr 0x100) 0 13
  if c = 0 then none else some (min c 4200)

/-- The average power is above the cap (R471). -/
def State.overCap (s : State) (m : PowerSample) : Bool :=
  match s.capW with
  | some c => decide (m.pavg > c)
  | none => false

/-- The average current is above 110 A (R536). -/
def overAmps (m : PowerSample) : Bool := decide (m.iavg > 1100)

/-- The average power or the average current is above its limit (R471, R536). -/
def State.capMissed (s : State) (m : PowerSample) : Bool := s.overCap m || overAmps m

/-- A limit that is missed, since when, and whether that has been raised: BOUND_CONFLICT is due after 1 ms. -/
def missTimer (miss told : Bool) (was : Option Nat) (now : Nat) : Option Nat × Bool × Bool :=
  let from_ := since miss was now
  let late := (match from_ with | some f => decide (now ≥ f + 1000000) | none => false) && !told
  (from_, miss && (told || late), late)

/-- The half whose F is highest, the first of several. -/
def State.highest (s : State) (l : List Nat) : Option Nat :=
  l.foldl (fun b h => match b with
    | none => some h
    | some k => if (s.half k).freq < (s.half h).freq then some h else b) none

/-- The half that the cap lowers: those that no casting's floor binds go first (R471). -/
def State.capPick (s : State) : Option Nat :=
  let can := (List.range 40).filter (fun h => (s.half h).on && decide (s.floorOf h < (s.half h).freq))
  let free := can.filter (fun h => !s.floorOn h)
  s.highest (if free.isEmpty then can else free)

/-- The half whose cap is lowest and below 700 MHz. -/
def State.capRaise (s : State) : Option Nat :=
  (List.range 40).foldl (fun b h =>
    let f := (s.half h).capF
    if f ≥ 700 then b
    else match b with
      | none => some h
      | some k => if f < (s.half k).capF then some h else b) none

/-- The one half whose cap the loop moves in this run: down while a limit is missed, else up (R471). -/
def capMove (miss : Bool) (s : State) : State :=
  match (if miss then s.capPick else s.capRaise) with
  | some h => onHalf h (fun x => { x with capF := if miss then max (s.floorOf h) (x.freq - 25) else x.capF + 25 }) s
  | none => s

/-- POWER_CAP_LOOP (R471, R536): the cap and the 110 A limit each have their own millisecond. -/
def execPowerCapLoop (sample : PowerSample) (s : State) : Host.Outcome State Fault Refusal :=
  .next (
    let s := takeSample sample s
    let (cf, ct, capLate) := missTimer (s.overCap sample) s.pwr.capTold s.pwr.capFrom s.time
    let (af, at_, ampLate) := missTimer (overAmps sample) s.pwr.ampTold s.pwr.ampFrom s.time
    let s := { s with pwr := { s.pwr with capFrom := cf, capTold := ct, ampFrom := af, ampTold := at_ } }
    let s := capMove (s.capMissed sample) s
    let s := if capLate then raise pgPwr .boundConflict (pwrItems 0 sample.pavg) none s else s
    if ampLate then raise pgPwr .boundConflict (pwrItems 0 sample.iavg) none s else s)

/-- Thermal target in 0.1 °C; above 95 °C it acts as 95 °C (R471). -/
def State.target (s : State) : Nat := min (fld (s.devReg pgPwr 0x100) 16 7) 95 * 10

/-- THERMAL_LOOP (R471): F falls from the target on; a target missed at the floor for 1 ms is a
conflict. -/
def execThermalLoop (h : Fin 40) (temp : Nat) (s : State) : Host.Outcome State Fault Refusal :=
  .next (
    let s := setTj h.val temp s
    let x := s.half h.val
    let fl := s.floorOf h.val
    let thF := if temp ≥ s.target then max fl (min x.thF (x.freq - 25)) else min 700 (x.thF + 25)
    let missed := decide (temp > s.target) && decide (x.freq ≤ fl) && x.on
    let from_ := since missed x.missFrom s.time
    let late := (match from_ with | some f => decide (s.time ≥ f + 1000000) | none => false) && !x.missTold
    let s := onHalf h.val (fun x => { x with thF := thF, missFrom := from_, missTold := missed && (x.missTold || late) }) s
    if late then raise pgPwr .boundConflict (pwrItems h.val temp) none s else s)

/-! ## Safety overrides (R472, R473) -/

/-- Start or end of an override: PWR_OVERRIDE and a POLICY_OVERRIDE record. `h` none: every half, whose
FLOOR and FREQ the spec leaves open. -/
def ovrNote (cause phase : Nat) (h : Option Nat) (value freq : Nat) (s : State) : State :=
  let n := s.freeCtr
  let s := match h with
    | some _ => s
    | none => { s with freeCtr := n + 1 }
  let s := raise pgPwr .pwrOverride (pwrItems (h.getD 0) value) none s
  let w2 := match h with
    | some k => packW [(4, cause), (2, phase), (5, k / 2), (1, k % 2), (10, s.floorOf k), (10, freq)]
    | none => packW [(4, cause), (2, phase), (5, 31), (1, 0), (10, (Config.freeOvr n 0).toNat),
        (10, (Config.freeOvr n 1).toNat)]
  emit 0x0060 none [w2, packW [(32, value)]] none s

/-- The interval of every half starts anew. -/
def restep (s : State) : State :=
  (List.range 40).foldl (fun s h =>
    if (s.half h).on then onHalf h (fun x => { x with stepAt := s.time }) s else s) s

/-- JUNCTION_OVERRIDE (R472). -/
def execJunctionOverride (h : Fin 40) (temp : Nat) (s : State) : Host.Outcome State Fault Refusal :=
  .next (
    let s := setTj h.val temp s
    let x := s.half h.val
    if !x.on || decide (temp < 950) || x.hot == 1 then s
    else
      let s := onHalf h.val (fun x => { x with hot := 1, stepAt := s.time }) s
      if x.hot = 0 then ovrNote 1 1 (some h.val) temp (max 100 (x.freq - 25)) s else s)

/-- CURRENT_OVERRIDE (R472). -/
def execCurrentOverride (sample : PowerSample) (s : State) : Host.Outcome State Fault Refusal :=
  .next (
    let s := takeSample sample s
    match s.pwr.curFrom with
    | some f =>
      if s.time ≥ f + 100000 ∧ s.pwr.cur ≠ 1 then
        let new := s.pwr.cur == 0
        let s := restep { s with pwr := { s.pwr with cur := 1 } }
        if new then ovrNote 2 1 none sample.iin 0 s else s
      else s
    | none => s)

/-- F of a half moves one step down, to 100 MHz at the least (R456, R472). -/
def stepDown (h : Nat) (s : State) : State := setF h (max 100 ((s.half h).freq - 25)) s

/-- VOLTAGE_OVERRIDE (R472): every half goes to 100 MHz, in steps of 25 MHz (R456): the first is taken here, the
others with OVERRIDE_STEP. -/
def execVoltageOverride (sample : PowerSample) (s : State) : Host.Outcome State Fault Refusal :=
  .next (
    let s := takeSample sample s
    match s.pwr.vltFrom with
    | some f =>
      if s.time ≥ f + 10000 ∧ s.pwr.vlt ≠ 1 then
        let new := s.pwr.vlt == 0
        let s := restep { s with pwr := { s.pwr with vlt := 1 } }
        let s := (List.range 40).foldl (fun s h => if (s.half h).on then stepDown h s else s) s
        if new then ovrNote 3 1 none sample.vin 0 s else s
      else s
    | none => s)

/-- Overrides whose F has come back end (R472, R473). -/
def endOverrides (h temp : Nat) (m : PowerSample) (s : State) : State :=
  let s := if (s.half h).hot = 2 ∧ (s.half h).freq ≥ s.wantF h then
      ovrNote 1 2 (some h) temp (s.half h).freq
        (onHalf h (fun x => { x with hot := 0, hotEnd := some s.time }) s)
    else s
  let back := (List.range 40).all (fun k => !(s.half k).on || decide ((s.half k).freq ≥ s.wantF k))
  let s := if s.pwr.cur = 2 ∧ back then
      ovrNote 2 2 none m.iin 0 { s with pwr := { s.pwr with cur := 0, allEnd := some s.time } }
    else s
  if s.pwr.vlt = 2 ∧ back then
    ovrNote 3 2 none m.vin 0 { s with pwr := { s.pwr with vlt := 0, allEnd := some s.time } }
  else s

/-- A falling override turns to rising once its cause is gone (R472). -/
def turnUp (h temp : Nat) (m : PowerSample) (s : State) : State :=
  let s := if (s.half h).hot = 1 ∧ temp ≤ 930 then onHalf h (fun x => { x with hot := 2, stepAt := s.time }) s else s
  let s := if s.pwr.cur = 1 ∧ m.iin ≤ 1050 then restep { s with pwr := { s.pwr with cur := 2 } } else s
  let ok : Bool := match s.pwr.vltOkFrom with
    | some f => decide (s.time ≥ f + 1000000)
    | none => false
  if s.pwr.vlt = 1 ∧ ok then restep { s with pwr := { s.pwr with vlt := 2 } } else s

/-- OVERRIDE_STEP (R472): 25 MHz down every 10 µs, or at once under a voltage override, whose steps each take at
most 1 µs (R456); 25 MHz up every 100 µs while the cause stays away. -/
def execOverrideStep (h : Fin 40) (temp : Nat) (sample : PowerSample) (s : State) :
    Host.Outcome State Fault Refusal :=
  .next (
    let s := turnUp h.val temp sample (takeSample sample (setTj h.val temp s))
    let x := s.half h.val
    if !x.on || !s.overridden h.val then s
    else if s.pwr.vlt = 1 then stepDown h.val s
    else if x.hot = 1 ∨ s.pwr.cur = 1 then
      if s.time ≥ x.stepAt + 10000 then
        onHalf h.val (fun x => { x with stepAt := s.time }) (stepDown h.val s)
      else s
    else
      let calm := (x.hot == 0 || decide (temp ≤ 930)) && (s.pwr.cur == 0 || decide (sample.iin ≤ 1050)) &&
        (s.pwr.vlt == 0 || decide (3600 ≤ sample.vin ∧ sample.vin ≤ 4400))
      let w := s.wantF h.val
      let s := if x.freq < w ∧ calm ∧ s.time ≥ x.stepAt + 100000 then
          onHalf h.val (fun x => { x with stepAt := s.time }) (setF h.val (min w (x.freq + 25)) s)
        else s
      endOverrides h.val temp sample s)

/-- The junction sensors: 0 to 39 a half, 40 to 43 an edge die, 44 the management die, 45 to 64 an HBM stack. -/
def setJunction (j temp : Nat) (s : State) : State :=
  if j < 40 then setTj j temp s
  else if 45 ≤ j then setHbm (j - 45) { s.hbm (j - 45) with temp := temp / 10 } s
  else s

/-- THERM_TRIP (R472): any junction of the device; one that is no half's has no half in the detail. -/
def execThermTrip (j : Fin 65) (temp : Nat) (s : State) : Host.Outcome State Fault Refusal :=
  .next (
    let s := setJunction j.val temp s
    if temp ≥ 1050 then raise pgPwr .thermTrip (pwrItems (if j.val < 40 then j.val else 0) temp) none s else s)

/-- VIN_FAULT (R472). -/
def execVinFault (sample : PowerSample) (s : State) : Host.Outcome State Fault Refusal :=
  .next (
    let s := takeSample sample s
    if sample.vin < 3300 ∨ sample.vin > 4700 then raise pgPwr .vinFault (pwrItems 0 sample.vin) none s else s)

/-! ## Tile rails (R460, R461) -/

/-- Refuser ID (R467). -/
def refId (kind n : Nat) : Nat := kind * 4096 + n

/-- The context that keeps half h on: one that owns a tile of it, or whose pour has passed its header
checks over it (R461). -/
def State.halfRefuser (s : State) (h : Nat) : Option Nat :=
  match s.tiles.find? (fun (t, x) => halfOf t == h && x.cfg.owned) with
  | some (_, x) => some (refId 1 x.cfg.ctx)
  | none => ((List.range 8).find? (fun c =>
      !(s.pour c).hdr.isEmpty && (hdrMould (s.pour c).hdr).touches h)).map (refId 1)

/-- The tile rail goes off: every tile of the half is OFF and loses its contents. -/
def railOff (h : Nat) (s : State) : State :=
  let x := s.half h
  let s := setHalf h { energy := x.energy, hotEnd := x.hotEnd, tj := x.tj } s
  { s with tiles := s.tiles.filter (fun (t, _) => halfOf t != h) }

/-- The tile rail comes on; the tiles come up in OFF (R461). Under a voltage override every half runs at 100 MHz
(R472). -/
def railOn (h : Nat) (s : State) : State :=
  if (s.half h).on then onHalf h (fun x => { x with offReq := false }) s
  else
    let s := onHalf h (fun x => { x with on := true, offReq := false }) s
    onHalf h (fun x => { x with freq := if s.pwr.vlt = 1 then 100 else s.floorOf h }) s

/-- A request to power half h off (R461). -/
def askOff (h : Nat) (s : State) : State :=
  if !(s.half h).on then s
  else match s.halfRefuser h with
  | some id =>
    acctRefuse 1 id (raise pgPwr .pwrRefused [(6, h), (16, id)] none (onHalf h (fun x => { x with offReq := true }) s))
  | none => railOff h s

/-- The power manager tries a refused request again (R461). -/
def retryOff (s : State) : State :=
  (List.range 40).foldl (fun s h =>
    if (s.half h).offReq && (s.halfRefuser h).isNone then railOff h s else s) s

/-- A legal frequency bound (R458). -/
def boundOk (f : Nat) : Bool := f % 25 == 0 && decide (100 ≤ f ∧ f ≤ 700)

/-- A write of `PWR_HALFCFGh` (R458, R461). -/
def writeHalfCfg (h : Nat) (v : Word) (s : State) : State :=
  let v := setFld v 53 11 0
  let lo := fld v 0 10
  let hi := fld v 10 10
  if !(boundOk lo && boundOk hi && decide (lo ≤ hi)) then raise pgPwr .pwrSetup [(6, h), (16, 0)] none s
  else
    let s := s.setDevReg pgPwr (0x200 + 8 * h) v
    if bit v 52 then railOn h s else askOff h s

/-- `PWR_HALFSTATh` as it reads (R477); a half that is off shows no floor, as its Cold values have it (log 123). -/
def State.halfStat (s : State) (h : Nat) : Word :=
  let x := s.half h
  packW [(10, x.freq), (10, if x.on then s.floorOf h else 0), (12, if x.on then 600 + (Config.tileVolt h x.freq).val else 0), (14, x.power),
    (1, b2n x.on), (1, b2n (s.overridden h)), (3, s.limitOf h), (8, x.tj / 10)]

/-- HALF_POWER_OFF (R461): ON is written 0. -/
def execHalfPowerOff (h : Fin 40) (s : State) : Host.Outcome State Fault Refusal :=
  .next (acted pgPwr (0x400 + 8 * h.val) (fun s => s.halfStat h.val)
    (fun s => writeHalfCfg h.val (setFld (s.halfCfg h.val) 52 1 0) s) s)

/-- HALF_POWER_ON (R461): ON is written 1. -/
def execHalfPowerOn (h : Fin 40) (s : State) : Host.Outcome State Fault Refusal :=
  .next (acted pgPwr (0x400 + 8 * h.val) (fun s => s.halfStat h.val)
    (fun s => writeHalfCfg h.val (setFld (s.halfCfg h.val) 52 1 1) s) s)

/-! ## Tile states (R462 to R465) -/

/-- The action that a point comes to first (R257). -/
def Tile.firstAct (x : Tile) (p n lvl point : Nat) : Nat :=
  match x.pointActs p n lvl point with
  | .act a :: _ => a
  | _ => 0

/-- `TCT_NESTIDXB` STATE and ACTION of nest n of plane p (R269). -/
def Tile.nestState (x : Tile) (p n : Nat) : Nat × Nat :=
  if !(x.nctl p n).en || !((x.nest p n).live || x.cfg.plane == p) then (0, 0)
  else
    let k := (x.settle p n settleFuel (x.running p n)).1
    if k.done then (5, 0)
    else match k.todo with
      | .fire :: _ => (1, 0)
      | .act a :: _ => (2, a)
      | .pop _ :: _ => (3, 0)
      | .begin _ :: _ => (4, 0)
      | .startPt l :: _ => if (x.pointOps p n l).isEmpty then (2, x.firstAct p n l 0) else (3, 0)
      | .endPt l :: _ => if k.out ≠ 0 then (1, 0) else (2, x.firstAct p n l 1)
      | _ => (0, 0)

/-- Something has arrived at a tile (R464): a token in an input, a packet. -/
def State.arrival (s : State) (t : Nat) : Bool :=
  (s.tile t).fab.ports.any (fun (_, q) => !q.fifo.isEmpty) || !(s.inbox.get t []).isEmpty

/-- A tile has nothing to do (R462). -/
def State.idleTile (s : State) (t : Nat) : Bool :=
  let x := s.tile t
  x.mtx.issued.isEmpty && x.mtx.bufs.isEmpty && x.mtx.rows.isEmpty && x.mtx.drains.isEmpty &&
  x.vec.fire.isNone && x.vec.tail.isEmpty && x.vec.red.isEmpty && x.vec.held.isEmpty &&
  x.fab.ports.all (fun (_, q) => q.fifo.isEmpty && q.queue.isEmpty) &&
  x.fab.landings.all (fun (_, l) => l.inp.isNone) && x.fab.nestWords.isEmpty &&
  (List.range 4).all (fun p => (List.range 8).all (fun n => !((x.nestState p n).1 == 1 || (x.nestState p n).1 == 2))) &&
  (List.range 8).all (fun r =>
    let w := x.chrec r
    !(recKind w == 1 || recKind w == 2) || (x.hqueue (recHq w)).isEmpty) &&
  x.mp.fenced.isEmpty && x.cfg.pour == .idle && !s.arrival t

/-- TILE_IDLE_ENTRY (R462): nothing to do for IDLE_T cycles. -/
def execTileIdleEntry (t : Nat) (s : State) : Host.Outcome State Fault Refusal :=
  s.atTile t (fun s =>
    let x := s.tile t
    if x.clk.pstate == .active && s.idleTile t && decide (x.clk.idleCnt ≥ fld (s.halfCfg (halfOf t)) 20 16) then
      s.onTile t (fun x => { x with clk := { x.clk with pstate := .idle, idleCnt := 0, napCnt := 0, refused := false } })
    else s)

/-- A floor keeps the tile out of NAP (R457, R463). -/
def State.noNap (s : State) (t : Nat) : Bool :=
  match (s.tile t).owner with
  | some c => s.floorBinds c
  | none => false

/-- TILE_NAP_ENTRY (R463, R465): the check phase begins, or the floor's refusal is counted once per idle
period. -/
def execTileNapEntry (t : Nat) (s : State) : Host.Outcome State Fault Refusal :=
  s.atTile t (fun s =>
    let x := s.tile t
    let nt := fld (s.halfCfg (halfOf t)) 36 16
    if x.clk.pstate != .idle || x.clk.napCheck || nt == 0 || decide (x.clk.napCnt < nt * 1024) then s
    else if s.noNap t then
      if x.clk.refused then s
      else acctRefuse 0 (refId 1 x.cfg.ctx) (s.onTile t (fun x => { x with clk := { x.clk with refused := true } }))
    else s.onTile t (fun x => { x with clk := { x.clk with napCheck := true, napAt := x.clk.napCnt } }))

/-- NAP_COMMIT (R465): 16 cycles after the check phase began the tile goes to NAP; what arrives in the
commit phase waits for TILE_WAKE. -/
def execNapCommit (t : Nat) (s : State) : Host.Outcome State Fault Refusal :=
  s.atTile t (fun s =>
    let x := s.tile t
    if x.clk.pstate != .idle || !x.clk.napCheck then s
    else if s.arrival t then abortNap t s
    else if x.clk.napCnt ≥ x.clk.napAt + 16 then
      s.onTile t (fun x => { x with clk := { x.clk with pstate := .nap, napCheck := false } })
    else s)

/-- TILE_WAKE (R464, R465): from IDLE in 2 cycles, from NAP with the wake charge; in the check phase of
NAP entry the arrival first aborts the entry. -/
def execTileWake (t : Nat) (s : State) : Host.Outcome State Fault Refusal :=
  s.atTile t (fun s =>
    let x := s.tile t
    if !s.arrival t then s
    else if x.clk.pstate = .idle ∧ x.clk.napCheck then abortNap t s
    else s.onTile t Tile.wake)

/-- Tiles that no context owns go OFF while `PWR_DCFG.UNOWNED_OFF` is 1 (R462). -/
def unownedOff (s : State) : State :=
  if bit (s.devReg pgPwr 0x108) 17 then
    { s with tiles := s.tiles.filter (fun (_, x) => x.cfg.owned || x.clk.pstate == .off) }
  else s

end Sys2Proof.Machine
end

