-- ==== Sys2Proof/Machine/Signature.lean ====
section
/-! DEFINITION.
SLH-DSA-SHA2-128f of FIPS 205, which R493, R496 and R500 name and do not restate: PRESUMED from the
published standard (log 119). Nodes are 16 bytes; a tree of a layer has 8 leaves, there are 22 layers,
33 FORS trees of 64 leaves, and a WOTS+ key has 35 chains of 15 steps. -/

namespace Sys2Proof.Machine

/-- A place in the hypertree: layer, tree, what is hashed, and three words that depend on it. -/
structure Place where
  layer : Nat := 0
  tree  : Nat := 0
  kind  : Nat := 0
  pair  : Nat := 0
  mid   : Nat := 0
  low   : Nat := 0
  deriving DecidableEq, Repr

/-- The 22 bytes of a place under SHA-2. -/
def Place.bytes (p : Place) : List Byte :=
  beBytes 1 p.layer ++ beBytes 8 p.tree ++ beBytes 1 p.kind ++ [p.pair, p.mid, p.low].flatMap (beBytes 4)

/-- A place in the same tree, for another use. -/
def Place.turn (p : Place) (kind pair mid low : Nat) : Place := { p with kind := kind, pair := pair, mid := mid, low := low }

/-- The one tweaked hash of the 128-bit parameter sets: a chain step, a node, a root, a secret. -/
def thash (seed : List Byte) (p : Place) (m : List Byte) : List Byte :=
  (sha256 (seed ++ List.replicate 48 0 ++ p.bytes ++ m)).take 16

/-- `n` steps of chain `c` of key pair `kp`, from step `i` on. -/
def chainUp (seed : List Byte) (p : Place) (kp c : Nat) : Nat → Nat → List Byte → List Byte
  | 0, _, x => x
  | n + 1, i, x => chainUp seed p kp c n (i + 1) (thash seed (p.turn 0 kp c i) x)

/-- The 35 step counts of a node: its 32 half bytes, and three of what they lack to 15 each. -/
def steps35 (m : List Byte) : List Nat :=
  let ds := m.flatMap (fun b => [b.toNat / 16, b.toNat % 16])
  let lack := (ds.map (15 - ·)).sum
  ds ++ [lack / 256, lack / 16 % 16, lack % 16]

/-- The root of a WOTS+ key from the ends of its chains. -/
def chainRoot (seed : List Byte) (p : Place) (kp : Nat) (ends : List (List Byte)) : List Byte :=
  thash seed (p.turn 1 kp 0 0) ends.flatten

/-- The starts of the 35 chains of key pair `kp`. -/
def chainStarts (sk seed : List Byte) (p : Place) (kp : Nat) : List (List Byte) :=
  (List.range 35).map (fun c => thash seed (p.turn 5 kp c 0) sk)

/-- Leaf `kp` of a tree: the WOTS+ root with every chain at its end. -/
def treeLeaf (sk seed : List Byte) (p : Place) (kp : Nat) : List Byte :=
  chainRoot seed p kp ((chainStarts sk seed p kp).zipIdx.map (fun (x, c) => chainUp seed p kp c 15 0 x))

/-- Node `i` at height `z` over leaves `leaf`; nodes are hashed at the place that `at_` gives. -/
def nodeAt (seed : List Byte) (at_ : Nat → Nat → Place) (leaf : Nat → List Byte) : Nat → Nat → List Byte
  | 0, i => leaf i
  | z + 1, i => thash seed (at_ (z + 1) i) (nodeAt seed at_ leaf z (2 * i) ++ nodeAt seed at_ leaf z (2 * i + 1))

/-- The nodes beside the path from leaf `i` up to height `z`. -/
def pathOf (node : Nat → Nat → List Byte) (z i : Nat) : List (List Byte) :=
  (List.range z).map (fun j => node j ((i / 2 ^ j) ^^^ 1))

/-- The root that a leaf and the nodes beside its path give, `j` levels up already. -/
def climb (seed : List Byte) (at_ : Nat → Nat → Place) : Nat → Nat → List (List Byte) → List Byte → List Byte
  | _, _, [], x => x
  | j, i, a :: path, x =>
    climb seed at_ (j + 1) (i / 2) path (thash seed (at_ (j + 1) (i / 2)) (if i % 2 = 0 then x ++ a else a ++ x))

/-- Places of the nodes of a tree, and of the FORS trees of key pair `kp`. -/
def treeAt (p : Place) (z i : Nat) : Place := p.turn 2 0 z i
def forsAt (p : Place) (kp z i : Nat) : Place := p.turn 3 kp z i

/-- The root of a tree (three levels). -/
def treeRoot (sk seed : List Byte) (p : Place) : List Byte :=
  nodeAt seed (treeAt p) (treeLeaf sk seed p) 3 0

/-- Signature of a node by leaf `kp` of a tree: 35 chain values and three path nodes. -/
def treeSign (sk seed : List Byte) (p : Place) (kp : Nat) (m : List Byte) : List (List Byte) :=
  ((chainStarts sk seed p kp).zip (steps35 m)).zipIdx.map (fun ((x, n), c) => chainUp seed p kp c n 0 x) ++
    pathOf (nodeAt seed (treeAt p) (treeLeaf sk seed p)) 3 kp

/-- The root that such a signature leads to. -/
def treeCheck (seed : List Byte) (p : Place) (kp : Nat) (m : List Byte) (sig : List (List Byte)) : List Byte :=
  let ends := ((sig.take 35).zip (steps35 m)).zipIdx.map (fun ((x, n), c) => chainUp seed p kp c (15 - n) n x)
  climb seed (treeAt p) 0 kp (sig.drop 35) (chainRoot seed p kp ends)

/-- Layers `l` on: each signs the root of the tree below. `i` is the path: three bits a layer. -/
def layersSign (sk seed : List Byte) : Nat → Nat → Nat → List Byte → List (List Byte)
  | 0, _, _, _ => []
  | n + 1, l, i, m =>
    let p : Place := { layer := l, tree := i / 8 }
    treeSign sk seed p (i % 8) m ++ layersSign sk seed n (l + 1) (i / 8) (treeRoot sk seed p)

/-- The top root that the layers' signatures lead to. -/
def layersCheck (seed : List Byte) : Nat → Nat → Nat → List Byte → List (List Byte) → List Byte
  | 0, _, _, m, _ => m
  | n + 1, l, i, m, sig =>
    layersCheck seed n (l + 1) (i / 8) (treeCheck seed { layer := l, tree := i / 8 } (i % 8) m (sig.take 38)) (sig.drop 38)

/-- What a message digest of 34 bytes selects: the leaf of each FORS tree, and the path of three bits a layer. -/
def digestParts (d : List Byte) : List Nat × Nat :=
  ((List.range 33).map (fun i => beNat (d.take 25) / 2 ^ (194 - 6 * i) % 64),
    beNat ((d.drop 25).take 8) % 2 ^ 63 * 8 + beNat (d.drop 33) % 8)

/-- Digest of a message of pure SLH-DSA with an empty context. -/
def slhDigest (r seed root msg : List Byte) : List Byte :=
  let h := r ++ seed ++ sha256 (r ++ seed ++ root ++ 0 :: 0 :: msg)
  (sha256 (h ++ beBytes 4 0) ++ sha256 (h ++ beBytes 4 1)).take 34

/-- The secret of FORS leaf `i`. -/
def forsSecret (sk seed : List Byte) (p : Place) (kp i : Nat) : List Byte := thash seed (p.turn 6 kp 0 i) sk

/-- Leaf `i` of the FORS trees from its secret. -/
def forsLeaf (seed : List Byte) (p : Place) (kp i : Nat) (secret : List Byte) : List Byte := thash seed (forsAt p kp 0 i) secret

/-- The root of the 33 FORS roots that secrets and paths lead to; seven nodes a tree. -/
def forsCheck (seed : List Byte) (p : Place) (kp : Nat) (ix : List Nat) (sig : List (List Byte)) : List Byte :=
  thash seed (p.turn 4 kp 0 0) ((ix.zip (groupsOf 7 33 sig)).zipIdx.flatMap (fun ((i, g), t) =>
    climb seed (forsAt p kp) 0 (64 * t + i) g.tail (forsLeaf seed p kp (64 * t + i) (g.headD []))))

/-- The secrets and paths that the digest selects. -/
def forsSign (sk seed : List Byte) (p : Place) (kp : Nat) (ix : List Nat) : List (List Byte) :=
  ix.zipIdx.flatMap (fun (i, t) =>
    forsSecret sk seed p kp (64 * t + i) ::
      pathOf (nodeAt seed (forsAt p kp) (fun j => forsLeaf seed p kp j (forsSecret sk seed p kp j))) 6 (64 * t + i))

/-- PK.root of a key pair: the root of the one tree of the top layer. -/
def slhRoot (sk seed : List Byte) : List Byte := treeRoot sk seed { layer := 21 }

/-- Signature of 17,088 bytes of a message; `rnd` is the 16 random bytes of the signer. -/
def slhSign (sk prf seed root rnd msg : List Byte) : List Byte :=
  let r := (hmacSha256 prf (rnd ++ 0 :: 0 :: msg)).take 16
  let (ix, path) := digestParts (slhDigest r seed root msg)
  let p : Place := { tree := path / 8 }
  let fs := forsSign sk seed p (path % 8) ix
  r ++ fs.flatten ++ (layersSign sk seed 22 0 path (forsCheck seed p (path % 8) ix fs)).flatten

/-- A signature of a message verifies under a public key of 32 bytes: PK.seed and PK.root. -/
def slhVerify (key msg sig : List Byte) : Bool :=
  let seed := key.take 16
  let nodes := groupsOf 16 1068 sig
  let (ix, path) := digestParts (slhDigest (nodes.headD []) seed (key.drop 16) msg)
  let fs := forsCheck seed { tree := path / 8 } (path % 8) ix ((nodes.drop 1).take 231)
  decide (key.length = 32 ∧ sig.length = 17088 ∧ layersCheck seed 22 0 path fs (nodes.drop 232) = key.drop 16)

end Sys2Proof.Machine
end

