-- ==== Sys2Proof/Machine/Boot.lean ====
section
/-! DEFINITION.
Boot, reset and power input (R66, R482 to R490, R537 to R539), the retained store, the device states
and the nightwatch (R466 to R468, R474, R475). -/

namespace Sys2Proof.Machine

/-! ## Retained store (R487 to R490) -/

/-- Kept bits of a device register (the register tables of chapters 09 to 15). -/
def keptMask (pg off : Nat) : Word :=
  if pg = 3 then (if off = 0x100 then 3 else 0)
  else if pg = 4 then
    (if off = 0x100 then 0x7F1FFF
    else if off = 0x108 then 0x3FFFF
    else if off = 0x140 then 0xFFFFFFFFFFF
    else if 0x200 ≤ off ∧ off < 0x340 then 0x1FFFFFFFFFFFFF
    else 0)
  else if pg = 5 then (if off = 0x188 then 0xFFFFFFFF else 0)
  else if 0x10 ≤ pg ∧ pg < 0x18 then (if off = 0x110 then 0xFFFF else 0)
  else if 0x40 ≤ pg ∧ pg < 0x54 then (if off = 0x108 then 0xFFFF else 0)
  else if 0x60 ≤ pg ∧ pg < 0x70 then
    (if off = 0x110 then 0xFFFF else if off = 0x108 ∧ pg % 4 = 0 then 1 else 0)
  else if 0x70 ≤ pg ∧ pg < 0x74 then (if off = 0x118 then 3 else 0)
  else if 0x80 ≤ pg ∧ pg < 0x88 then
    (if off = 0x100 then 0x1FFFFFFFF else if off = 0x120 then 0xFFFF else if off = 0x128 then 0xFFFFFFFFFFFFFFFF else 0)
  else 0

/-- The device pages of R512, rising. -/
def devicePages : List Nat :=
  List.range 6 ++ List.range' 0x10 8 ++ List.range' 0x20 28 ++ List.range' 0x40 20 ++ List.range' 0x60 16 ++
  List.range' 0x70 4 ++ List.range' 0x80 8

/-- The Kept fields as they stand. -/
def State.image (s : State) (gen : Nat) : Image :=
  { gen := gen
    regs := s.dev.filterMap (fun (k, v) =>
      let m := keptMask (k / 512) (k % 512 * 8)
      if m = 0 then none else some (k, v &&& m))
    masks := s.hdrs.filterMap (fun (pg, h) => if pg < 0x8000 ∧ h.mask ≠ 0 then some (pg, h.mask) else none) }

/-- Kept registers of a page, rising; 0x030 is `PG_ERRMASK`. -/
def keptOffs (pg : Nat) : List Nat :=
  0x030 :: ((List.range' 0x20 0x1E0).map (8 * ·)).filter (fun o => keptMask pg o != 0)

/-- The payload of an image (R487): each Kept register as 8 bytes. -/
def Image.payload (i : Image) : List Byte :=
  devicePages.flatMap (fun pg => (keptOffs pg).flatMap (fun o =>
    leBytes 8 (if o = 0x030 then i.masks.get pg 0 else i.regs.get (rkey pg o) (devCold (rkey pg o))).toNat))

/-- Header and payload (R487). -/
def Image.bytes (i : Image) : List Byte :=
  let p := i.payload
  leBytes 4 0x52544E44 ++ leBytes 4 i.gen ++ leBytes 4 p.length ++ leBytes 4 (crc32c p) ++ List.replicate 16 0 ++ p

/-- The retained-state hash (R490). -/
def Image.hash (i : Image) : BitVec 256 := BitVec.ofNat 256 (leNat (sha256 i.bytes))

/-- The selected copy. -/
def Mgt.selected (m : Mgt) : Option Image := if m.selB then m.copyB else m.copyA

/-- A save starts with the Kept fields as they stand; one that runs is followed by one more (R489). -/
def startSave (s : State) : State :=
  if s.mgt.saving.isSome then { s with mgt := { s.mgt with saveAgain := true } }
  else
    let g := match s.mgt.selected with
      | some i => (i.gen + 1) % 2 ^ 32
      | none => 0
    { s with mgt := { s.mgt with saving := some (s.image g) } }

/-- SAVE (R489): `PG_CTRL.SAVE` of any page. -/
def execSave (s : State) : Host.Outcome State Fault Refusal := .next (servedLow startSave s)

/-- SHUTDOWN (R489). -/
def execShutdown (s : State) : Host.Outcome State Fault Refusal := .next (servedLow startSave s)

/-- SAVE_COMPLETE (R489, R490): the other copy is written and selected, or its write failed. While no copy is
present copy A counts as the selected one, so that the first save writes copy B (DESIGN CHOICE, assumption 79). -/
def execSaveComplete (ok : Bool) (s : State) : Host.Outcome State Fault Refusal :=
  .next (match s.mgt.saving with
  | none => s
  | some i =>
    let again := s.mgt.saveAgain
    let m := { s.mgt with saving := none, saveAgain := false }
    let s := if ok then
        { s with mgt := { m with copyA := if m.selB then some i else m.copyA, copyB := if m.selB then m.copyB else some i,
                                 selB := !m.selB, saves := (m.saves + 1) % 2 ^ 32, retHash := i.hash } }
      else raise pgMgt .retSaveFail [] none { s with mgt := m }
    if again then startSave s else s)

/-! ## What stops and resets (R483, R537, R538) -/

/-- Registers of the nightwatch, which its rail keeps (R468, R475): `PWR_WAKE` always, its configuration
and the ports' enables while the device sleeps in D-standby. -/
def nwKey (k : Nat) : Bool :=
  k == rkey pgPwr 0x120 || k == rkey pgPwr 0x130 || k == rkey pgPwr 0x138 || k == rkey pgPwr 0x140 ||
  (decide (0x80 ≤ k / 512 ∧ k / 512 < 0x88) && k % 512 == 0x20)

/-- Every die stops and loses its state; the nightwatch count, the fuses, the retained store, the boot
flash and the sampled straps (R529) stay. In D-standby (`sleep`) so do the registers of the nightwatch and the
address that the sideband goes on acknowledging (R530). -/
def discard (sleep : Bool) (s : State) : State :=
  { pending := s.pending, time := s.time, freeCtr := s.freeCtr,
    dev := s.dev.filter (fun (k, _) => sleep && nwKey k),
    pwr := { nwNs := s.pwr.nwNs, alarm0 := s.pwr.alarm0, alarm1 := s.pwr.alarm1 },
    mgt := { fuses := s.mgt.fuses, copyA := s.mgt.copyA, copyB := s.mgt.copyB, flash := s.mgt.flash,
             flashNew := s.mgt.flashNew, certs := s.mgt.certs, fwData := s.mgt.fwData,
             challenges := s.mgt.challenges },
    brd := { v40 := s.brd.v40, pwren := s.brd.pwren, rstn := s.brd.rstn, lostClk := s.brd.lostClk,
             sbsel := s.brd.sbsel, sbaddr := s.brd.sbaddr, da := if sleep then s.brd.da else none } }

/-! ## Boot (R482 to R488) -/

/-- Extend a measurement slot (R486). -/
def extendSlot (i : Nat) (d : List Byte) (s : State) : State :=
  let h := sha256 (leBytes 32 (s.mgt.slots.get i 0).toNat ++ d)
  { s with mgt := { s.mgt with slots := s.mgt.slots.put i (BitVec.ofNat 256 (leNat h)) 0 } }

/-- n bytes of the boot flash from an offset; erased bytes read 0xFF. -/
def flashSpan (img : List Byte) (off n : Nat) : List Byte :=
  let bs := (img.drop off).take n
  bs ++ List.replicate (n - bs.length) 0xFF

/-- The header of the image keeps its format (R484, R485). -/
def imageOk (h : List Byte) : Bool :=
  let u (o n : Nat) : Nat := leNat ((h.drop o).take n)
  u 0 4 == 0x4D475246 && u 4 2 == 1 && decide (u 8 4 ≤ 0x800000) && decide (u 12 4 + u 16 4 ≤ u 8 4)

/-- Steps 2 and 3 of R482: the straps are sampled, the ROM measures the image. -/
def romStage (w : BootWorld) (s : State) : State :=
  let img := if !s.mgt.flashNew.isEmpty then s.mgt.flashNew
    else if !s.mgt.flash.isEmpty then s.mgt.flash else w.image
  let keep := if !s.mgt.flashNew.isEmpty then s.mgt.flashNew else s.mgt.flash
  let s := { s with mgt := { s.mgt with flash := keep, flashNew := [] },
                    brd := { s.brd with sbsel := w.sbsel, sbaddr := w.sbaddr.val } }
  let h := flashSpan img 0 64
  let s := extendSlot 1 (sha256 h) (extendSlot 0 (leBytes 32 Config.romDigest.toNat) s)
  if imageOk h then
    let n := leNat ((h.drop 8).take 4)
    let s := extendSlot 2 (sha256 (flashSpan img 64 n)) s
    let s := extendSlot 3 (sha256 (flashSpan img (64 + leNat ((h.drop 12).take 4)) (leNat ((h.drop 16).take 4)))) s
    { s with mgt := { s.mgt with boot := 1 } }
  else { s with mgt := { s.mgt with boot := 3 } }

/-- The map of a die whose failed physical column is f (R66). A record that names column 8, the spare itself, gives
the map without repair (DESIGN CHOICE, assumption 108). -/
def repairMap (f : Nat) : List Nat :=
  (List.range 16).map (fun i => if i < 8 then (if f < 8 ∧ f ≤ i then i + 1 else i) else if 8 < f ∧ i < f then i else i + 1)

/-- Repair maps in force, and the state of each spare (R66, R69, R497). -/
def applyMaps (s : State) : State :=
  (List.range 20).foldl (fun s d =>
    let fac := s.mgt.fuses.maps.get d []
    let (m, sp) := match s.mgt.fuses.repairs.get d 0 with
      | 0 => (fac, if fac = [] ∨ fac = noRepair then 0 else 1)
      | f + 1 => (repairMap f, 2)
    { s with pwr := { s.pwr with maps := s.pwr.maps.put d m [], spare := s.pwr.spare.put d sp 0 } }) s

/-- 16 bytes that HKDF-SHA256 gives from the device seed under an info string (R493), with no salt (log 119). -/
def seedBytes (seed : BitVec 256) (info : String) : List Byte :=
  (hkdf [] (leBytes 32 seed.toNat) (info.toUTF8.toList.map (fun b => BitVec.ofNat 8 b.toNat))).take 16

/-- The key pair of the device (R493). -/
def idKeyOf (seed : BitVec 256) : IdKey :=
  let sk := seedBytes seed "nlm-id-sk"
  let pk := seedBytes seed "nlm-id-pk"
  { skSeed := BitVec.ofNat 128 (leNat sk), skPrf := BitVec.ofNat 128 (leNat (seedBytes seed "nlm-id-prf")),
    pkSeed := BitVec.ofNat 128 (leNat pk), pkRoot := BitVec.ofNat 128 (leNat (slhRoot sk pk)) }

/-- Step 4 of R482 derives the key pair and measures the Firmware region into slot 4 (R487, R493). -/
def identify (s : State) : State :=
  let s := { s with mgt := { s.mgt with idKey := idKeyOf s.mgt.fuses.seed } }
  extendSlot 4 (sha256 s.mgt.fwData) s

/-- Restore from the retained store (R488). -/
def restore (w : BootWorld) (s : State) : State :=
  let a := if w.badA then none else s.mgt.copyA
  let b := if w.badB then none else s.mgt.copyB
  let selB := match a, b with
    | some x, some y => decide (x.gen < y.gen)
    | none, some _ => true
    | _, none => false
  let img := if selB then b else a
  let s := if w.badA && s.mgt.copyA.isSome then raise pgMgt .retRestore [] none s else s
  let s := if w.badB && s.mgt.copyB.isSome then raise pgMgt .retRestore [] none s else s
  let none_ := s.mgt.copyA.isNone && s.mgt.copyB.isNone
  let s := { s with mgt := { s.mgt with selB := selB,
                                        cold := w.cstrap || img.isNone,
                                        cause := if w.cstrap then 3 else if none_ then 1 else if img.isNone then 2 else 0,
                                        retHash := match img with | some i => i.hash | none => 0 } }
  match (if w.cstrap then none else img) with
  | none => s
  | some i =>
    let s := i.regs.foldl (fun s (k, v) => { s with dev := s.dev.put k v (devCold k) }) s
    i.masks.foldl (fun s (pg, v) => s.onHdr pg (fun h => { h with mask := v })) s

/-- The module is one that R414 supports, and training succeeds. -/
def dimmOk (size sp : Nat) (ok : Bool) : Bool := ok && decide (16 ≤ size ∧ size ≤ 128 ∧ 1 ≤ sp ∧ sp ≤ 3)

/-- Lowest speed bin trained in a group (R415). -/
def lowestBin (l : List (Fin 16 × Nat × Nat × Bool)) (g : Nat) : Nat :=
  l.foldl (fun m (c, size, sp, ok) => if c.val / 4 = g ∧ dimmOk size sp ok ∧ (m = 0 ∨ sp < m) then sp else m) 0

/-- Memory training (R413, R415, R416). -/
def trainMemory (w : BootWorld) (s : State) : State :=
  let s := w.hbm.foldl (fun s d => setHbm d.val { s.hbm d.val with trained := true } s) s
  let s := w.ddr.foldl (fun s (c, size, sp, ok) =>
    let ok := dimmOk size sp ok
    setDdr c.val { s.ddr c.val with found := true, trained := ok, size := size,
                                    speed := if ok then lowestBin w.ddr (c.val / 4) else 0 } s) s
  let s := (List.range 4).foldl (fun s g =>
    if bit (s.devReg (pgDdr (4 * g)) 0x108) 0 then
      let sz := (s.ddr (4 * g)).size
      if (List.range 4).all (fun j => (s.ddr (4 * g + j)).trained && (s.ddr (4 * g + j)).size == sz) then
        { s with mem := { s.mem with fourWay := s.mem.fourWay.put g true false } }
      else raise (pgDdr (4 * g)) .ddrMapFallback [(48, 0)] none s
    else s) s
  (List.range 4).foldl (fun s p =>
    let v := s.devReg (pgCxl p) 0x118
    { s with mem := { s.mem with wide := s.mem.wide.put p (!bit v 0) false, ilv := s.mem.ilv.put p (bit v 1) false } }) s

/-- Steps 4 and 5 of R482. -/
def firmwareStage (w : BootWorld) (s : State) : State :=
  let s := restore w (applyMaps (identify s))
  let s := (List.range 40).foldl (fun s h => if bit (s.halfCfg h) 52 then railOn h s else s) s
  let s := trainMemory w s
  let s := w.measured.foldl (fun s (i, d) =>
    if 4 ≤ i.val ∧ i.val < 12 then extendSlot i.val (leBytes 32 d.toNat) s else s) s
  let s := (List.range 8).foldl (fun s p => if bit (s.lnmCfg p) 0 then portOn p s else s) s
  { s with mgt := { s.mgt with boot := 2 }, brd := { s.brd with pwrgd := true } }

/-- Steps 2 to 5 of R482, from a device that holds nothing but what `discard` keeps. Of `PWR_WAKE` the events
that brought the exit and REPLAYED stay; its other bits take Cold (R11, R468, R477). -/
def boot (wake : Word) (w : BootWorld) (s : State) : State :=
  let s := romStage w ((discard false s).setDevReg pgPwr 0x120 wake)
  if s.mgt.boot = 1 then firmwareStage w s else s

/-- Step 2 of R482 begins once PWREN is high with RST_N high (R539), and no sooner than 1 ms after that and the
reference clocks of R533 hold, as `w.steady` says (R537); no clock is lost then. -/
def tryBoot (w : BootWorld) (s : State) : State :=
  if s.brd.v40 && s.brd.pwren && s.brd.rstn && s.mgt.boot == 0 && s.pwr.dstate == 0 && decide (w.steady ≥ 1000000) then
    boot 0 w { s with brd := { s.brd with lostClk := [] } }
  else s

/-- POWER_APPLIED (R474, R482 step 1): the nightwatch starts, its count from 0. PWREN is a level: where it is high
already, step 2 follows. -/
def execPowerApplied (s : State) (w : BootWorld := {}) : Host.Outcome State Fault Refusal :=
  .next (if s.brd.v40 then s
    else
      let s := discard false s
      tryBoot w { s with pwr := {}, brd := { s.brd with v40 := true } })

/-- POWER_REMOVED (R466): Off; the elapsed count is lost. -/
def execPowerRemoved (s : State) : Host.Outcome State Fault Refusal :=
  .next (
    let s := discard false s
    { s with pwr := {}, brd := { s.brd with v40 := false } })

/-- POWER_ENABLE (R537, R539): PWREN is high. A device that has not booted yet, because a condition of `tryBoot` was
missing, tries again. -/
def execPowerEnable (w : BootWorld) (s : State) : Host.Outcome State Fault Refusal :=
  .next (tryBoot w { s with brd := { s.brd with pwren := true } })

/-- POWER_DISABLE (R538): the dies stop, every rail except the nightwatch goes off. -/
def execPowerDisable (s : State) : Host.Outcome State Fault Refusal :=
  .next (if !s.brd.pwren then s
    else
      let s := discard false s
      { s with brd := { s.brd with pwren := false } })

/-- The device acts on a low pulse of `low` ns on RST_N (R531): from 10 µs on, never up to 1 µs, and between
these as the spec leaves open. -/
def resetActs (n low : Nat) : Bool := decide (low ≥ 10000) || (decide (low > 1000) && Config.resetSeen n)

/-- RESET_ASSERT (R483, R531, R539): RST_N has been low for `low` ns. A pulse that the device ignores leaves no
trace; without power-enable an assertion has no effect on the device. -/
def execResetAssert (s : State) (low : Nat := 10000) : Host.Outcome State Fault Refusal :=
  .next (
    let n := s.freeCtr
    let s := { s with freeCtr := n + 1 }
    if !resetActs n low then s
    else
      let s := if s.brd.pwren then discard false s else s
      { s with brd := { s.brd with rstn := false } })

/-- RESET_DEASSERT (R483, R539): the device runs steps 2 to 5 as soon as they may begin. -/
def execResetDeassert (w : BootWorld) (s : State) : Host.Outcome State Fault Refusal :=
  .next (if s.brd.rstn then s else tryBoot w { s with brd := { s.brd with rstn := true } })

/-! ## Device states (R466 to R468) -/

/-- The first refuser of D-idle, in the order of R467. -/
def State.idleRefuser (s : State) : Option Nat :=
  let ctx := (List.range 8).find? (fun c => match (s.ctx c).st with
    | .running => true
    | .preempting => true
    | .restarting => true
    | .teardown => true
    | _ => false)
  let pour := (List.range 8).find? (fun c => (s.pour c).st != .idle)
  let mov := (List.range 28).find? (fun m => decide ((s.mover m).held > 0))
  let cxl := (List.range 8).find? (fun l => (s.cxl l).st == .enumerating || (s.cxl l).st == .offlining)
  let sess := (List.range 8).findSome? (fun c => (s.session c).map (·.port))
  (((ctx.map (refId 1)).or (pour.map (refId 1))).or ((mov.map (refId 4)).or (cxl.map (fun l => refId 3 (l / 2))))).or
    (sess.map (refId 2))

/-- The first refuser of D-standby (R467). -/
def State.standbyRefuser (s : State) : Option Nat :=
  let ctx := (List.range 8).find? (fun c => (s.ctx c).st != .free)
  let lnm := (List.range 8).find? (fun p => (s.port p).st == .up)
  let cxl := (List.range 8).find? (fun l => (s.cxl l).st == .online)
  ((ctx.map (refId 1)).or (lnm.map (refId 2))).or (cxl.map (fun l => refId 3 (l / 2)))

/-- A request to enter D-idle (1) or D-standby (2) (R467, R468); a FATAL stop ends only with a reset (R362). -/
def askState (target : Nat) (s : State) : State :=
  if s.pwr.dstate ≠ 0 ∨ s.pwr.entering.isSome ∨ s.stop.fatal then s
  else match (if target = 1 then s.idleRefuser else s.standbyRefuser) with
  | some id => acctRefuse (target + 1) id (raise pgPwr .pwrRefused [(6, 0), (16, id)] none s)
  | none => { s with pwr := { s.pwr with entering := some { target := target } } }

/-- A tile that is ACTIVE goes to IDLE (R466). -/
def Tile.rest (x : Tile) : Tile :=
  if x.clk.pstate = .active then
    { x with clk := { x.clk with pstate := .idle, idleCnt := 0, napCnt := 0, refused := false } }
  else x

/-- D-idle (R466): the memories in self-refresh, the CXL links in L1, every tile in IDLE or NAP. -/
def restDevice (s : State) : State :=
  let s := setL1 true (setSr true s)
  { s with tiles := s.tiles.map (fun (t, x) => (t, x.rest)) }

/-- The check phase ends and the commit phase begins (R468): self-refresh, or the save. -/
def toCommit (s : State) : State :=
  match s.pwr.entering with
  | some e =>
    if e.commit || s.stop.fatal then s
    else
      let s := { s with pwr := { s.pwr with entering := some { e with commit := true } } }
      if e.target = 1 then restDevice s else startSave s
  | none => s

/-- A member whose self-refresh exit fails ceases to be usable (R410). -/
def srFailed (l : List (Fin 36)) (s : State) : State :=
  l.foldl (fun s i => if i.val < 20 then setHbm i.val { s.hbm i.val with failed := true } s
    else setDdr (i.val - 20) { s.ddr (i.val - 20) with failed := true } s) s

/-- Exit to D0 from D-idle or, by a boot, from D-standby (R466); `wake` are the bits of its wake events. -/
def exitState (wake : Word) (w : BootWorld) (s : State) : State :=
  if s.stop.fatal then s
  else if s.pwr.dstate = 1 then srFailed w.srFail (leaveIdle s)
  else if s.pwr.dstate = 2 ∧ s.brd.pwren ∧ s.brd.rstn then boot wake w s
  else s

/-- A wake event (R468): `src` 0 to 7 a comparator, 8 a Laniem packet, 9 a `PWR_DCMD` write of D0. -/
def wakeEvent (src : Nat) (w : BootWorld) (s : State) : State :=
  match s.pwr.entering with
  | some e =>
    if src = 8 then vc0Wake s
    else if !e.commit then acctAbort (e.target + 1) { s with pwr := { s.pwr with entering := none } }
    else (if src ≥ 8 then setWake src else id)
      { s with pwr := { s.pwr with entering := some { e with latched := e.latched ||| wakeBit src } } }
  | none =>
    if s.pwr.dstate = 0 ∨ (src ≥ 8 ∧ s.pwr.dstate = 2) then s
    else exitState (wakeBit src) w (if src ≥ 8 then setWake src s else s)

/-- DIDLE_AUTO (R467): no refusal condition has held for DIDLE_T ms. -/
def execDidleAuto (s : State) : Host.Outcome State Fault Refusal :=
  .next (served (fun s =>
    let v := s.devReg pgPwr 0x108
    match s.pwr.didleFrom with
    | some f => if bit v 0 ∧ s.time ≥ f + fld v 1 16 * 1000000 then askState 1 s else s
    | none => s) s)

/-- DEVICE_STATE_COMMIT (R468): the entry completes and a latched wake is replayed; D-standby waits for its save, and
neither state is entered after a FATAL stop (R362). -/
def execDeviceStateCommit (w : BootWorld) (s : State) : Host.Outcome State Fault Refusal :=
  .next (match s.pwr.entering with
  | some e =>
    if !e.commit || s.stop.fatal || (e.target == 2 && s.mgt.saving.isSome) then s
    else
      let s := if e.target = 1 then s else discard true s
      let s := { s with pwr := { s.pwr with entering := none, dstate := e.target } }
      if e.latched ≠ 0 then exitState (e.latched ||| wakeBit 10) w (setWake 10 s) else s
  | none => s)

/-- DEVICE_WAKE (R468): a wake event that a comparator with its WAKE bit, a VC0 packet or a `PWR_DCMD`
write brings. -/
def execDeviceWake (src : Fin 10) (w : BootWorld) (s : State) : Host.Outcome State Fault Refusal :=
  .next (
    if src.val ≥ 8 ∨ (bit (s.devReg pgPwr 0x140) (8 + src.val) ∧ bit (s.devReg pgPwr 0x120) src.val) then
      wakeEvent src.val w s
    else s)

/-- A comparator's condition (R475). `value`: the port that sees light, the temperature in °C, the
voltage in 0.1 V, 1 for an asserted wake input. -/
def State.cmpFires (s : State) (cmp value : Nat) : Bool :=
  let v := s.devReg pgPwr 0x140
  match cmp with
  | 0 => decide (value < 8) && bit (s.lnmCfg value) 0 && ((s.port value).st == .dark || s.pwr.dstate == 2)
  | 1 => decide (value ≥ fld v 16 8)
  | 2 => decide (value > fld v 24 10)
  | 3 => decide (value < fld v 34 10)
  | 4 => value == 1
  | 5 => true
  | 6 => s.devReg pgPwr 0x130 != 0 && decide (s.elapsed ≥ (s.devReg pgPwr 0x130).toNat) && !s.pwr.alarm0
  | _ => s.devReg pgPwr 0x138 != 0 && decide (s.elapsed ≥ (s.devReg pgPwr 0x138).toNat) && !s.pwr.alarm1

/-- COMPARATOR_FIRE (R475). -/
def execComparatorFire (cmp : Fin 8) (value : Nat) (w : BootWorld) (s : State) :
    Host.Outcome State Fault Refusal :=
  .next (
    if !s.brd.v40 || !bit (s.devReg pgPwr 0x140) cmp.val || !s.cmpFires cmp.val value then s
    else
      let s := setWake cmp.val s
      let s := { s with pwr := { s.pwr with alarm0 := s.pwr.alarm0 || cmp.val == 6, alarm1 := s.pwr.alarm1 || cmp.val == 7 } }
      if bit (s.devReg pgPwr 0x140) (8 + cmp.val) then wakeEvent cmp.val w s else s)

end Sys2Proof.Machine
end

