-- ==== Sys2Proof/Machine/Trust.lean ====
section
/-! DEFINITION.
Fuses (R491, R492), measurement slots and attestation (R486, R493 to R497), the JTAG instructions that
touch no register (R499, R500), the watchdog (R502), the boot flash (R503), and the sideband's I3C
addressing (R530). -/

namespace Sys2Proof.Machine

def setMgt (f : Mgt → Mgt) (s : State) : State := { s with mgt := f s.mgt }

/-! ## Fuses (R491, R492) -/

/-- The spare of a die as R497 names it. -/
def State.spareOf (s : State) (d : Nat) : Nat :=
  let sp := s.pwr.spare.get d 0
  if s.mgt.fuses.repairs.get d 0 ≠ 0 ∧ sp ≠ 2 then 3 else sp

/-- The operation that `FUS_PROGSEL` and `FUS_KEYDATA` name. -/
def State.fuseSel (s : State) : FuseOp :=
  let v := s.devReg pgFus 0x110
  { kind := fld v 0 3, index := fld v 3 5, pval := fld v 8 5,
    data := BitVec.ofNat 256 (pack ((List.range 4).map (fun w => (64, (s.devReg pgFus (0x118 + 8 * w)).toNat)))) }

/-- A program operation is refused (R492). -/
def State.fuseRefused (s : State) (o : FuseOp) : Bool :=
  let f := s.mgt.fuses
  let mark (b : BitVec 8) : Bool := b.toNat / 2 ^ o.index % 2 == 1
  decide (s.pwr.vin < 3600 ∨ s.pwr.vin > 4400) || (List.range 8).any (fun c => (s.ctx c).st != .free) ||
  (match o.kind with
   | 0 => decide (o.index ≥ 8) || mark f.prog
   | 1 => decide (o.index ≥ 8) || !mark f.prog
   | 2 => decide (o.index ≥ 8)
   | 3 => decide (o.index ≥ 20 ∨ o.pval ≥ 17) || s.spareOf o.index != 0 || f.policy.toNat / 16 % 2 == 1
   | 4 => f.dbgHash != 0
   | _ => true)

/-- GO is written to `FUS_PROG` (R492, R503). -/
def fuseGo (s : State) : State :=
  let o := s.fuseSel
  if s.mgt.fuseOp.isSome then s
  else if s.fuseRefused o then raise pgFus .fusRefused [] none (setMgt (fun m => { m with fuseResult := 2 }) s)
  else setMgt (fun m => { m with fuseOp := some o, fuseResult := 0 }) s

/-- The operation is of the kind the command names. -/
def fuseKind (k : Nat) (s : State) : State := if s.fuseSel.kind = k then fuseGo s else s

/-- FUSE_KEY_SLOT (R492). -/
def execFuseKeySlot (s : State) : Host.Outcome State Fault Refusal := .next (servedLow (fuseKind 0) s)

/-- FUSE_REVOKE (R492). -/
def execFuseRevoke (s : State) : Host.Outcome State Fault Refusal := .next (servedLow (fuseKind 1) s)

/-- FUSE_POLICY_BIT (R492). -/
def execFusePolicyBit (s : State) : Host.Outcome State Fault Refusal := .next (servedLow (fuseKind 2) s)

/-- FUSE_FIELD_REPAIR (R492). -/
def execFuseFieldRepair (s : State) : Host.Outcome State Fault Refusal := .next (servedLow (fuseKind 3) s)

/-- FUSE_DEBUG_KEY_HASH (R492). -/
def execFuseDebugKeyHash (s : State) : Host.Outcome State Fault Refusal := .next (servedLow (fuseKind 4) s)

/-- Blow the bits of an operation that `m0` and `m1` admit: the field and its programmed mark. -/
def blow (o : FuseOp) (m0 m1 : BitVec 256) (f : Fuses) : Fuses :=
  let one : BitVec 8 := if m1.toNat % 2 = 1 then BitVec.ofNat 8 (2 ^ o.index) else 0
  match o.kind with
  | 0 => { f with keys := f.keys.put o.index (f.keys.get o.index 0 ||| (o.data &&& m0)) 0, prog := f.prog ||| one }
  | 1 => { f with revoked := f.revoked ||| one }
  | 2 => { f with policy := f.policy ||| one }
  | 3 =>
    let v := (o.pval + 1) % 64 &&& m0.toNat
    { f with repairs := f.repairs.put o.index (f.repairs.get o.index 0 ||| v) 0 }
  | 4 => { f with dbgHash := f.dbgHash ||| (o.data &&& m0) }
  | _ => f

/-- FUSE_PROGRAM_DONE (R492): the read-back matches, or it does not and the bits already blown stay. -/
def execFuseProgramDone (ok : Bool) (s : State) : Host.Outcome State Fault Refusal :=
  .next (match s.mgt.fuseOp with
  | none => s
  | some o =>
    if ok then
      setMgt (fun m => { m with fuses := blow o (BitVec.allOnes 256) 1 m.fuses, fuseOp := none, fuseResult := 1 }) s
    else
      let n := s.freeCtr
      let s := { s with freeCtr := n + 1 }
      raise pgFus .fusProgFail [] none
        (setMgt (fun m => { m with fuses := blow o (Config.blown n 0) (Config.blown n 1) m.fuses, fuseOp := none,
                                   fuseResult := 3 }) s))

/-! ## Measurement and attestation (R486, R494 to R497) -/

/-- A write of `ATT_EXTCMD` (R486). -/
def writeExtCmd (v : Word) (s : State) : State :=
  if !bit v 4 then s
  else if fld v 0 4 < 12 then raise pgAtt .attSlot [] none s
  else extendSlot (fld v 0 4) ((List.range 4).flatMap (fun w => leBytes 8 (s.devReg pgAtt (0x110 + 8 * w)).toNat)) s

/-- ATT_EXTEND (R486). -/
def execAttExtend (v : Word) (s : State) : Host.Outcome State Fault Refusal := .next (servedLow (writeExtCmd v) s)

/-- Geometry entry of a die (R497). -/
def State.geomBytes (s : State) (d : Nat) : List Byte :=
  leBytes 10 (pack ((List.range 16).map (fun i => (5, s.physCol d i)))) ++
  [BitVec.ofNat 8 (s.cols d), BitVec.ofNat 8 (s.spareOf d)] ++ List.replicate 4 0

/-- Entry of a context (R497). -/
def State.ctxBytes (s : State) (c : Nat) : List Byte :=
  let x := s.ctx c
  let m := x.mould.getD ⟨0, 0, 0, 0⟩
  [BitVec.ofNat 8 x.st.toNat, BitVec.ofNat 8 (b2n x.mould.isSome), BitVec.ofNat 8 m.x0, BitVec.ofNat 8 m.x1,
    BitVec.ofNat 8 (m.dy0 + 4 * m.dy1)] ++ List.replicate 11 0 ++ s.castHash c

/-- `FUS_KEYSTAT` (R503). -/
def Fuses.keystat (f : Fuses) : Nat := f.prog.toNat + 256 * f.revoked.toNat

/-- Body of a report (R496). -/
def State.reportBody (s : State) (nonce : BitVec 256) : List Byte :=
  let m := s.mgt
  leBytes 4 0x54505441 ++ leBytes 2 1 ++ leBytes 2 0 ++ leBytes 4 18440 ++ leBytes 4 0 ++
  leBytes 16 m.fuses.id.toNat ++ leBytes 32 nonce.toNat ++ leBytes 8 s.elapsed ++ leBytes 8 m.reportSeq ++
  leBytes 2 1 ++ [BitVec.ofNat 8 m.fuses.grade, BitVec.ofNat 8 (b2n m.cold + 2 * b2n m.debugged)] ++ leBytes 4 0 ++
  leBytes 8 (m.fuses.policy.toNat % 32) ++ leBytes 8 m.fuses.keystat ++ leBytes 32 m.retHash.toNat ++
  (List.range 16).flatMap (fun i => leBytes 32 (m.slots.get i 0).toNat) ++
  (List.range 20).flatMap s.geomBytes ++ (List.range 8).flatMap s.ctxBytes

/-- The root of trust takes the next request and every field of its report (R494, R495). -/
def startReport (s : State) : State :=
  match s.mgt.signing, s.mgt.attQ with
  | none, r :: rest =>
    setMgt (fun m => { m with signing := some { req := r, seq := m.reportSeq, body := s.reportBody r.nonce }, attQ := rest }) s
  | _, _ => s

/-- A request joins the queue (R494). -/
def askReport (r : AttReq) (s : State) : State := startReport (setMgt (fun m => { m with attQ := m.attQ ++ [r] }) s)

/-- The register path has a request waiting or being signed. -/
def Mgt.regBusy (m : Mgt) : Bool :=
  m.attQ.any (fun r => r.src == 8) || (match m.signing with | some r => r.req.src == 8 | none => false)

/-- GO is written to `ATT_CMD` (R494, R495). -/
def attGo (s : State) : State :=
  if s.mgt.regBusy then raise pgAtt .attBusy [] none s
  else
    let n := BitVec.ofNat 256 (pack ((List.range 4).map (fun w => (64, (s.devReg pgAtt (0x140 + 8 * w)).toNat))))
    askReport { src := 8, nonce := n } (setMgt (fun m => { m with report := none }) s)

/-- ATTESTATION_REQUEST (R494). -/
def execAttestationRequest (s : State) : Host.Outcome State Fault Refusal := .next (servedLow attGo s)

/-- Send bytes as ATT_RESP packets of 1,024 (R447, R497). -/
def attRespond (p tctx tag : Nat) (bs : List Byte) (s : State) : State :=
  let n := max 1 (cdiv bs.length 1024)
  (pieces n bs).zipIdx.foldl (fun s (b, i) =>
    outPkt p 0x0B 8 { tctx := tctx, first := i == 0, last := i + 1 == n, bytes := b.length, tag := tag, payload := b } none s) s

/-- The signature of 17,088 bytes under the device's key pair (R493, R496). -/
def IdKey.sign (k : IdKey) (rnd : BitVec 128) (body : List Byte) : List Byte :=
  let b (v : BitVec 128) : List Byte := leBytes 16 v.toNat
  slhSign (b k.skSeed) (b k.skPrf) (b k.pkSeed) (b k.pkRoot) (b rnd) body

/-- REPORT_SIGNED (R494 to R497): the report goes to its asker and the next request starts. -/
def execReportSigned (s : State) : Host.Outcome State Fault Refusal :=
  .next (match s.mgt.signing with
  | none => s
  | some r =>
    let n := s.freeCtr
    let s := { s with freeCtr := n + 1 }
    let r := { r with sig := s.mgt.idKey.sign (Config.signRandom n) r.body }
    let s := setMgt (fun m => { m with signing := none, reportSeq := (m.reportSeq + 1) % 2 ^ 64,
                                       report := if r.req.src = 8 then some r else m.report }) s
    let s := if r.req.src < 8 then attRespond r.req.src r.req.tctx r.req.tag (r.body ++ r.sig) s else s
    startReport s)

/-- A request of a partner is answered REFUSED (R447). -/
def attRefuse (p : Nat) (k : LnmPkt) (s : State) : State :=
  outPkt p 0x0B 8 { tctx := k.tctx, first := true, last := true, tag := k.tag, status := 5 } none (portRefusal p s)

/-- ATT_REQ with a nonce, or without payload for the certificate chain (R447, R494). -/
def attIn (p : Nat) (k : LnmPkt) (s : State) : State :=
  if (s.port p).attBusy then attRefuse p k s
  else
    let s := onPort p (fun q => { q with attBusy := true }) s
    if k.payload.isEmpty then attRespond p k.tctx k.tag s.mgt.certs s
    else askReport { src := p, tctx := k.tctx, tag := k.tag, nonce := BitVec.ofNat 256 (leNat k.payload) } s

/-- An attestation packet: 32 bytes of nonce or none; any other length breaks R447. -/
def attPacket (p : Nat) (k : LnmPkt) (s : State) : State :=
  recv p 0x0A k (fun s => if k.payload.length = 32 ∨ k.payload.isEmpty then attIn p k s else proto p 0x0A k s) s

/-- ATT_REQ (R447). -/
def execAttReq (p : Fin 8) (pkt : LnmPkt) (s : State) : Host.Outcome State Fault Refusal :=
  .next (attPacket p.val pkt s)

/-- CERT_CHAIN_REQUEST (R494): an ATT_REQ without payload. -/
def execCertChainRequest (p : Fin 8) (pkt : LnmPkt) (s : State) : Host.Outcome State Fault Refusal :=
  .next (if pkt.payload.isEmpty then attPacket p.val pkt s else s)

/-! ## JTAG (R499, R500) -/

def setBrd (f : Board → Board) (s : State) : State := { s with brd := f s.brd }

/-- JTAG mode of `FUS_POLICY` (R499). -/
def State.jtagMode (s : State) : Nat := s.mgt.fuses.policy.toNat / 2 % 4

/-- Load an instruction: EXTEST drives only while it is loaded. -/
def loadIr (i : Nat) (s : State) : State :=
  setBrd (fun b => { b with extest := i == 3 }) (setMgt (fun m => { m with ir := i }) s)

/-- BYPASS: one register bit, 0 when captured, between TDI and TDO. -/
def execBypass (bits : List Bool) (s : State) : Host.Outcome State Fault Refusal :=
  .next (setBrd (fun b => { b with tdo := (false :: bits).take bits.length }) (loadIr 0xFF s))

/-- IDCODE (R499): 32 bits, the least significant first. TRST_N (`trst`) resets the test access port, and with it
comes IDCODE as the instruction, with nothing shifted (R529; IEEE 1149.1, log 120). -/
def execIdcode (s : State) (trst : Bool := false) : Host.Outcome State Fault Refusal :=
  .next (
    let s := loadIr 0x01 s
    if trst then s
    else setBrd (fun b => { b with tdo := (List.range 32).map (fun i => (0x1A250E4F : Nat).testBit i) }) s)

/-- SAMPLE/PRELOAD: the levels of the contacts leave, the cells shifted in are held. -/
def execSamplePreload (pins cells : List Bool) (s : State) : Host.Outcome State Fault Refusal :=
  .next (setBrd (fun b => { b with tdo := pins, preload := cells }) (loadIr 0x02 s))

/-- EXTEST: the held cells drive the contacts, their levels leave, new cells are held. -/
def execExtest (pins cells : List Bool) (s : State) : Host.Outcome State Fault Refusal :=
  .next (setBrd (fun b => { b with tdo := pins, preload := if cells.isEmpty then b.preload else cells }) (loadIr 0x03 s))

/-- The bits of a byte string, least significant first. -/
def bitsOf (bs : List Byte) : List Bool := bs.flatMap (fun b => (List.range 8).map (fun i => b.toNat.testBit i))

/-- DBGUNLOCK (R500), offered in mode 1 only, in BOOT_FAIL too (R485): the challenge leaves; key and signature are
checked. A failed exchange raises DBG_DENIED and the next challenge is offered 1 s later. -/
def execDbgunlock (key sig : List Byte) (s : State) : Host.Outcome State Fault Refusal :=
  .next (
    if !s.sideband ∨ s.jtagMode ≠ 1 ∨ s.time < s.mgt.unlockAt then s
    else
      let ch := leBytes 16 (Config.challenge s.mgt.challenges).toNat
      let s := setBrd (fun b => { b with tdo := bitsOf ch })
        (loadIr 0x10 (setMgt (fun m => { m with challenges := m.challenges + 1 }) s))
      if leNat (sha256 key) = s.mgt.fuses.dbgHash.toNat ∧
          slhVerify key (ch ++ leBytes 16 s.mgt.fuses.id.toNat) sig = true then
        setMgt (fun m => { m with unlocked := true }) s
      else raise pgMgt .dbgDenied [] none (setMgt (fun m => { m with unlockAt := s.time + 1000000000 }) s))

/-! ## Watchdog, flash, I3C addressing (R502, R503, R530) -/

/-- MGT_WATCHDOG (R502). -/
def execMgtWatchdog (s : State) : Host.Outcome State Fault Refusal :=
  .next (served (fun s => raise pgMgt .mgtWatchdogErr [] none s) s)

/-- A write of `MGT_FLASH` (R485, R503): in BOOT_FAIL only; nothing after the last byte that the new
image's header announces. -/
def flashWrite (v : Word) (s : State) : State :=
  let f := s.mgt.flashNew
  let full := decide (f.length ≥ 64) && decide (f.length ≥ 64 + min 0x800000 (leNat ((f.drop 8).take 4)))
  if s.mgt.boot ≠ 3 ∨ full then s
  else setMgt (fun m => { m with flashNew := f ++ leBytes 8 v.toNat }) s

/-- MGT_FLASH_WRITE (R503). -/
def execMgtFlashWrite (v : Word) (s : State) : Host.Outcome State Fault Refusal := .next (flashWrite v s)

/-- SETDASA (R530): in I3C mode the device takes a dynamic address at its static one. -/
def execSetdasa (sa da : Nat) (s : State) : Host.Outcome State Fault Refusal :=
  .next (if s.sideband ∧ s.brd.sbsel ∧ sa = 0x4C + s.brd.sbaddr then setBrd (fun b => { b with da := some (da % 128) }) s
    else s)

/-- ENTDAA (R530): a device without a dynamic address takes the one assigned. -/
def execEntdaa (da : Nat) (s : State) : Host.Outcome State Fault Refusal :=
  .next (if s.sideband ∧ s.brd.sbsel ∧ s.brd.da.isNone then setBrd (fun b => { b with da := some (da % 128) }) s else s)

/-! ## Board events (R410, R413, R534) -/

/-- A port that has lock loses it with its reference clock and goes DOWN with cause 3 (R534). -/
def loseLock (p : Nat) (s : State) : State := if (s.port p).st.locked then goDown p 3 .down s else s

/-- REFERENCE_CLOCK_LOST (R534): 0 to 3 the CXL clock of an edge die, 4 to 7 its Laniem clock, 8 the
memory clock. -/
def execReferenceClockLost (clk : Nat) (s : State) : Host.Outcome State Fault Refusal :=
  .next (
    if clk ≥ 9 then s
    else
      let s := setBrd (fun b => { b with lostClk := b.lostClk.put clk true false }) s
      if clk < 4 then linkLost clk 1 (linkLost clk 0 s)
      else if clk < 8 then loseLock (2 * (clk - 4) + 1) (loseLock (2 * (clk - 4)) s)
      else if s.brd.pwren then raise pgPwr .refclkLoss [(4, clk)] none s else s)

/-- REFRESH_RATE_CHANGE (R413, R414, R420): `u` 0 to 19 a stack, 32 to 47 a channel, its new rate and
the temperature that requires it. -/
def execRefreshRateChange (u : Nat) (need : RefreshNeed) (s : State) : Host.Outcome State Fault Refusal :=
  .next (
    if u < 20 then setHbm u { s.hbm u with refrate := min need.rate 2, temp := need.temp.toNat } s
    else if 32 ≤ u ∧ u < 48 then setDdr (u - 32) { s.ddr (u - 32) with refrate := min need.rate 2, temp := need.temp.toNat } s
    else s)

/-- FAILED_CHANNEL (R410): the channel's range ceases to be usable. -/
def execFailedChannel (ch : Fin 16) (s : State) : Host.Outcome State Fault Refusal :=
  .next (setDdr ch.val { s.ddr ch.val with failed := true } s)

end Sys2Proof.Machine
end

