-- ==== Sys2Proof/Machine/Pages.lean ====
section
/-! DEFINITION.
The register pages (R505 to R525): which pages there are, the common header, what every register reads
(R61, R62, R64, R91, R130, R164, R207, R245, R269, R310, R334, R368, R369, R393, R420, R451, R476,
R477, R503) and what a write of it does. -/

namespace Sys2Proof.Machine

/-! ## Pages (R512, R514 to R517, R547) -/

/-- The kind of the page at an index; none: it names no page. -/
def State.pageKind (s : State) (pg : Nat) : Option Kind :=
  if pg = 0 then some .mgt
  else if pg = 1 then some .fus
  else if pg = 2 then some .att
  else if pg = 3 then some .err
  else if pg = 4 then some .pwr
  else if pg = 5 then some .cfg
  else if 0x10 ≤ pg ∧ pg < 0x18 then some .ctx
  else if 0x20 ≤ pg ∧ pg < 0x3C then some .mov
  else if 0x40 ≤ pg ∧ pg < 0x54 then some .hbm
  else if 0x60 ≤ pg ∧ pg < 0x70 then some .ddr
  else if 0x70 ≤ pg ∧ pg < 0x74 then some .cxl
  else if 0x80 ≤ pg ∧ pg < 0x88 then some .lnm
  else if 0x8000 ≤ pg ∧ s.present ((pg - 0x8000) / 4) then
    some (match (pg - 0x8000) % 4 with
      | 0 => .tct
      | 1 => .tsp
      | 2 => .tsc
      | _ => .ten)
  else none

/-- The tile of a tile page. -/
def pageTid (pg : Nat) : Nat := (pg - 0x8000) / 4

/-- Instance number of a page: by R512 on device pages, the die code on tile pages. -/
def pageInst (pg : Nat) : Nat :=
  if pg < 0x10 then 0
  else if pg < 0x20 then pg - 0x10
  else if pg < 0x40 then pg - 0x20
  else if pg < 0x60 then pg - 0x40
  else if pg < 0x70 then pg - 0x60
  else if pg < 0x80 then pg - 0x70
  else if pg < 0x8000 then pg - 0x80
  else tidDie (pageTid pg)

/-- Block kind codes (R512). -/
def Kind.code : Kind → Nat
  | .mgt => 0x0001
  | .fus => 0x0002
  | .att => 0x0003
  | .err => 0x0004
  | .pwr => 0x0005
  | .cfg => 0x0006
  | .ctx => 0x0010
  | .mov => 0x0020
  | .hbm => 0x0030
  | .ddr => 0x0031
  | .cxl => 0x0032
  | .lnm => 0x0040
  | .tct => 0x0080
  | .tsp => 0x0081
  | .tsc => 0x0082
  | .ten => 0x0083

def Kind.onTile : Kind → Bool
  | .tct => true
  | .tsp => true
  | .tsc => true
  | .ten => true
  | _ => false

/-- `PG_ID` (R514). -/
def pageId (k : Kind) (pg : Nat) : Word :=
  packW [(16, k.code), (8, pageInst pg), (8, 1), (16, 1), (13, if k.onTile then pageTid pg else 0)]

/-- `PG_CAP` (R515). -/
def Kind.cap : Kind → Word
  | .tct => 7
  | .tsp => 3
  | .tsc => 3
  | .ten => 1
  | .lnm => 2
  | .mov => 4
  | _ => 0

/-- Some link of CXL port p is ONLINE. -/
def State.cxlOn (s : State) (p : Nat) : Bool := (s.cxl (2 * p)).st == .online || (s.cxl (2 * p + 1)).st == .online

/-- `PG_CTRL.EN` (R547). -/
def State.pageEn (s : State) (k : Kind) (pg : Nat) : Bool :=
  let i := pageInst pg
  match k with
  | .mgt => s.mgt.boot != 3
  | .mov =>
    if i < 20 then (s.hbm i).trained
    else if i < 24 then (List.range 4).any (fun j => (s.ddr (4 * (i - 20) + j)).trained)
    else s.cxlOn (i - 24)
  | .hbm => (s.hbm i).trained
  | .ddr => (s.ddr i).trained
  | .cxl => s.cxlOn i
  | .lnm => (s.port i).st == .up
  | .tct => (s.tile (pageTid pg)).clk.pstate != .off
  | .tsp => (s.tile (pageTid pg)).clk.pstate != .off
  | .tsc => (s.tile (pageTid pg)).clk.pstate != .off
  | .ten => (s.tile (pageTid pg)).clk.pstate != .off
  | _ => true

/-- `PG_STAT.STATE` (R517). -/
def State.pageState (s : State) (k : Kind) (pg : Nat) : Nat :=
  let i := pageInst pg
  match k with
  | .mgt => s.mgt.boot
  | .pwr => s.pwr.dstate
  | .ctx => (s.ctx i).st.toNat
  | .cfg => pack ((List.range 8).map (fun c => (1, b2n ((s.pour c).st != .idle))))
  | .mov => if (s.mover i).held = 0 then 0 else 1
  | .hbm => b2n (s.hbm i).trained
  | .ddr => b2n (s.ddr i).trained
  | .cxl => (s.cxl (2 * i)).st.toNat + 16 * (s.cxl (2 * i + 1)).st.toNat
  | .lnm => (s.port i).st.toNat
  | .tct => (s.tile (pageTid pg)).clk.pstate.toNat
  | _ => 0

/-- A header register or a statistic reads (R513 to R522). -/
def State.readHdr (s : State) (k : Kind) (pg off : Nat) : Word :=
  let h := s.hdr pg
  match off with
  | 0x000 => pageId k pg
  | 0x008 => k.cap
  | 0x010 => packW [(16, h.req), (16, h.grant), (16, 1)]
  | 0x018 => packW [(1, b2n (s.pageEn k pg)), (1, b2n h.halt)]
  | 0x020 => packW [(8, s.pageState k pg),
      (1, b2n (h.err &&& ~~~(h.mask &&& BitVec.ofNat 64 k.corrected) != 0))]
  | 0x028 => h.err
  | 0x030 => h.mask
  | 0x038 => h.info
  | _ => if k.onTile && (s.tile (pageTid pg)).clk.pstate == .off then 0 else BitVec.ofNat 64 (s.stats.get (rkey pg off) 0)

/-! ## Reading the tile pages -/

/-- What steering unit u of the live plane waits for: D0, D1, a condition, room (R207). -/
def Tile.steerWait (x : Tile) (u : Nat) : List Bool :=
  let q := x.seqr x.cfg.plane u
  let st := x.steerSt x.cfg.plane u q.state
  let head (i : Nat) := x.portHead (steerPort u i)
  let data := decide (1 ≤ st.op ∧ st.op ≤ 4)
  let dec : Option Bool :=
    if q.opened then some q.sel
    else if st.op = 1 then some false
    else match q.cond with
      | some c => some c
      | none => (head 2).map (condVal x u st)
  let (d, out) := steerPath st.op (dec.getD false)
  let waitD (i : Nat) := data && (st.op != 3 || dec.isSome) && d == i && (head i).isNone
  let full := match out with
    | some o => !x.portRoom (qPort x u o)
    | none => false
  if fld (x.steerCtl u) 0 2 = 0 then [false, false, false, false]
  else [waitD 0, waitD 1,
    ((data && st.op != 1) || st.op == 6) && !q.opened && q.cond.isNone && (head 2).isNone,
    if st.op = 5 then !x.portRoom (portNo .ctl (5 + u)) else data && dec.isSome && (head d).isSome && full]

/-- `TCT_STEERu` (R207). -/
def Tile.steerReg (x : Tile) (u : Nat) : Word :=
  let q := x.seqr x.cfg.plane u
  packW ([(4, q.state), (16, q.remain), (1, b2n q.opened), (1, b2n (q.opened && q.sel))] ++
    (x.steerWait u).map (fun b => (1, b2n b)))

/-- `TCT_PORTSTAT` for the port that `TCT_PORTSEL` selects (R207). -/
def Tile.portReg (x : Tile) (key p : Nat) : Word :=
  if p < 34 then
    let q := x.port p
    let net := x.portNet p
    match q.fifo.head? with
    | none => packW [(4, q.fifo.length), (13, q.queue.length), (1, b2n (!x.portRoom p))]
    | some k => packW [(4, q.fifo.length), (13, q.queue.length), (1, b2n (!x.portRoom p)),
        (5, if net = .vec then k.slot % 8 + 8 * b2n k.head + 16 * b2n k.last else 0), (9, 0),
        (32, if net = .ctl then k.data.toNat % 32 else k.data.toNat)]
  else if p < 38 then
    let d := x.landDesc (p - 34)
    let n := (x.counter d.cnt).value
    packW [(4, 0), (13, min n d.size), (1, b2n (decide (n ≥ d.size)))]
  else Config.freeRead key p

/-- `TCT_NESTIDXA` and B for a nest of a plane (R269). -/
def Tile.nestIdx (x : Tile) (p n : Nat) (b : Bool) : Word :=
  let k := x.nest p n
  if b then packW [(16, k.ix 4), (16, k.ix 5), (16, k.runs), (3, (x.nestState p n).1), (3, (x.nestState p n).2)]
  else packW [(16, k.ix 0), (16, k.ix 1), (16, k.ix 2), (16, k.ix 3)]

/-- `TCT_CLK` (R476): PER, 0 while the tile is in OFF, and FREQ, F of its half. -/
def State.tctClk (s : State) (t : Nat) : Word :=
  let x := s.tile t
  packW [(32, if x.clk.pstate = .off then 0 else x.clk.per), (10, (s.half (halfOf t)).freq)]

/-- A register of the TCT page (R61, R207, R269, R476). -/
def State.readTct (s : State) (t off : Nat) : Word :=
  let x := s.tile t
  if off = 0x100 then s.tctState t
  else if off = 0x180 then s.tctClk t
  else if x.clk.pstate = .off then 0
  else if (cregMask 0 off).isSome then x.reg 0 off
  else if off = 0x130 then x.steerReg 0
  else if off = 0x138 then x.steerReg 1
  else if off = 0x148 ∨ off = 0x158 then x.own 0 off
  else if off = 0x150 then x.portReg (rkey (pgTile t 0) off) (fld (x.own 0 0x148) 0 6)
  else if off = 0x160 ∨ off = 0x168 then x.nestIdx (fld (x.own 0 0x158) 3 2) (fld (x.own 0 0x158) 0 3) (off == 0x168)
  else if off = 0x170 then x.fault.a
  else if off = 0x178 then x.fault.b
  else 0

/-- A register of the TSP page (R42, R64). -/
def Tile.readTsp (x : Tile) (off : Nat) : Word :=
  if (cregMask 1 off).isSome then x.reg 1 off
  else if off = 0x140 ∨ off = 0x148 ∨ off = 0x150 ∨ off = 0x158 then
    let l := x.hqueue ((off - 0x140) / 8)
    packW [(5, l.length), (27, 0), (32, (l.headD 0).toNat)]
  else 0

/-- `TSC_CHHEADi` (R245): the header at RPTR of a RECV record's ring, or the head handle. -/
def Tile.chHead (x : Tile) (r : Nat) : Word :=
  let w := x.chrec r
  let k := x.ch r
  if recKind w = 3 then
    if k.credit = 0 then 0 else BitVec.ofNat 64 (x.rdN (((x.win (recWin w)).base + k.ptr) * 64) 8)
  else if recKind w = 0 then 0
  else BitVec.ofNat 64 ((x.hqueue (recHq w)).headD 0).toNat

/-- `TSC_WSTAT` (R245). -/
def Tile.waiterReg (x : Tile) : Word :=
  let v := x.own 2 0x2C8
  match (x.counter (fld v 0 4)).waiters.getD (fld v 4 2) none with
  | some w => packW [(1, 1), (13, w.src), (3, w.ctx), (24, w.thresh), (8, w.epoch), (4, w.rcnt), (1, b2n w.lostOk),
      (1, b2n w.statEn)]
  | none => 0

/-- `TSC_CGCSTAT` (R368). -/
def Tile.coordStat (x : Tile) : Word :=
  let k := x.cg.coord
  packW [(2, k.st), (8, k.round), (11, x.staged), (1, b2n k.go), (2, k.last), (32, k.commits), (8, k.aborts)]

/-- `TSC_CGPSTATi` (R368). -/
def Tile.partStat (x : Tile) (r : Nat) : Word :=
  let k := x.part r
  packW [(3, k.st), (8, k.round), (32, k.swaps)]

/-- A register of the TSC page (R245, R368). -/
def Tile.readTsc (x : Tile) (off : Nat) : Word :=
  let i := (off - 0x100) % 0x80 / 8
  if 0x100 ≤ off ∧ off < 0x180 then x.cntReg i
  else if (cregMask 2 off).isSome then x.reg 2 off
  else if 0x240 ≤ off ∧ off < 0x280 then x.chStat ((off - 0x240) / 8)
  else if 0x280 ≤ off ∧ off < 0x2C0 then x.chHead ((off - 0x280) / 8)
  else if off = 0x2C8 ∨ off = 0x300 ∨ (0x320 ≤ off ∧ off < 0x340) then x.own 2 off
  else if off = 0x2D0 then x.waiterReg
  else if off = 0x308 then x.coordStat
  else if 0x340 ≤ off ∧ off < 0x360 then x.partStat ((off - 0x340) / 8)
  else 0

/-- `TEN_TBLDATA` (R91): the entry that `TEN_TBLIDX` selects. The shadow set of a tile that is being
poured is not management's to read (R59). -/
def Tile.readTbl (x : Tile) (key : Nat) : Word :=
  let v := x.reg 3 0x130
  let (k, tb, e) := tblSel v
  if k = 3 ∨ (bit v 13 ∧ x.cfg.pour ≠ .idle) then Config.freeRead key (fld v 0 14)
  else (if bit v 13 then x.cfg.tblShadow else x.cfg.tblLive).get (k * 4096 + tb * 256 + e) 0

/-- `TEN_MTXSTAT` (R130). While no operation is in progress DESC, SLOT and KSTEP keep their last values (DESIGN
CHOICE, assumption 104). -/
def Tile.mtxStat (x : Tile) : Word :=
  let m := x.mtx
  let busy := !(m.issued.isEmpty && m.bufs.isEmpty && m.rows.isEmpty && m.drains.isEmpty) ||
    m.slots.any (fun (_, z) => z.opened)
  -- R123: a combine, or the loading of records, waits for the drain of its slot
  let load := m.issued.any (fun q => q.first && q.d.accIn == 2 && m.drainPending q)
  let drain := load || (match m.rows with | r :: _ => m.drainPending r.step | [] => false)
  packW [(1, b2n busy), (4, m.desc), (4, m.slot),
    (16, satTo 0xFFFF (x.slot ((slotCover m.mode m.slot).headD 0)).kstep), (3, if busy then m.pass else 0),
    (1, b2n (!m.issued.isEmpty && !load)), (1, b2n drain)]

/-- The vector firing waits for a scalar word, or for a write that its next group meets (R154). -/
def Tile.vecWaits (x : Tile) : Bool :=
  match x.vec.fire with
  | none => false
  | some f => match f.wordNeeded with
    | some _ => x.fab.vecWord.isNone
    | none =>
      let d := f.d
      let dst := runLines d.fd f.addrC f.nextRead (min f.len (f.nextRead + d.group))
      x.vec.tail.any (fun g => g.pendLines.any (fun l => f.readLines.contains l || dst.contains l))

/-- `TEN_VECSTAT` (R164); DESC keeps its last value while no firing is in progress (DESIGN CHOICE, log 104). -/
def Tile.vecStat (x : Tile) : Word :=
  packW [(1, b2n (x.vec.fire.isSome || !x.vec.tail.isEmpty)), (6, x.vec.desc),
    (14, match x.vec.fire with | some f => f.nextRead | none => 0), (1, b2n (!x.vec.held.isEmpty)), (1, b2n x.vecWaits)]

/-- A register of the TEN page (R62, R91, R130, R164). -/
def Tile.readTen (x : Tile) (key off : Nat) : Word :=
  if off = 0x100 then BitVec.ofNat 64 x.flags.toNat
  else if off = 0x138 then x.readTbl key
  else if (cregMask 3 off).isSome then x.reg 3 off
  else if 0x110 ≤ off ∧ off < 0x130 then packW [(32, x.gens.get ((off - 0x110) / 8) 1)]
  else if off = 0x160 then x.mtxStat
  else if off = 0x168 then x.vecStat
  else if off = 0x1B0 then packW [(1, 0), (4, x.row.desc), (2, 0), (11, x.row.entry)]
  else if off = 0x1B8 ∨ off = 0x1C0 then
    packW ((List.range 4).flatMap (fun i => [(14, x.vlenOf ((off - 0x1B8) / 2 + i)), (2, 0)]))
  else 0

/-- Register `off` of page k of a tile (R29, R511). -/
def State.readTile (s : State) (t k off : Nat) : Word :=
  let x := s.tile t
  let pg := pgTile t k
  if off < 0x100 then s.readHdr (match k with | 0 => .tct | 1 => .tsp | 2 => .tsc | _ => .ten) pg off
  else if k = 0 then s.readTct t off
  else if x.clk.pstate = .off then 0
  else if k = 1 then x.readTsp off
  else if k = 2 then x.readTsc off
  else x.readTen (rkey pg off) off

/-- What reading a register of a tile changes: ENTRY of `TEN_TBLIDX` moves on (R91). -/
def readTileThen (t k off : Nat) (s : State) : State :=
  if k = 3 ∧ off = 0x138 ∧ (s.tile t).clk.pstate ≠ .off then
    let v := (s.tile t).reg 3 0x130
    if bit v 12 then s.onTile t (fun x => x.setReg 3 0x130 (setFld v 4 8 (fld v 4 8 + 1))) else s
  else s

/-! ## Reading the device pages -/

/-- `PWR_DSTAT` (R477). -/
def State.dstat (s : State) : Word :=
  let p := s.pwr
  let ovr := p.cur != 0 || p.vlt != 0 || (List.range 40).any (fun h => (s.half h).hot != 0)
  packW [(2, p.dstate), (1, b2n p.entering.isSome), (13, p.vin), (11, p.iin), (13, p.pin), (1, b2n ovr),
    (16, satTo 0xFFFF p.ovrDl)]

/-- `MOV_STAT` (R420, R547). Between commands no piece is in progress. -/
def State.movStat (s : State) (m : Nat) : Word :=
  let v := s.mover m
  packW [(9, v.held), (1, 0), (11, v.grants.length),
    (1, b2n (v.queue.any (fun d => d.writes.any (fun w => w.frozenAt.isSome))))]

/-- `DDR_STAT` (R420). -/
def State.ddrStat (s : State) (c : Nat) : Word :=
  let d := s.ddr c
  packW [(1, b2n d.found), (1, b2n d.trained), (8, d.size), (2, d.speed), (1, b2n (d.sr || s.stop.fatal)), (8, d.temp),
    (1, b2n (s.mem.fourWay.get (c / 4) false))]

/-- `MGT_STAT` (R503). -/
def Mgt.stat (m : Mgt) : Word :=
  packW [(2, m.boot), (1, b2n m.cold), (2, m.cause), (1, b2n m.selB), (1, b2n m.saving.isSome), (32, m.saves),
    (1, b2n m.debugged)]

/-- Eight bytes of a byte string from an offset, zero beyond the end (R503). -/
def dataAt (bs : List Byte) (off : Nat) : Word := BitVec.ofNat 64 (leNat ((bs.drop off).take 8))

/-- Word w of a 256-bit value. -/
def word256 (v : BitVec 256) (w : Nat) : Word := BitVec.ofNat 64 (v.toNat / 2 ^ (64 * w))

/-- A register of the MGT page (R503). -/
def State.readMgt (s : State) (off : Nat) : Word :=
  let d := fld (s.devReg pgMgt 0x110) 0 5
  let cols (lo n : Nat) : List (Nat × Nat) := (List.range' lo n).map (fun i => (5, s.physCol d i))
  match off with
  | 0x100 => s.mgt.stat
  | 0x110 => s.devReg pgMgt 0x110
  | 0x118 => if d < 20 then packW (cols 0 12) else Config.freeRead (rkey pgMgt off) d
  | 0x120 => if d < 20 then packW (cols 12 4 ++ [(5, s.cols d), (2, s.spareOf d)]) else Config.freeRead (rkey pgMgt off) d
  | 0x128 => BitVec.ofNat 64 s.mgt.fuses.id.toNat
  | 0x130 => BitVec.ofNat 64 (s.mgt.fuses.id.toNat / 2 ^ 64)
  | _ => 0

/-- A register of the FUS page (R503). -/
def State.readFus (s : State) (off : Nat) : Word :=
  match off with
  | 0x100 => BitVec.ofNat 64 (s.mgt.fuses.policy.toNat % 32)
  | 0x108 => BitVec.ofNat 64 s.mgt.fuses.keystat
  | 0x110 => s.devReg pgFus 0x110
  | 0x140 => packW [(1, b2n s.mgt.fuseOp.isSome), (2, s.mgt.fuseResult)]
  | 0x148 => word256 s.mgt.fuses.dbgHash 0
  | 0x150 => word256 s.mgt.fuses.dbgHash 1
  | 0x158 => word256 s.mgt.fuses.dbgHash 2
  | 0x160 => word256 s.mgt.fuses.dbgHash 3
  | _ => 0

/-- `ATT_STAT` (R503). -/
def Mgt.attStat (m : Mgt) : Word :=
  match m.report with
  | some r => packW [(2, if m.regBusy then 1 else 2), (32, if m.regBusy then 0 else r.seq)]
  | none => packW [(2, if m.regBusy then 1 else 0)]

/-- A register of the ATT page (R503). -/
def State.readAtt (s : State) (off : Nat) : Word :=
  let sel := s.devReg pgAtt 0x100
  let rd := s.devReg pgAtt 0x170
  match off with
  | 0x100 => sel
  | 0x108 => word256 (s.mgt.slots.get (fld sel 0 4) 0) (fld sel 4 2)
  | 0x140 => s.devReg pgAtt off
  | 0x148 => s.devReg pgAtt off
  | 0x150 => s.devReg pgAtt off
  | 0x158 => s.devReg pgAtt off
  | 0x168 => s.mgt.attStat
  | 0x170 => rd
  | 0x178 => dataAt (if bit rd 17 then s.mgt.certs else match s.mgt.report with
      | some r => r.body ++ r.sig
      | none => []) (fld rd 0 17)
  | 0x180 => packW [(32, s.mgt.certs.length)]
  | _ => 0

def LogEntry.word (e : LogEntry) (w : Nat) : Word :=
  match w with
  | 0 => e.w0
  | 1 => e.w1
  | 2 => e.w2
  | _ => e.w3

/-- A register of the ERR page (R369). -/
def State.readErr (s : State) (off : Nat) : Word :=
  let g := s.log
  if off = 0x100 then s.devReg pgErr 0x100 ||| (if g.firstV then 0x100 else 0)
  else if off = 0x108 then packW [(10, g.wr), (6, 0), (10, g.rd), (11, g.unread)]
  else if off = 0x110 ∨ off = 0x118 then s.devReg pgErr off
  else if 0x120 ≤ off ∧ off < 0x140 then (g.ring.get (fld (s.devReg pgErr 0x118) 0 10) {}).word ((off - 0x120) / 8)
  else if 0x140 ≤ off ∧ off < 0x160 then g.first.word ((off - 0x140) / 8)
  else if 0x160 ≤ off ∧ off < 0x180 then g.last.word ((off - 0x160) / 8)
  else 0

/-- A register of the PWR page (R477). -/
def State.readPwr (s : State) (off : Nat) : Word :=
  if off = 0x110 then 0
  else if off = 0x118 then s.dstat
  else if off = 0x128 then BitVec.ofNat 64 s.elapsed
  else if off = 0x148 then BitVec.ofNat 64 s.pwr.eovh
  else if 0x400 ≤ off ∧ off < 0x540 then s.halfStat ((off - 0x400) / 8)
  else if 0x600 ≤ off ∧ off < 0x740 then BitVec.ofNat 64 (s.half ((off - 0x600) / 8)).energy
  else s.devReg pgPwr off

/-- A register of the CFG page (R310). -/
def State.readCfg (s : State) (off : Nat) : Word :=
  if 0x100 ≤ off ∧ off < 0x140 then s.pourReg ((off - 0x100) / 8)
  else s.devReg pgCfg off

/-- A register of a CTX page (R334, R393). -/
def State.readCtx (s : State) (c off : Nat) : Word :=
  if off = 0x100 then s.ctxState c
  else if off = 0x118 then packW [(32, (s.ctx c).lastF), (1, b2n !(s.ctx c).armedAt.isEmpty)]
  else if off = 0x350 then s.gxMaskWord c (fld (s.devReg (pgCtx c) 0x348) 0 12)
  else if 0x400 ≤ off ∧ off < 0x600 ∧ off % 32 = 0x18 then s.gxstatRead c ((off - 0x400) / 32)
  else s.devReg (pgCtx c) off

/-- A register of a MOV page (R420). -/
def State.readMov (s : State) (m off : Nat) : Word :=
  let head := ((s.mover m).queue.filter (fun d => !d.done)).head?
  match off with
  | 0x100 => s.movStat m
  | 0x108 => match head with | some d => d.w 0 | none => 0
  | 0x110 => match head with | some d => d.w 1 | none => 0
  | _ => 0

/-- A register of an LNM page (R451). -/
def State.readLnm (s : State) (p off : Nat) : Word :=
  match off with
  | 0x108 => (s.port p).stat
  | 0x110 => BitVec.ofNat 64 (s.port p).lastId.toNat
  | 0x118 => BitVec.ofNat 64 ((s.port p).lastId.toNat / 2 ^ 64)
  | _ => s.devReg (pgLnm p) off

/-- Register `off` of device page `pg` of kind k. -/
def State.readDev (s : State) (k : Kind) (pg off : Nat) : Word :=
  let i := pageInst pg
  if off < 0x100 then s.readHdr k pg off
  else match k with
  | .mgt => s.readMgt off
  | .fus => s.readFus off
  | .att => s.readAtt off
  | .err => s.readErr off
  | .pwr => s.readPwr off
  | .cfg => s.readCfg off
  | .ctx => s.readCtx i off
  | .mov => s.readMov i off
  | .hbm => if off = 0x100 then
      let d := s.hbm i
      packW [(1, b2n d.trained), (8, d.temp), (2, d.refrate), (1, b2n (d.sr || s.stop.fatal))]
    else s.devReg pg off
  | .ddr => if off = 0x100 then s.ddrStat i else s.devReg pg off
  | .cxl => if off = 0x100 then (s.cxl (2 * i)).lstat else if off = 0x108 then (s.cxl (2 * i + 1)).lstat
    else s.devReg pg off
  | .lnm => s.readLnm i off
  | _ => 0

/-- What reading a register of a device page changes: the selectors of `CTX_GXMDATA` and `ATT_DATA`
move on (R393, R503). -/
def readDevThen (k : Kind) (pg off : Nat) (s : State) : State :=
  if k = .ctx ∧ off = 0x350 then stepGxSel (pageInst pg) s
  else if k = .att ∧ off = 0x178 ∧ bit (s.devReg pgAtt 0x170) 18 then
    let v := s.devReg pgAtt 0x170
    s.setDevReg pgAtt 0x170 (setFld v 0 17 (fld v 0 17 + 8))
  else s

/-! ## Writing -/

/-- `PG_CTRL.HALT` of a TCT page stops the tile's clock, of a MOV page the start of new pieces (R501,
R516); on other pages the write is ignored. -/
def writeHalt (k : Kind) (pg : Nat) (on : Bool) (s : State) : State :=
  match k with
  | .tct =>
    let s := s.onHdr pg (fun h => { h with halt := on })
    let fatal := s.stop.fatal
    let s := s.onTile (pageTid pg) (fun x => { x with cfg := { x.cfg with halted := on || x.cfg.frozen || fatal } })
    if on then markDebugged s else s
  | .mov => s.onHdr pg (fun h => { h with halt := on })
  | _ => s

/-- A write of `PG_VER`: REQ sets GRANT (R515). Answers whether it was refused. -/
def writeVer (pg : Nat) (v : Word) (s : State) : Bool × State :=
  let r := fld v 0 16
  if r = 0 then (true, s) else (false, s.onHdr pg (fun h => { h with req := r, grant := min r 1 }))

/-- A write of a header register (R513 to R519). Answers whether it was refused. -/
def writeHdr (k : Kind) (pg off : Nat) (v : Word) (s : State) : Bool × State :=
  match off with
  | 0x010 => writeVer pg v s
  | 0x018 =>
    let s := writeHalt k pg (bit v 1) s
    (false, if bit v 2 then startSave s else s)
  | 0x028 => (false, s.onHdr pg (Hdr.clear s.time v))
  | 0x030 => (false, s.onHdr pg (fun h => { h with mask := v }))
  | _ => (false, s)

/-- A write of a TSP register (R40, R43, R64). -/
def writeTsp (t off : Nat) (v : Word) (s : State) : State :=
  if off = 0x100 then s.onTile t (fun x => x.setReg 1 0x100 (setFld x.spctrl 18 1 (b2n (bit v 18))))
  else if 0x180 ≤ off ∧ off < 0x200 then writeWin t ((off - 0x180) / 8) v s
  else s

/-- A register of the live set takes a management write, reserved bits apart (R10, R510). -/
def writeLive (t k off : Nat) (v : Word) (s : State) : State :=
  s.onTile t (fun x => x.setReg k off (v &&& BitVec.ofNat 64 ((cregMask k off).getD 0)))

/-- A write of a TCT register (R207, R269). -/
def writeTct (t off : Nat) (v : Word) (s : State) : State :=
  if (cregMask 0 off).isSome then writeLive t 0 off v s
  else if off = 0x148 then s.onTile t (fun x => x.setOwn 0 off (v &&& 0x3F))
  else if off = 0x158 then s.onTile t (fun x => x.setOwn 0 off (v &&& 0x1F))
  else if off = 0x178 ∧ bit v 47 then s.onTile t (fun x =>
    if x.fault.at_ = some s.time then x else { x with fault := { x.fault with b := setFld x.fault.b 47 1 0 } })
  else s

/-- A write of a TSC register (R223, R242, R245, R349, R368). KIND = 3 of a record is set only by R224. -/
def writeTsc (t off : Nat) (v : Word) (s : State) : State :=
  if 0x100 ≤ off ∧ off < 0x180 then actOnCounter t ((off - 0x100) / 8) v s
  else if 0x200 ≤ off ∧ off < 0x240 ∧ fld v 0 2 = 3 then
    writeLive t 2 off (setFld v 0 2 (fld ((s.tile t).reg 2 off) 0 2)) s
  else if (cregMask 2 off).isSome then writeLive t 2 off v s
  else if off = 0x2C0 then writeChcmd t (fld v 0 3) (fld v 3 2) s
  else if off = 0x2C8 then s.onTile t (fun x => x.setOwn 2 off (v &&& 0x3F))
  else if off = 0x300 then cgcoordWrite t v s
  else if off = 0x310 then writeCgcmd t v s
  else if 0x320 ≤ off ∧ off < 0x340 then writeCgpart t ((off - 0x320) / 8) v s
  else s

/-- A write of a TEN register (R62, R91, R164); `TEN_TBLDATA` takes the configuration engine's writes
only (R59, R510). -/
def writeTen (t off : Nat) (v : Word) (s : State) : State :=
  if off = 0x100 then s.onTile t (fun x => x.clearFlags v)
  else if off = 0x138 then raise (pgTile t 0) .cfgAccess [] none s
  else if (cregMask 3 off).isSome then writeLive t 3 off v s
  else s

/-- A write of register `off` of page k of a tile that is clocked. Answers whether it was refused. -/
def writeTile (t k off : Nat) (v : Word) (s : State) : Bool × State :=
  if off < 0x100 then
    writeHdr (match k with | 0 => .tct | 1 => .tsp | 2 => .tsc | _ => .ten) (pgTile t k) off v s
  else if (s.tile t).clk.pstate = .off then (true, s)
  else (false, match k with
    | 0 => writeTct t off v s
    | 1 => writeTsp t off v s
    | 2 => writeTsc t off v s
    | _ => writeTen t off v s)

/-- The bits that a plain write of a device register stores (the register tables). -/
def devMask (k : Kind) (pg off : Nat) : Word :=
  match k with
  | .mgt => if off = 0x110 then 0x1F else 0
  | .fus => if off = 0x110 then 0x1FFF else if 0x118 ≤ off ∧ off ≤ 0x130 then BitVec.allOnes 64 else 0
  | .att =>
    if off = 0x100 then 0x3F
    else if 0x110 ≤ off ∧ off ≤ 0x128 ∨ 0x140 ≤ off ∧ off ≤ 0x158 then BitVec.allOnes 64
    else if off = 0x170 then 0x7FFFF
    else 0
  | .err => if off = 0x110 then 0xFFFFFFFF else if off = 0x118 then 0x3FF else 0
  | .pwr => if off = 0x100 ∨ off = 0x108 ∨ off = 0x140 then keptMask pg off
    else if off = 0x130 ∨ off = 0x138 then BitVec.allOnes 64 else 0
  | .cfg => keptMask pg off
  | .ctx =>
    if 0x1C0 ≤ off ∧ off < 0x2C0 then 0xFFFFFFFFF
    else if off = 0x340 then BitVec.allOnes 64
    else if off = 0x348 then 0x1FFF
    else if 0x400 ≤ off ∧ off < 0x600 then BitVec.allOnes 64
    else keptMask pg off
  | .lnm => if off = 0x100 then 0 else keptMask pg off
  | _ => keptMask pg off

/-- A plain write of a device register. -/
def storeDev (k : Kind) (pg off : Nat) (v : Word) (s : State) : State :=
  let m := devMask k pg off
  if m = 0 then s else s.setDevReg pg off (v &&& m)

/-- A write of a PWR register (R468, R475, R477). -/
def writePwr (off : Nat) (v : Word) (s : State) : State :=
  if off = 0x110 then
    (match fld v 0 2 with
     | 1 => wakeEvent 9 {} s
     | 2 => askState 1 s
     | 3 => askState 2 s
     | _ => s)
  else if off = 0x120 then s.setDevReg pgPwr off (s.devReg pgPwr off &&& ~~~v ||| s.justSet (rkey pgPwr off))
  else if 0x200 ≤ off ∧ off < 0x340 then writeHalfCfg ((off - 0x200) / 8) v s
  else
    let s := storeDev .pwr pgPwr off v s
    { s with pwr := { s.pwr with alarm0 := s.pwr.alarm0 && off != 0x130, alarm1 := s.pwr.alarm1 && off != 0x138 } }

/-- A write of an ATT register (R486, R494). -/
def writeAtt (off : Nat) (v : Word) (s : State) : State :=
  if off = 0x130 then writeExtCmd v s
  else if off = 0x160 then (if bit v 0 then attGo s else s)
  else storeDev .att pgAtt off v s

/-- A write of an ERR register (R365, R366, R369). -/
def writeErr (off : Nat) (v : Word) (s : State) : State :=
  if off = 0x100 then
    let s := s.setDevReg pgErr off (v &&& 3)
    if bit v 8 then { s with log := s.log.clearFirst s.time } else s
  else if off = 0x108 then writeRdptr v s
  else storeDev .err pgErr off v s

/-- A write of a CTX register (R312, R316, R331, R381, R393). -/
def writeCtx (c off : Nat) (v : Word) (s : State) : State :=
  let pg := pgCtx c
  if off = 0x108 then ctxCommand c (fld v 0 3) s
  else if 0x140 ≤ off ∧ off < 0x1C0 then (if off % 16 = 0 then writeSlot c ((off - 0x140) / 16) v s else s)
  else if 0x1C0 ≤ off ∧ off < 0x2C0 ∧ off % 16 = 0 then writeSegLo c ((off - 0x1C0) / 16) v s
  else if off = 0x350 then writeGxMask c v s
  else if 0x400 ≤ off ∧ off < 0x600 ∧ off % 32 = 0 then writeGxcfg c ((off - 0x400) / 32) v s
  else if 0x400 ≤ off ∧ off < 0x600 ∧ off % 32 = 0x18 then
    let i := (off - 0x400) / 32
    setGxstat c i (s.gxstat c i &&& ~~~(v &&& 0xF0000000000) ||| s.justSet (rkey pg off)) s
  else storeDev .ctx pg off v s

/-- A write of register `off` of a device page. Answers whether it was refused. -/
def writeDev (k : Kind) (pg off : Nat) (v : Word) (s : State) : Bool × State :=
  let i := pageInst pg
  if off < 0x100 then writeHdr k pg off v s
  else (false, match k with
    | .mgt =>
      if off = 0x108 then (if bit v 0 then startSave s else s)
      else if off = 0x138 then flashWrite v s
      else storeDev k pg off v s
    | .fus => if off = 0x138 then (if bit v 0 then fuseGo s else s) else storeDev k pg off v s
    | .att => writeAtt off v s
    | .err => writeErr off v s
    | .pwr => writePwr off v s
    | .cfg => if 0x140 ≤ off ∧ off < 0x180 then writeCfgCmd ((off - 0x140) / 8) v s else storeDev k pg off v s
    | .ctx => writeCtx i off v s
    | .cxl =>
      if off = 0x110 then
        (match fld v 1 2 with
         | 1 => cxlOnline i (fld v 0 1) s
         | 2 => cxlOffline i (fld v 0 1) (bit v 3) s
         | _ => s)
      else storeDev k pg off v s
    | .lnm =>
      if off = 0x100 then writeLnmCfg i v s
      else if off = 0x120 then writeEq i v s
      else if 0x200 ≤ off ∧ off < 0x300 then writeEgress i ((off - 0x200) / 16) (off % 16 == 8) v s
      else storeDev k pg off v s
    | _ => storeDev k pg off v s)

/-! ## Read before act (R498) -/

/-- The state registers that management reads before a write to a page: offset and value. The units of
MGT, FUS, ATT, ERR, HBM and DDR have none. -/
def State.unitRegs (s : State) (k : Kind) (pg off : Nat) (v : Word) : List (Nat × Word) :=
  let i := pageInst pg
  match k with
  | .ctx => [(0x100, s.ctxState i)]
  | .mov => [(0x100, s.movStat i)]
  | .lnm => [(0x108, (s.port i).stat)]
  | .cxl =>
    let h := fld v 0 1
    if off = 0x110 then [(0x100 + 8 * h, (s.cxl (2 * i + h)).lstat)]
    else [(0x100, (s.cxl (2 * i)).lstat), (0x108, (s.cxl (2 * i + 1)).lstat)]
  | .cfg => if 0x140 ≤ off ∧ off < 0x180 then [(off - 0x40, s.pourReg ((off - 0x140) / 8))] else []
  | .pwr => if 0x200 ≤ off ∧ off < 0x340 then [(off + 0x200, s.halfStat ((off - 0x200) / 8))] else []
  | _ => []

/-- The state registers of the units that a device state puts to rest or wakes: page, offset and value. -/
def State.restRegs (s : State) : List (Nat × Nat × Word) :=
  (List.range 8).map (fun c => (pgCtx c, 0x100, s.ctxState c)) ++
  (List.range 8).map (fun c => (pgCfg, 0x100 + 8 * c, s.pourReg c)) ++
  (List.range 28).map (fun m => (pgMov m, 0x100, s.movStat m)) ++
  (List.range 8).map (fun p => (pgLnm p, 0x108, (s.port p).stat)) ++
  (List.range 8).map (fun l => (pgCxl (l / 2), 0x100 + 8 * (l % 2), (s.cxl l).lstat)) ++
  (List.range 40).map (fun h => (pgPwr, 0x400 + 8 * h, s.halfStat h))

/-- Management reads a unit's state registers anew; for a request of a device state those of every such unit (log 122). -/
def readUnit (k : Kind) (pg off : Nat) (v : Word) (s : State) : State :=
  if k = .pwr ∧ off = 0x110 then s.restRegs.foldl (fun s (p, o, w) => readFirst p o w s) s
  else (s.unitRegs k pg off v).foldl (fun s (o, w) => readFirst pg o w s) s

/-- Management writes a register of a device page. -/
def actDev (k : Kind) (pg off : Nat) (v : Word) (s : State) : Bool × State := writeDev k pg off v (readUnit k pg off v s)

/-- PWR_D0 (R468): a `PWR_DCMD` write of 1. -/
def execPwrD0 (s : State) : Host.Outcome State Fault Refusal :=
  .next (served (fun s => (actDev .pwr pgPwr 0x110 1 s).2) s)

/-- PWR_DIDLE (R467): a `PWR_DCMD` write of 2. -/
def execPwrDidle (s : State) : Host.Outcome State Fault Refusal :=
  .next (served (fun s => (actDev .pwr pgPwr 0x110 2 s).2) s)

/-- PWR_DSTANDBY (R467): a `PWR_DCMD` write of 3. -/
def execPwrDstandby (s : State) : Host.Outcome State Fault Refusal :=
  .next (served (fun s => (actDev .pwr pgPwr 0x110 3 s).2) s)

/-- Management writes a register of a tile page and the tile takes it at once: it wakes for it (R464). -/
def actTile (t k off : Nat) (v : Word) (s : State) : Bool × State :=
  writeTile t k off v (wakeTile t (readFirst (pgTile t 0) 0x100 (s.tctState t) s))

/-- The alert output (R362, R367, R485, R529): in BOOT_FAIL, in the FATAL state, and while an unread entry is of
class ALERT_MIN or above. -/
def State.alert (s : State) : Bool :=
  s.mgt.boot == 3 || s.stop.fatal ||
  (List.range s.log.unread).any (fun i =>
    fld (s.log.ring.get ((s.log.rd + i) % 1024) {}).w0 32 2 ≥ fld (s.devReg pgErr 0x100) 0 2)

/-- The in-band interrupt of I3C mode that the change from s to s' sends: ALERT_N falls (R530). -/
def State.interrupts (s s' : State) : Bool := s'.brd.sbsel && !s.alert && s'.alert

end Sys2Proof.Machine
end

