-- ==== Sys2Proof/Machine/Access.lean ====
section
/-! DEFINITION.
Register accesses (R441, R480, R498 to R501, R506 to R511, R524): the ten paths, the refusals, the
management messages that carry an access to a tile, the scratchpad debug windows, and the commands of
the sideband, JTAG and the Laniem ports. -/

namespace Sys2Proof.Machine

/-! ## The paths (R506, R508) -/

/-- A JTAG write to a page of an owned tile sets DEBUGGED (R501). -/
def noteJtag (a : Access) (s : State) : State :=
  if a.path = 1 ∧ a.write ∧ 0x8000 ≤ a.addr / 4096 ∧ a.addr / 4096 < 0x10000 ∧
      (s.tile (pageTid (a.addr / 4096))).cfg.owned then markDebugged s else s

/-- An access ends: the sideband keeps status and data, JTAG shifts the data out, a Laniem request is
answered by REGRESP if its link still stands (R441, R448, R524). -/
def accDone (a : Access) (status : Nat) (v : Word) (s : State) : State :=
  let s := if status = 0 then noteJtag a s else s
  if a.path = 0 then
    setMgt (fun m => { m with sbStatus := status, sbData := if a.write then 0 else v }) s
  else if a.path = 1 then
    setBrd (fun b => { b with tdo := if a.write then b.tdo else bitsOf (leBytes 8 v.toNat) }) s
  else match a.ans with
    | some (tctx, tag) =>
      let p := a.path - 2
      let bs := if a.write then [] else leBytes 8 v.toNat
      let s := if status = 0 then s else portRefusal p s
      outPkt p 0x05 8 { tctx := tctx, first := true, last := true, bytes := bs.length, tag := tag,
                        status := status, payload := bs } none s
    | none => s

/-- An access is refused: REG_ACCESS with its cause, address and path (R507, R520). -/
def accRefuse (a : Access) (cause : Nat) (s : State) : State :=
  accDone a 5 0 (raise pgMgt .regAccess [(3, cause), (48, a.addr), (4, a.path)] none s)

/-- Base of the scratchpad debug windows (R505). -/
def dbgBase : Nat := 0x080000000000

/-- The access is to a debug window of a tile that the part has (R18, R505). -/
def State.inDebug (s : State) (addr : Nat) : Bool :=
  decide (dbgBase ≤ addr ∧ addr < 0x080140000000) && s.present ((addr - dbgBase) / 2 ^ 20)

/-- The refusals of R507 that the management processor decides by itself. -/
def State.accCheck (s : State) (a : Access) : Option Nat :=
  let pg := a.addr / 4096
  if s.mgt.boot = 3 ∧ pg ≥ 3 then some 6
  else if a.addr % 8 ≠ 0 then some 2
  else if a.dbg || decide (a.addr ≥ 0x10000000) then
    (if s.inDebug a.addr ∧ a.path < 2 then none else some 3)
  else if (s.pageKind pg).isNone then some 1
  else none

/-- A debug-window access of 8 bytes (R501): requester 10 of the line that holds them, by R36 and R37. -/
def debugAccess (a : Access) (s : State) : State :=
  let t := (a.addr - dbgBase) / 2 ^ 20
  let o := (a.addr - dbgBase) % 2 ^ 20
  let deny := s.mgt.fuses.policy.toNat / 8 % 2 == 1 || (a.write && fld (s.tctState t) 15 1 == 0)
  if deny then accDone a 5 0 (raise pgMgt .dbgDenied [] none s)
  else
    let s := wakeTile t s
    let ws := (leBytes 8 a.v.toNat).zipIdx.map (fun (b, i) => (o % 64 + i, b, (0xFF : Byte)))
    let s := serveBank t (bankOf (s.tile t).ilv o) [{ who := 10, addr := o, store := if a.write then some ws else none }] [] s
    if a.write then accDone a 0 0 (markDebugged s)
    else accDone a 0 (BitVec.ofNat 64 (leNat (((((s.tile t).ret.get 10 none).getD []).drop (o % 64)).take 8))) s

/-- An access to a device page or a debug window is done at once; one to a tile page goes out as a
message and its answer is awaited (R480, R506). -/
def serveAcc (a : Access) (s : State) : State :=
  match s.accCheck a with
  | some cause => accRefuse a cause s
  | none =>
    if a.addr ≥ dbgBase then debugAccess a s
    else
      let pg := a.addr / 4096
      let off := a.addr % 4096
      if pg ≥ 0x8000 then
        let t := pageTid pg
        let s := if a.write then readFirst (pgTile t 0) 0x100 (s.tctState t) s else s
        let s := setMgt (fun m => { m with flying := m.flying.put a.path (some a) none }) s
        sendAll [accMsg a] s
      else
        let k := (s.pageKind pg).getD .mgt
        if a.write then
          let (bad, s) := actDev k pg off a.v s
          if bad then accRefuse a 5 s else accDone a 0 0 s
        else accDone a 0 (s.readDev k pg off) (readDevThen k pg off s)

/-- The path whose turn it is: the first after the one served last that has an access waiting and none that awaits
a tile (R508). -/
def Mgt.nextPath (m : Mgt) : Option Nat :=
  ((List.range 10).map (fun i => (m.turn + 1 + i) % 10)).find? (fun p =>
    (m.flying.get p none).isNone && !(m.accQ.get p []).isEmpty)

/-- The waiting accesses are served round-robin, one per path per turn, those of a path in the order received
(R508), until each path waits for a tile or has none. -/
def servePaths : Nat → State → State
  | 0, s => s
  | n + 1, s => match s.mgt.nextPath with
    | none => s
    | some p => match s.mgt.accQ.get p [] with
      | [] => s
      | a :: rest => servePaths n (serveAcc a (setMgt (fun m => { m with accQ := m.accQ.put p rest [], turn := p }) s))

/-- Every access that waits on a path. -/
def Mgt.waiting (m : Mgt) : Nat := (m.accQ.map (fun (_, q) => q.length)).sum

/-- An access arrives on its path. -/
def submit (a : Access) (s : State) : State :=
  let s := setMgt (fun m => { m with accQ := m.accQ.upd a.path [] (· ++ [a]) }) s
  servePaths s.mgt.waiting s

/-- An access of the path waits or awaits a tile. -/
def Mgt.pathBusy (m : Mgt) (p : Nat) : Bool := (m.flying.get p none).isSome || !(m.accQ.get p []).isEmpty

/-! ## The messages (R480) -/

/-- MGT_RD (R480, R511): the tile, or the router of one in OFF, answers with the register. -/
def execMgtRd (t : Nat) (s : State) : Host.Outcome State Fault Refusal :=
  s.atTile t (onMgt t 0x30 (fun m s =>
    let k := fld m.w1 0 2
    let off := fld m.w1 2 12
    tileToMgt t 0x32 unitMgt (s.tile t).cfg.ctx 0 m.tag 0 (leBytes 8 (s.readTile t k off).toNat) (readTileThen t k off s)))

/-- MGT_WR (R480, R511): the tile writes the register, or refuses. -/
def execMgtWr (t : Nat) (s : State) : Host.Outcome State Fault Refusal :=
  s.atTile t (onMgt t 0x31 (fun m s =>
    let (bad, s) := writeTile t (fld m.w1 0 2) (fld m.w1 2 12) (BitVec.ofNat 64 (leNat m.payload)) s
    tileToMgt t 0x32 unitMgt (s.tile t).cfg.ctx 0 m.tag (if bad then 5 else 0) [] s))

/-- MGT_RESP (R480): the access that awaits it ends, and the path's next is served. A tile refuses a
`PG_VER` write (cause 5) or a write while OFF (cause 4). -/
def execMgtResp (s : State) : Host.Outcome State Fault Refusal :=
  .next (onUnit unitMgt 0x32 (fun m s =>
    match s.mgt.flying.get m.tag none with
    | none => s
    | some a =>
      let s := setMgt (fun g => { g with flying := g.flying.put m.tag none none }) s
      let s := if m.status = 0 then accDone a 0 (BitVec.ofNat 64 (leNat m.payload)) s
        else accRefuse a (if a.addr % 4096 < 0x100 then 5 else 4) s
      servePaths s.mgt.waiting s) s)

/-! ## Sideband (R524, R530) -/

/-- The address match of a transfer fires comparator 5 (R475, R530). In D-standby the exit itself, which needs what
the boot finds, comes with DEVICE_WAKE. -/
def addressMatch (s : State) : State :=
  let v := s.devReg pgPwr 0x140
  if !bit v 5 then s
  else
    let s := setWake 5 s
    if bit v 13 ∧ s.pwr.dstate ≠ 2 then wakeEvent 5 {} s else s

/-- A transfer that names the device: acknowledged at its address, and refused after it while the sideband does not
serve (R530). Without 40 V nothing answers. -/
def sideXfer (f : State → State) (s : State) : State :=
  if !s.brd.v40 then s
  else
    let s := addressMatch s
    if s.sideband then f (setBrd (fun b => { b with sbNack := false }) s) else setBrd (fun b => { b with sbNack := true }) s

/-- CRC-8 of SMBus, x⁸ + x² + x + 1, over the bytes of a transfer (PRESUMED from SMBus 3.0, log 121). -/
def pecOf (bs : List Byte) : Byte :=
  bs.foldl (fun c b => (List.range 8).foldl (fun c _ =>
    if c.toNat < 128 then c <<< 1 else c <<< 1 ^^^ 0x07) (c ^^^ b)) 0

/-- Byte of the static address and the direction bit. -/
def Board.addrByte (b : Board) (rd : Nat) : Byte := BitVec.ofNat 8 (2 * (0x4C + b.sbaddr) + rd)

/-- The transfer is the command `code` with `n` bytes after it, and in SMBus mode its PEC is right. -/
def State.xferOk (s : State) (code n : Nat) (x : SbXfer) (pec : Byte) : Bool :=
  x.code == code && x.data.length == n &&
  (s.brd.sbsel ||
    pec == pecOf ([s.brd.addrByte 0, BitVec.ofNat 8 code, BitVec.ofNat 8 n] ++ x.data))

/-- A sideband command with an access starts it: address in 6 bytes, data in 8, the lowest byte first. It is ignored
while one is still BUSY, and where its PEC fails. -/
def sideCmd (code : Nat) (write dbg : Bool) (x : SbXfer) (pec : Byte) (s : State) : State :=
  sideXfer (fun s =>
    if !s.xferOk code (if write then 14 else 6) x pec || s.mgt.pathBusy 0 then s
    else submit { path := 0, write := write, addr := leNat (x.data.take 6), v := BitVec.ofNat 64 (leNat (x.data.drop 6)),
                  dbg := dbg }
      (setMgt (fun m => { m with sbStatus := 1, sbData := 0 }) s)) s

/-- REG_WRITE (R524). -/
def execRegWrite (x : SbXfer) (pec : Byte) (s : State) : Host.Outcome State Fault Refusal :=
  .next (sideCmd 0x10 true false x pec s)

/-- REG_READ (R524). -/
def execRegRead (x : SbXfer) (s : State) (pec : Byte := 0) : Host.Outcome State Fault Refusal :=
  .next (sideCmd 0x11 false false x pec s)

/-- What the host reads: the status byte, eight bytes of data, and in SMBus mode the PEC. -/
def State.sideResult (s : State) : List Byte :=
  let bs := BitVec.ofNat 8 s.mgt.sbStatus :: leBytes 8 s.mgt.sbData.toNat
  if s.brd.sbsel then bs else bs ++ [pecOf ([s.brd.addrByte 0, 0x12, s.brd.addrByte 1, 9] ++ bs)]

/-- REG_RESULT (R524). -/
def execRegResult (s : State) : Host.Outcome State Fault Refusal :=
  .next (sideXfer (fun s => setBrd (fun b => { b with sbOut := s.sideResult }) s) s)

/-- DBG_WRITE (R524). -/
def execDbgWrite (x : SbXfer) (pec : Byte) (s : State) : Host.Outcome State Fault Refusal :=
  .next (sideCmd 0x13 true true x pec s)

/-- DBG_READ (R524). -/
def execDbgRead (x : SbXfer) (s : State) (pec : Byte := 0) : Host.Outcome State Fault Refusal :=
  .next (sideCmd 0x14 false true x pec s)

/-! ## JTAG (R499) -/

/-- The port admits MGTACC: mode 0, or mode 1 after the unlock. -/
def State.jtagOpen (s : State) : Bool := s.jtagMode == 0 || (s.jtagMode == 1 && s.mgt.unlocked)

/-- MGTACC (R499): an access to any device address. -/
def execMgtacc (write : Bool) (addr : Nat) (v : Word) (s : State) : Host.Outcome State Fault Refusal :=
  .next (if s.sideband && s.jtagOpen then
      submit { path := 1, write := write, addr := addr % 2 ^ 48, v := v } (loadIr 0x11 s)
    else s)

/-! ## Laniem (R436, R441) -/

/-- The access that a partner's register packet asks for. -/
def partnerAccess (p : Nat) (write : Bool) (k : LnmPkt) : Access :=
  { path := 2 + p, write := write, addr := fld k.target 0 48, ans := some (k.tctx, k.tag),
    v := BitVec.ofNat 64 (leNat k.payload) }

/-- A register request of a partner: a full queue of 16, an address form other than a device address,
or `LNM_CFG.ALLOW_REG` = 0 answers REFUSED. -/
def regRequest (p : Nat) (write : Bool) (k : LnmPkt) (s : State) : State :=
  let path := 2 + p
  let a := partnerAccess p write k
  let n := (s.mgt.accQ.get path []).length + (if (s.mgt.flying.get path none).isSome then 1 else 0)
  if n ≥ 16 ∨ k.tkind ≠ 0 ∨ ¬bit (s.lnmCfg p) 3 then accDone a 5 0 s else submit a s

/-- REGRD (R441). -/
def execRegrd (p : Fin 8) (pkt : LnmPkt) (s : State) : Host.Outcome State Fault Refusal :=
  .next (otherRole p.val 0x03 pkt (accDone (partnerAccess p.val false pkt) 5 0) <| recv p.val 0x03 pkt (regRequest p.val false pkt) s)

/-- REGWR (R441): 8 payload bytes. -/
def execRegwr (p : Fin 8) (pkt : LnmPkt) (s : State) : Host.Outcome State Fault Refusal :=
  .next (otherRole p.val 0x04 pkt (accDone (partnerAccess p.val true pkt) 5 0) <| recv p.val 0x04 pkt (fun s =>
    if pkt.payload.length = 8 then regRequest p.val true pkt s else proto p.val 0x04 pkt s) s)

/-! ## Writes served whole (R501, R508, R515) -/

/-- A write that is served from its arrival to its end in one command: no answer goes out. -/
def writeWhole (path addr : Nat) (v : Word) (s : State) : State :=
  let a : Access := { path := path, write := true, addr := addr, v := v }
  match s.accCheck a with
  | some cause => accRefuse a cause s
  | none =>
    if a.addr ≥ dbgBase then debugAccess a s
    else
      let pg := addr / 4096
      let off := addr % 4096
      let (bad, s) :=
        if pg ≥ 0x8000 then actTile (pageTid pg) ((pg - 0x8000) % 4) off v s
        else actDev ((s.pageKind pg).getD .mgt) pg off v s
      if bad then accRefuse a (if off < 0x100 then 5 else 4) s else accDone a 0 0 s

/-- The path can bring a register access: the sideband; JTAG where its mode admits MGTACC (R499); a port in
role CONTROL that allows it (R441). In BOOT_FAIL the first two only (R485). -/
def State.pathOpen (s : State) (path : Nat) : Bool :=
  let q := s.port (path - 2)
  (s.sideband && (path == 0 || (path == 1 && s.jtagOpen))) ||
  (s.mgt.boot == 2 && decide (2 ≤ path ∧ path < 10) && q.st == .up && q.role == .control &&
    bit (s.lnmCfg (path - 2)) 3)

/-- A write on a path: behind the accesses of the path that still wait (R508); the sideband holds one at a time and
ignores what comes while it is BUSY (R524); a full queue of a port refuses (R436). -/
def writeOn (path addr : Nat) (v : Word) (s : State) : State :=
  let a : Access := { path := path, write := true, addr := addr, v := v }
  if !s.pathOpen path then s
  else if !s.mgt.pathBusy path then writeWhole path addr v s
  else if path = 0 then s
  else if path ≥ 2 ∧ (s.mgt.accQ.get path []).length ≥ 15 then accDone a 5 0 s
  else submit a s

/-- REGISTER_WRITE (R508). -/
def execRegisterWrite (path addr : Nat) (v : Word) (s : State) : Host.Outcome State Fault Refusal :=
  .next (writeOn path (addr % 2 ^ 48) v s)

/-- PG_VER_WRITE (R515): a write of `PG_VER` of a page. -/
def execPgVerWrite (path page : Nat) (v : Word) (s : State) : Host.Outcome State Fault Refusal :=
  .next (writeOn path (page % 2 ^ 16 * 4096 + 0x010) v s)

/-- Management writes `PG_CTRL.HALT` of a page (R498, R501, R516). -/
def haltPage (pg : Nat) (on : Bool) (s : State) : State :=
  match s.pageKind pg with
  | some .tct => writeHalt .tct pg on (wakeTile (pageTid pg) (readFirst pg 0x100 (s.tctState (pageTid pg)) s))
  | some k => writeHalt k pg on (readUnit k pg 0x018 0 s)
  | none => s

/-- HALT (R501). -/
def execHalt (page : Nat) (s : State) : Host.Outcome State Fault Refusal := .next (served (haltPage page true) s)

/-- HALT_RELEASE (R501). -/
def execHaltRelease (page : Nat) (s : State) : Host.Outcome State Fault Refusal :=
  .next (served (haltPage page false) s)

end Sys2Proof.Machine
end

