-- ==== Sys2Proof/Machine/Dispatch.lean ====
section
/-! DEFINITION.
One arm per command of spec/opcode_table.json: a direct call of its meaning. -/

namespace Sys2Proof.Machine

/-- What a command does to the device (chapters 02 to 18). -/
def exec (i : Instr) (s : State) : Host.Outcome State Fault Refusal :=
  match i with
  | .scratchpadAccess t reqs ecc => Sys2Proof.Machine.execScratchpadAccess t reqs ecc s
  | .bankFillDone t => Sys2Proof.Machine.execBankFillDone t s
  | .windowEntryWrite t win v => Sys2Proof.Machine.execWindowEntryWrite t win v s
  | .write t => Sys2Proof.Machine.execWrite t s
  | .hpush t => Sys2Proof.Machine.execHpush t s
  | .handlePop t who => Sys2Proof.Machine.execHandlePop t who s
  | .mma t n => Sys2Proof.Machine.execMma t n s
  | .mmaStepRead t => Sys2Proof.Machine.execMmaStepRead t s
  | .mmaArrayStep t => Sys2Proof.Machine.execMmaArrayStep t s
  | .blockCombine t ecc => Sys2Proof.Machine.execBlockCombine t ecc s
  | .mmaDrain t ecc => Sys2Proof.Machine.execMmaDrain t ecc s
  | .stateRecordDrain t ecc => Sys2Proof.Machine.execStateRecordDrain t ecc s
  | .add t n => Sys2Proof.Machine.execAdd t n s
  | .sub t n => Sys2Proof.Machine.execSub t n s
  | .mul t n => Sys2Proof.Machine.execMul t n s
  | .fma t n => Sys2Proof.Machine.execFma t n s
  | .fnma t n => Sys2Proof.Machine.execFnma t n s
  | .min t n => Sys2Proof.Machine.execMin t n s
  | .max t n => Sys2Proof.Machine.execMax t n s
  | .cmp t n => Sys2Proof.Machine.execCmp t n s
  | .sel t n => Sys2Proof.Machine.execSel t n s
  | .abs t n => Sys2Proof.Machine.execAbs t n s
  | .neg t n => Sys2Proof.Machine.execNeg t n s
  | .cvt t n => Sys2Proof.Machine.execCvt t n s
  | .curve t n => Sys2Proof.Machine.execCurve t n s
  | .dact t n => Sys2Proof.Machine.execDact t n s
  | .setvl t n => Sys2Proof.Machine.execSetvl t n s
  | .vectorGroupRead t => Sys2Proof.Machine.execVectorGroupRead t s
  | .vectorGroupWrite t => Sys2Proof.Machine.execVectorGroupWrite t s
  | .sum t => Sys2Proof.Machine.execSum t s
  | .redopMax t => Sys2Proof.Machine.execRedopMax t s
  | .redopMin t => Sys2Proof.Machine.execRedopMin t s
  | .argmax t => Sys2Proof.Machine.execArgmax t s
  | .lnFwd t n => Sys2Proof.Machine.execLnFwd t n s
  | .rmsFwd t n => Sys2Proof.Machine.execRmsFwd t n s
  | .smaxFwd t n => Sys2Proof.Machine.execSmaxFwd t n s
  | .lnBwd t n ecc => Sys2Proof.Machine.execLnBwd t n ecc s
  | .rmsBwd t n ecc => Sys2Proof.Machine.execRmsBwd t n ecc s
  | .smaxBwd t n ecc => Sys2Proof.Machine.execSmaxBwd t n ecc s
  | .switchTokenMove t net input => Sys2Proof.Machine.execSwitchTokenMove t net input s
  | .linkCrossing t net dir => Sys2Proof.Machine.execLinkCrossing t net dir s
  | .landingHeadToken t ld => Sys2Proof.Machine.execLandingHeadToken t ld s
  | .landingDataToken t ld => Sys2Proof.Machine.execLandingDataToken t ld s
  | .launchHandlePop t la => Sys2Proof.Machine.execLaunchHandlePop t la s
  | .launchDataToken t la => Sys2Proof.Machine.execLaunchDataToken t la s
  | .entryIssue t la => Sys2Proof.Machine.execEntryIssue t la s
  | .delayQueueMove t port => Sys2Proof.Machine.execDelayQueueMove t port s
  | .progress t port => Sys2Proof.Machine.execProgress t port s
  | .packetRoute node out ecc => Sys2Proof.Machine.execPacketRoute node out ecc s
  | .pass t u => Sys2Proof.Machine.execPass t u s
  | .route t u => Sys2Proof.Machine.execRoute t u s
  | .merge t u => Sys2Proof.Machine.execMerge t u s
  | .filter t u => Sys2Proof.Machine.execFilter t u s
  | .emit t u => Sys2Proof.Machine.execEmit t u s
  | .takec t u => Sys2Proof.Machine.execTakec t u s
  | .planeSwitch t ecc => Sys2Proof.Machine.execPlaneSwitch t ecc s
  | .boundaryCollect t => Sys2Proof.Machine.execBoundaryCollect t s
  | .boundaryInject t => Sys2Proof.Machine.execBoundaryInject t s
  | .recastInject t => Sys2Proof.Machine.execRecastInject t s
  | .recastPass t => Sys2Proof.Machine.execRecastPass t s
  | .directSend t r => Sys2Proof.Machine.execDirectSend t r s
  | .channelSend t r => Sys2Proof.Machine.execChannelSend t r s
  | .fencedSend t => Sys2Proof.Machine.execFencedSend t s
  | .frozenResend t tag => Sys2Proof.Machine.execFrozenResend t tag s
  | .pad t => Sys2Proof.Machine.execPad t s
  | .ack u => Sys2Proof.Machine.execAck u s
  | .cinc t => Sys2Proof.Machine.execCinc t s
  | .cdec t => Sys2Proof.Machine.execCdec t s
  | .claim t => Sys2Proof.Machine.execClaim t s
  | .cresp t => Sys2Proof.Machine.execCresp t s
  | .cwait t => Sys2Proof.Machine.execCwait t s
  | .crel t => Sys2Proof.Machine.execCrel t s
  | .creset t => Sys2Proof.Machine.execCreset t s
  | .chOpen t => Sys2Proof.Machine.execChOpen t s
  | .chOpenr t => Sys2Proof.Machine.execChOpenr t s
  | .chGrant u => Sys2Proof.Machine.execChGrant u s
  | .chReturn t => Sys2Proof.Machine.execChReturn t s
  | .chClose t => Sys2Proof.Machine.execChClose t s
  | .chCloser t => Sys2Proof.Machine.execChCloser t s
  | .channelProgress t r => Sys2Proof.Machine.execChannelProgress t r s
  | .handSet t c v => Sys2Proof.Machine.execHandSet t c v s
  | .counterFlagClear t c v => Sys2Proof.Machine.execCounterFlagClear t c v s
  | .chcmdOpen t r => Sys2Proof.Machine.execChcmdOpen t r s
  | .chcmdClose t r => Sys2Proof.Machine.execChcmdClose t r s
  | .actionNone t n => Sys2Proof.Machine.execActionNone t n s
  | .actionWait t n => Sys2Proof.Machine.execActionWait t n s
  | .actionInc t n => Sys2Proof.Machine.execActionInc t n s
  | .actionDec t n => Sys2Proof.Machine.execActionDec t n s
  | .actionReset t n => Sys2Proof.Machine.execActionReset t n s
  | .actionCinc t n => Sys2Proof.Machine.execActionCinc t n s
  | .actionCdec t n => Sys2Proof.Machine.execActionCdec t n s
  | .actionCwait t n => Sys2Proof.Machine.execActionCwait t n s
  | .actionClaim t n => Sys2Proof.Machine.execActionClaim t n s
  | .actionHpush t n => Sys2Proof.Machine.execActionHpush t n s
  | .actionChret t n => Sys2Proof.Machine.execActionChret t n s
  | .actionOpen t n => Sys2Proof.Machine.execActionOpen t n s
  | .actionClose t n => Sys2Proof.Machine.execActionClose t n s
  | .claimRegisterLoad t n => Sys2Proof.Machine.execClaimRegisterLoad t n s
  | .nestWordTake t n => Sys2Proof.Machine.execNestWordTake t n s
  | .nestEndPoint t n => Sys2Proof.Machine.execNestEndPoint t n s
  | .nestStartPoint t n => Sys2Proof.Machine.execNestStartPoint t n s
  | .pourHeader c => Sys2Proof.Machine.execPourHeader c s
  | .segment c => Sys2Proof.Machine.execSegment c s
  | .nop c => Sys2Proof.Machine.execNop c s
  | .setMould c => Sys2Proof.Machine.execSetMould c s
  | .setFar c => Sys2Proof.Machine.execSetFar c s
  | .writeFrames c => Sys2Proof.Machine.execWriteFrames c s
  | .writeCreg c => Sys2Proof.Machine.execWriteCreg c s
  | .hashCheck c => Sys2Proof.Machine.execHashCheck c s
  | .arm c => Sys2Proof.Machine.execArm c s
  | .castEnd c => Sys2Proof.Machine.execCastEnd c s
  | .finalTag c => Sys2Proof.Machine.execFinalTag c s
  | .closingChecksDone c => Sys2Proof.Machine.execClosingChecksDone c s
  | .readbackDone t ecc => Sys2Proof.Machine.execReadbackDone t ecc s
  | .shadowEccError t addr => Sys2Proof.Machine.execShadowEccError t addr s
  | .pourGo c => Sys2Proof.Machine.execPourGo c s
  | .pourAbort c => Sys2Proof.Machine.execPourAbort c s
  | .pourIdleTimeout c => Sys2Proof.Machine.execPourIdleTimeout c s
  | .castRecastTimeout c => Sys2Proof.Machine.execCastRecastTimeout c s
  | .cfgSetup t => Sys2Proof.Machine.execCfgSetup t s
  | .cfgFrame t => Sys2Proof.Machine.execCfgFrame t s
  | .cfgCreg t => Sys2Proof.Machine.execCfgCreg t s
  | .cfgArm t => Sys2Proof.Machine.execCfgArm t s
  | .cfgStaged => Sys2Proof.Machine.execCfgStaged s
  | .cfgRecast t => Sys2Proof.Machine.execCfgRecast t s
  | .cfgDone => Sys2Proof.Machine.execCfgDone s
  | .cfgDiscard t => Sys2Proof.Machine.execCfgDiscard t s
  | .cfgFence t => Sys2Proof.Machine.execCfgFence t s
  | .create c => Sys2Proof.Machine.execCreate c s
  | .preempt c => Sys2Proof.Machine.execPreempt c s
  | .resume c => Sys2Proof.Machine.execResume c s
  | .teardown c => Sys2Proof.Machine.execTeardown c s
  | .restart c => Sys2Proof.Machine.execRestart c s
  | .teardownComplete c => Sys2Proof.Machine.execTeardownComplete c s
  | .preemptDrainComplete c => Sys2Proof.Machine.execPreemptDrainComplete c s
  | .preemptTimeout c => Sys2Proof.Machine.execPreemptTimeout c s
  | .slotEntryWrite c e hi v => Sys2Proof.Machine.execSlotEntryWrite c e hi v s
  | .segEntryWrite c e v => Sys2Proof.Machine.execSegEntryWrite c e v s
  | .accountingUpdate c sample => Sys2Proof.Machine.execAccountingUpdate c sample s
  | .cgStage t r => Sys2Proof.Machine.execCgStage t r s
  | .cgDecide t => Sys2Proof.Machine.execCgDecide t s
  | .cgTimeout t => Sys2Proof.Machine.execCgTimeout t s
  | .cgGo t => Sys2Proof.Machine.execCgGo t s
  | .cgAbort t => Sys2Proof.Machine.execCgAbort t s
  | .cgActDecision t r => Sys2Proof.Machine.execCgActDecision t r s
  | .cgcoordWrite t v => Sys2Proof.Machine.execCgcoordWrite t v s
  | .cgpartWrite t r v => Sys2Proof.Machine.execCgpartWrite t r v s
  | .mgtNotice => Sys2Proof.Machine.execMgtNotice s
  | .mgtNoticeAck t => Sys2Proof.Machine.execMgtNoticeAck t s
  | .mgtStep t ecc => Sys2Proof.Machine.execMgtStep t ecc s
  | .mgtStepAck => Sys2Proof.Machine.execMgtStepAck s
  | .restartTimeout c => Sys2Proof.Machine.execRestartTimeout c s
  | .deviceStuck => Sys2Proof.Machine.execDeviceStuck s
  | .errRdptrWrite v => Sys2Proof.Machine.execErrRdptrWrite v s
  | .gxMessage e => Sys2Proof.Machine.execGxMessage e s
  | .gxRecordSend e => Sys2Proof.Machine.execGxRecordSend e s
  | .gxConfigWrite c e v => Sys2Proof.Machine.execGxConfigWrite c e v s
  | .gxMaskWrite c v => Sys2Proof.Machine.execGxMaskWrite c v s
  | .moverDescriptor m => Sys2Proof.Machine.execMoverDescriptor m s
  | .storeData m => Sys2Proof.Machine.execStoreData m s
  | .moverPiece m ecc => Sys2Proof.Machine.execMoverPiece m ecc s
  | .descriptorComplete m => Sys2Proof.Machine.execDescriptorComplete m s
  | .moverFrozenResend m => Sys2Proof.Machine.execMoverFrozenResend m s
  | .patrolScrub m addr ecc => Sys2Proof.Machine.execPatrolScrub m addr ecc s
  | .cxlLinkUp p half width => Sys2Proof.Machine.execCxlLinkUp p half width s
  | .cxlEnumerated p half dev => Sys2Proof.Machine.execCxlEnumerated p half dev s
  | .cxlLinkDown p half => Sys2Proof.Machine.execCxlLinkDown p half s
  | .cxlOnline p half => Sys2Proof.Machine.execCxlOnline p half s
  | .cxlOffline p half force => Sys2Proof.Machine.execCxlOffline p half force s
  | .cxlOfflineComplete p half => Sys2Proof.Machine.execCxlOfflineComplete p half s
  | .portEnable p => Sys2Proof.Machine.execPortEnable p s
  | .portDisable p => Sys2Proof.Machine.execPortDisable p s
  | .lightDetect p => Sys2Proof.Machine.execLightDetect p s
  | .laneLock p => Sys2Proof.Machine.execLaneLock p s
  | .eqConverged e => Sys2Proof.Machine.execEqConverged e s
  | .partnerAligned p => Sys2Proof.Machine.execPartnerAligned p s
  | .hello p rec => Sys2Proof.Machine.execHello p rec s
  | .trainingLimit p => Sys2Proof.Machine.execTrainingLimit p s
  | .lossOfLight p => Sys2Proof.Machine.execLossOfLight p s
  | .lossOfLock p => Sys2Proof.Machine.execLossOfLock p s
  | .alignmentLost p => Sys2Proof.Machine.execAlignmentLost p s
  | .retryExpiry p => Sys2Proof.Machine.execRetryExpiry p s
  | .controlBlock p cb => Sys2Proof.Machine.execControlBlock p cb s
  | .lnmWrite p pkt => Sys2Proof.Machine.execLnmWrite p pkt s
  | .lnmTierWrite p pkt => Sys2Proof.Machine.execLnmTierWrite p pkt s
  | .wack p pkt => Sys2Proof.Machine.execWack p pkt s
  | .regrd p pkt => Sys2Proof.Machine.execRegrd p pkt s
  | .regwr p pkt => Sys2Proof.Machine.execRegwr p pkt s
  | .cfgOpen p pkt => Sys2Proof.Machine.execCfgOpen p pkt s
  | .cfgData p pkt => Sys2Proof.Machine.execCfgData p pkt s
  | .cfgClose p pkt => Sys2Proof.Machine.execCfgClose p pkt s
  | .attReq p pkt => Sys2Proof.Machine.execAttReq p pkt s
  | .certChainRequest p pkt => Sys2Proof.Machine.execCertChainRequest p pkt s
  | .ingressIssue p => Sys2Proof.Machine.execIngressIssue p s
  | .ingressFrozenResend p => Sys2Proof.Machine.execIngressFrozenResend p s
  | .egressWrite p => Sys2Proof.Machine.execEgressWrite p s
  | .egressWindowWrite p e base v => Sys2Proof.Machine.execEgressWindowWrite p e base v s
  | .lnmTransmit p => Sys2Proof.Machine.execLnmTransmit p s
  | .calibrationWindow t len => Sys2Proof.Machine.execCalibrationWindow t len s
  | .frequencyLoop h => Sys2Proof.Machine.execFrequencyLoop h s
  | .powerCapLoop sample => Sys2Proof.Machine.execPowerCapLoop sample s
  | .thermalLoop h temp => Sys2Proof.Machine.execThermalLoop h temp s
  | .junctionOverride h temp => Sys2Proof.Machine.execJunctionOverride h temp s
  | .currentOverride sample => Sys2Proof.Machine.execCurrentOverride sample s
  | .voltageOverride sample => Sys2Proof.Machine.execVoltageOverride sample s
  | .overrideStep h temp sample => Sys2Proof.Machine.execOverrideStep h temp sample s
  | .thermTrip j temp => Sys2Proof.Machine.execThermTrip j temp s
  | .vinFault sample => Sys2Proof.Machine.execVinFault sample s
  | .halfPowerOff h => Sys2Proof.Machine.execHalfPowerOff h s
  | .halfPowerOn h => Sys2Proof.Machine.execHalfPowerOn h s
  | .tileIdleEntry t => Sys2Proof.Machine.execTileIdleEntry t s
  | .tileNapEntry t => Sys2Proof.Machine.execTileNapEntry t s
  | .napCommit t => Sys2Proof.Machine.execNapCommit t s
  | .tileWake t => Sys2Proof.Machine.execTileWake t s
  | .pwrD0 => Sys2Proof.Machine.execPwrD0 s
  | .pwrDidle => Sys2Proof.Machine.execPwrDidle s
  | .pwrDstandby => Sys2Proof.Machine.execPwrDstandby s
  | .didleAuto => Sys2Proof.Machine.execDidleAuto s
  | .deviceStateCommit w => Sys2Proof.Machine.execDeviceStateCommit w s
  | .deviceWake src w => Sys2Proof.Machine.execDeviceWake src w s
  | .comparatorFire cmp value w => Sys2Proof.Machine.execComparatorFire cmp value w s
  | .powerApplied w => Sys2Proof.Machine.execPowerApplied s w
  | .powerEnable w => Sys2Proof.Machine.execPowerEnable w s
  | .powerDisable => Sys2Proof.Machine.execPowerDisable s
  | .resetAssert low => Sys2Proof.Machine.execResetAssert s low
  | .resetDeassert w => Sys2Proof.Machine.execResetDeassert w s
  | .referenceClockLost clk => Sys2Proof.Machine.execReferenceClockLost clk s
  | .save => Sys2Proof.Machine.execSave s
  | .shutdown => Sys2Proof.Machine.execShutdown s
  | .saveComplete ok => Sys2Proof.Machine.execSaveComplete ok s
  | .fuseKeySlot => Sys2Proof.Machine.execFuseKeySlot s
  | .fuseRevoke => Sys2Proof.Machine.execFuseRevoke s
  | .fusePolicyBit => Sys2Proof.Machine.execFusePolicyBit s
  | .fuseFieldRepair => Sys2Proof.Machine.execFuseFieldRepair s
  | .fuseDebugKeyHash => Sys2Proof.Machine.execFuseDebugKeyHash s
  | .fuseProgramDone ok => Sys2Proof.Machine.execFuseProgramDone ok s
  | .attExtend v => Sys2Proof.Machine.execAttExtend v s
  | .attestationRequest => Sys2Proof.Machine.execAttestationRequest s
  | .reportSigned => Sys2Proof.Machine.execReportSigned s
  | .bypass bits => Sys2Proof.Machine.execBypass bits s
  | .idcode trst => Sys2Proof.Machine.execIdcode s trst
  | .samplePreload pins cells => Sys2Proof.Machine.execSamplePreload pins cells s
  | .extest pins cells => Sys2Proof.Machine.execExtest pins cells s
  | .dbgunlock key sig => Sys2Proof.Machine.execDbgunlock key sig s
  | .mgtacc write addr v => Sys2Proof.Machine.execMgtacc write addr v s
  | .mgtWatchdog => Sys2Proof.Machine.execMgtWatchdog s
  | .halt page => Sys2Proof.Machine.execHalt page s
  | .haltRelease page => Sys2Proof.Machine.execHaltRelease page s
  | .mgtFlashWrite v => Sys2Proof.Machine.execMgtFlashWrite v s
  | .mgtRd t => Sys2Proof.Machine.execMgtRd t s
  | .mgtWr t => Sys2Proof.Machine.execMgtWr t s
  | .mgtResp => Sys2Proof.Machine.execMgtResp s
  | .mgtRunstate t => Sys2Proof.Machine.execMgtRunstate t s
  | .mgtArm t => Sys2Proof.Machine.execMgtArm t s
  | .mgtDisarm t => Sys2Proof.Machine.execMgtDisarm t s
  | .mgtArmAck => Sys2Proof.Machine.execMgtArmAck s
  | .pgVerWrite path page v => Sys2Proof.Machine.execPgVerWrite path page v s
  | .regWrite x pec => Sys2Proof.Machine.execRegWrite x pec s
  | .regRead x pec => Sys2Proof.Machine.execRegRead x s pec
  | .regResult => Sys2Proof.Machine.execRegResult s
  | .dbgWrite x pec => Sys2Proof.Machine.execDbgWrite x pec s
  | .dbgRead x pec => Sys2Proof.Machine.execDbgRead x s pec
  | .registerWrite path addr v => Sys2Proof.Machine.execRegisterWrite path addr v s
  | .packetDrop p seq got => Sys2Proof.Machine.execPacketDrop p seq got s
  | .superframe p fec => Sys2Proof.Machine.execSuperframe p s fec
  | .helloSend p => Sys2Proof.Machine.execHelloSend p s
  | .refreshRateChange u need => Sys2Proof.Machine.execRefreshRateChange u need s
  | .failedChannel ch => Sys2Proof.Machine.execFailedChannel ch s
  | .powerRemoved => Sys2Proof.Machine.execPowerRemoved s
  | .setdasa sa da => Sys2Proof.Machine.execSetdasa sa da s
  | .entdaa da => Sys2Proof.Machine.execEntdaa da s

end Sys2Proof.Machine
end

