-- ==== Sys2Proof/Machine/Tick.lean ====
section
/-! DEFINITION.
The clock: what one nanosecond does whatever is commanded. It carries wall time, the nightwatch count
(R474), the tile cycles (R454 to R456), the counts that run by the cycle (R189, R202, R229, R339, R462,
R463), and the decisions that the power manager takes by itself (R461, R462, R467, R468). -/

namespace Sys2Proof.Machine

/-- A tile cycle of the plane sequence (R202): the dwell is counted, and the switch falls due at its end;
from then on the switch cycle and those after it are counted until PLANE_SWITCH. -/
def Tile.dwellCycle (x : Tile) : Tile :=
  if x.pseqLen ≤ 1 ∨ x.cfg.flushed then x
  else if x.fab.switchDue then { x with fab := { x.fab with switchOver := x.fab.switchOver + 1 } }
  else
    let d := x.fab.dwell + 1
    { x with fab := { x.fab with dwell := d, switchDue := decide (d ≥ (x.pseq x.cfg.step).2) } }

/-- A cycle of the progress watches (R189, R229, R386). -/
def Tile.watchCycle (heldUp : Nat → Bool) (x : Tile) : Tile :=
  let x := (List.range 34).foldl (fun x p =>
    if x.portStalled p then x.setPort p { x.port p with watch := (x.port p).watch + 1 } else x) x
  let x := (List.range 4).foldl (fun x l =>
    if x.landStalled l then x.setLanding l { x.landing l with watch := (x.landing l).watch + 1 } else x) x
  (List.range 8).foldl (fun x r =>
    if x.recStalled heldUp r then x.setCh r { x.ch r with watch := (x.ch r).watch + 1 } else x) x

/-- The round's TIMEOUT runs from its first staged acknowledgement (R339). -/
def Tile.ackCycle (x : Tile) : Tile :=
  let k := x.cg.coord
  if k.st = 1 ∧ k.firstAck.isNone ∧ x.staged > 0 then x.setCoord { k with firstAck := some x.clk.cyc } else x

/-- A cycle in which an engine has begun or carried on a firing counts as engine time of the tile's owner, once whichever
engines fire (R333); one in which a firing only waits does not (DEDUCED, log 136). -/
def engineCycle (t : Nat) (s : State) : State :=
  let x := s.tile t
  if !x.fired then s
  else
    let s := s.onTile t (fun x => { x with fired := false })
    match x.owner with
    | none => s
    | some c => account c (acctTime + halfOf t) x.clk.per (account c (acctEng + halfOf t) 1 (accountAll (acctEngAll + halfOf t) 1 s))

/-- One cycle of an ACTIVE tile. -/
def activeCycle (t : Nat) (s : State) : State :=
  let idle := s.idleTile t
  s.onTile t (fun x =>
    let x := ((x.dwellCycle).watchCycle s.heldUp).ackCycle
    { x with clk := { x.clk with idleCnt := if idle then x.clk.idleCnt + 1 else 0 } })

/-- A cycle of the power controller of a tile whose context is PREEMPTED: the idle timers go on, and nothing else of
the tile does (R329, R462, R463). -/
def restCycle (t : Nat) (s : State) : State :=
  let idle := s.idleTile t
  s.onTile t (fun x => { x with clk :=
    if x.clk.pstate = .active then { x.clk with idleCnt := if idle then x.clk.idleCnt + 1 else 0 }
    else { x.clk with napCnt := x.clk.napCnt + 1 } })

/-- One nanosecond at a tile: a cycle ends when the phase has reached P (R454, R456). -/
def tickTile (t : Nat) (s : State) : State :=
  let x := s.tile t
  let go := (x.clk.pstate == .active || x.clk.pstate == .idle) && (!x.cfg.halted || x.cfg.frozen)
  if !go || x.clk.per == 0 then s
  else
    let ph := x.clk.phase + 65536
    if ph < x.clk.per then s.onTile t (fun x => { x with clk := { x.clk with phase := ph } })
    else if x.cfg.halted then
      restCycle t (s.onTile t (fun x => { x with clk := { x.clk with phase := ph - x.clk.per } }))
    else
      let s := s.onTile t (fun x => { x with clk := { x.clk with phase := ph - x.clk.per, cyc := x.clk.cyc + 1 } })
      let s := fanCycle t (engineCycle t s)
      if x.clk.pstate = .active then activeCycle t s
      else s.onTile t (fun x => { x with clk := { x.clk with napCnt := x.clk.napCnt + 1 } })

/-- The D-idle timer runs while nothing refuses the entry (R467). -/
def didleTimer (s : State) : State :=
  let quiet := s.mgt.boot == 2 && s.pwr.dstate == 0 && s.pwr.entering.isNone && s.idleRefuser.isNone
  { s with pwr := { s.pwr with didleFrom := if quiet then some (s.pwr.didleFrom.getD s.time) else none } }

/-- One nanosecond. -/
def tick (s : State) : State :=
  let s := { s with time := s.time + 1, pwr := { s.pwr with nwNs := s.pwr.nwNs + (if s.brd.v40 then 1 else 0) } }
  let s := s.tiles.foldl (fun s (t, _) => tickTile t s) s
  didleTimer (retryOff (unownedOff (toCommit s)))

end Sys2Proof.Machine
end

