-- ==== Sys2Proof/Machine/Step.lean ====
section
/-! DEFINITION.
The step of the block: the command at the front of the queue, or, on an empty queue, one nanosecond. -/

namespace Sys2Proof.Machine

/-- A state whose queue of waiting commands is `l`. -/
def State.queue (s : State) (l : List Instr) : State := { s with pending := l }

/-- One step (assumption log 1): the front command acts, first in first out; without one, time passes. -/
def step (s : State) : Host.Outcome State Fault Refusal :=
  match s.pending with
  | [] => .next (tick s)
  | c :: rest => exec c (s.queue rest)

/-- The command that a table word spells, put at the front of the queue; the rows of the table give no
bits, so no word spells one. -/
def State.withFetchWord (s : State) (nbits w : Nat) : State :=
  match decodeTableWord nbits w with
  | some i => s.queue (i :: s.pending)
  | none => s

end Sys2Proof.Machine
end

