-- ==== Sys2Proof/Safety.lean ====
section
/-! DEFINITION.
The terms claims are stated in: a command that completes, what a command at a tile leaves alone, and
the invariants of the device. -/

namespace Sys2Proof.Machine

/-- What the handling of an error leaves alone: two states that differ in contexts, headers,
statistics, device registers, the log, messages on their way, ports and stops at most. -/
structure Kept (s s' : State) : Prop where
  pending : s'.pending = s.pending
  time : s'.time = s.time
  freeCtr : s'.freeCtr = s.freeCtr
  tiles : s'.tiles = s.tiles
  rr : s'.rr = s.rr
  inbox : s'.inbox = s.inbox
  cast : s'.cast = s.cast
  gx : s'.gx = s.gx
  gxMask : s'.gxMask = s.gxMask
  mov : s'.mov = s.mov
  mem : s'.mem = s.mem
  pwr : s'.pwr = s.pwr
  mgt : s'.mgt = s.mgt
  brd : s'.brd = s.brd

end Sys2Proof.Machine

namespace Sys2Proof

open Machine

/-- What a report touches, and nothing else (R365, R444, R518): page headers, statistics, the error log
and its loss count, and the ports' event queues. Two states that differ in no more than that. -/
structure Reports (s s' : State) : Prop where
  rest : s' = { s with hdrs := s'.hdrs, stats := s'.stats, dev := s'.dev, log := s'.log, lnm := s'.lnm }
  dev : ∀ pg off, rkey pg off ≠ rkey pgErr 0x110 → s'.devReg pg off = s.devReg pg off
  lnm : ∀ p, s'.port p = { s.port p with evq := (s'.port p).evq, evseq := (s'.port p).evseq }

/-- The same for a command the management processor serves: it has also read the unit (R498), which
moves its copies and the counter of the open values. -/
def Acted (s s' : State) : Prop :=
  Reports { s with freeCtr := s'.freeCtr, mgt := { s.mgt with copies := s'.mgt.copies } } s'

/-- The command takes the device to a next state, of which P holds. -/
def Completes (c : Instr) (s : State) (P : State → Prop) : Prop :=
  ∃ s', Machine.exec c s = .next s' ∧ P s'

/-- Nothing but tile t changes: every other tile and all the rest of the device is as before. -/
structure OnlyTile (t : Nat) (s s' : State) : Prop where
  rest : s' = { s with tiles := s'.tiles }
  others : ∀ u, u ≠ t → s'.tile u = s.tile u

/-- Nothing but tile t and the statistics changes. -/
structure OnlyTileStats (t : Nat) (s s' : State) : Prop where
  rest : s' = { s with tiles := s'.tiles, stats := s'.stats }
  others : ∀ u, u ≠ t → s'.tile u = s.tile u

/-- What a command at tile t leaves alone whatever it reports: every other tile, the memory tiers and
movers, the castings, the gradient engines, the power state, the board and the clock. -/
structure TileLocal (t : Nat) (s s' : State) : Prop where
  others : ∀ u, u ≠ t → s'.tile u = s.tile u
  mem : s'.mem = s.mem
  mov : s'.mov = s.mov
  cast : s'.cast = s.cast
  gx : s'.gx = s.gx
  gxMask : s'.gxMask = s.gxMask
  brd : s'.brd = s.brd
  time : s'.time = s.time
  pending : s'.pending = s.pending

/-- A tile's configuration and engines are as before: only scratchpad bytes, handle queues, the message
port and the list of stopped units may differ. -/
structure SameEngines (x y : Tile) : Prop where
  clk : y.clk = x.clk
  cfg : y.cfg = x.cfg
  mtx : y.mtx = x.mtx
  vec : y.vec = x.vec
  row : y.row = x.row
  gens : y.gens = x.gens
  flags : y.flags = x.flags
  fab : y.fab = x.fab
  nests : y.nests = x.nests
  fault : y.fault = x.fault
  cg : y.cg = x.cg
  waits : y.waits = x.waits
  ret : y.ret = x.ret

/-- A message whose OP is `op` and which may take effect stands at the head of tile t's inbox: complete,
whole, true to its row, its payload good, the tile clocked, and its target context admitted (R211, R215, R216, R219). -/
def MsgReady (t op : Nat) (m : Msg) (s : State) : Prop :=
  s.present t = true ∧ (s.tile t).gated = false ∧ m.op = op ∧
  (s.headMsg t).map (fun im => (im.msg, msgFault im)) = some (m, none) ∧
  turnAway (s.tile t) m = none

/-- An answer whose OP is `op` stands at the head of tile t's inbox, and the tile, which its asker owns,
is neither frozen nor restarting (R219, R239, R358). -/
def AnswerReady (t op : Nat) (m : Msg) (s : State) : Prop :=
  s.present t = true ∧ (s.tile t).gated = false ∧ m.op = op ∧
  (s.headMsg t).map (fun im => (im.msg, msgFault im)) = some (m, none) ∧
  (s.tile t).asked m = true ∧ (s.tile t).cfg.frozen = false

/-- The message has been taken from the unit's inbox: what stood behind it stands there now. -/
def Taken (u : Nat) (s s' : State) : Prop := s'.inbox = s.inbox.upd u [] List.tail

/-- The packets of message m are the last ones queued where its sender enters the network (R215, R398). -/
def Sent (m : Msg) (s : State) : Prop :=
  ∃ l, s.routers.get (rkeyOf (entryPoint m).1 (entryPoint m).2) [] = l ++ packets m

end Sys2Proof
end

