-- ==== Sys2Proof/Certificates/Slice0/Obligations.lean ====
section
/-! DEFINITION.
The statements for the provers: one `def Obligations.<Name> : Prop` each, with the predicates that say
when a command is ready to have its own effect. -/

open Sys2Proof Sys2Proof.Machine

namespace Sys2Proof

/-! ### The scratchpad, windows and handles (chapter 02) -/

/-- A tile once request r is served: a masked write of its line, or a read, which leaves the array and gives the
requester its line (R30). -/
def servedTile (r : BankReq) (x : Tile) : Tile :=
  match r.store with
  | some ws => ws.foldl (fun y b => y.wrMask (r.addr / 64 * 64 + b.1 % 64) b.2.1 b.2.2) x
  | none => { x with ret := x.ret.put r.who (some (x.rd (r.addr / 64 * 64) 64)) none }

/-- One request of a bank that is on is served (R30, R36); no one waits any longer, and nothing else changes. -/
def ScratchpadAccessServesOneRequest : Prop :=
  ∀ (t : Nat) (r : BankReq) (s : State),
    s.present t = true → (s.tile t).bankOn (bankOf (s.tile t).ilv r.addr) = true →
    Completes (.scratchpadAccess t [r] []) s (fun s' => OnlyTile t s s' ∧
      s'.tile t = { servedTile r (s.tile t) with waits := [] })

/-- The bank serves requester p before q (R36): one that has waited two consecutive cycles goes ahead of one that has
not, and then the order of the table decides. -/
def GoesFirst (x : Tile) (p q : BankReq) : Prop :=
  (2 ≤ x.waits.get p.who 0 ∧ x.waits.get q.who 0 < 2) ∨
  ((2 ≤ x.waits.get p.who 0 ↔ 2 ≤ x.waits.get q.who 0) ∧ p.who < q.who)

/-- Two requesters p and q of the table address one bank in one cycle. -/
def MeetAtABank (t b : Nat) (p q : BankReq) (reqs : List BankReq) (s : State) : Prop :=
  s.present t = true ∧ (reqs = [p, q] ∨ reqs = [q, p]) ∧ p.who ≤ 10 ∧ q.who ≤ 10 ∧ p.who ≠ q.who ∧
  bankOf (s.tile t).ilv p.addr = b ∧ bankOf (s.tile t).ilv q.addr = b

/-- p is served and q waits, which the bank's statistic counts, and for the static fabric the tile's too (R36, R177). -/
def ServedAndWaits (t b : Nat) (p q : BankReq) (s s' : State) : Prop :=
  OnlyTileStats t s s' ∧
  s'.tile t = { servedTile p (s.tile t) with waits := [(q.who, (s.tile t).waits.get q.who 0 + 1)] } ∧
  s'.stats.get (rkey (pgTile t 1) (0x40 + 8 * b)) 0 =
    (s.stats.get (rkey (pgTile t 1) (0x40 + 8 * b)) 0 + 1) % 2 ^ 64 ∧
  s'.stats.get (rkey (pgTile t 0) 0x50) 0 =
    (if q.who = 1 then (s.stats.get (rkey (pgTile t 0) 0x50) 0 + 1) % 2 ^ 64
      else s.stats.get (rkey (pgTile t 0) 0x50) 0)

/-- Two requesters meet at a bank that is on: in stall mode one is served and the other waits (R36); in fault mode two
other than the debug port raise BANK_CONFLICT, and neither access takes place, and the debug port waits (R37). -/
def RequestersMeetAtABank : Prop :=
  ∀ (t b : Nat) (p q : BankReq) (reqs : List BankReq) (s : State), MeetAtABank t b p q reqs s →
    ((s.tile t).bankOn b = true → bit (s.tile t).spctrl 18 = false → GoesFirst (s.tile t) p q →
      Completes (.scratchpadAccess t reqs []) s (ServedAndWaits t b p q s)) ∧
    ((s.tile t).bankOn b = true → bit (s.tile t).spctrl 18 = true → q.who = 10 →
      Completes (.scratchpadAccess t reqs []) s (ServedAndWaits t b p q s)) ∧
    (bit (s.tile t).spctrl 18 = true → p.who ≠ 10 → q.who ≠ 10 →
      Completes (.scratchpadAccess t reqs []) s (fun s' => TileLocal t s s' ∧
        bit (s'.hdr (pgTile t 1)).err Err.bankConflict.bit = true ∧
        (s'.tile t).sp = (s.tile t).sp ∧ (s'.tile t).ret = (s.tile t).ret ∧ (s'.tile t).waits = [] ∧
        ∀ r ∈ reqs, ∀ u, reqUnit r = some u → u ∈ (s'.tile t).stopped))

/-- A request of a bank that is off raises BANK_OFF, reads nothing and leaves nothing behind (R39); the debug port's read
raises nothing and finds zeros (R501). -/
def AccessesOfBanksThatAreOff : Prop :=
  ∀ (t : Nat) (r : BankReq) (s : State),
    s.present t = true → (s.tile t).bankOn (bankOf (s.tile t).ilv r.addr) = false →
    ((r.who ≠ 10 ∨ r.store ≠ none) →
      Completes (.scratchpadAccess t [r] []) s (fun s' => TileLocal t s s' ∧
        bit (s'.hdr (pgTile t 1)).err Err.bankOff.bit = true ∧ (s'.tile t).sp = (s.tile t).sp ∧
        (s'.tile t).ret = (if r.store = none then (s.tile t).ret.put r.who none none else (s.tile t).ret))) ∧
    (r.who = 10 → r.store = none →
      Completes (.scratchpadAccess t [r] []) s (fun s' => OnlyTile t s s' ∧ s'.tile t = { s.tile t with
        ret := (s.tile t).ret.put 10 (some (List.replicate 64 0)) none, waits := [] }))

/-- An access that meets wrong words of its line (R41): single-bit errors are corrected and raise SP_CORRECTED, and the
access is served; a double-bit error raises SP_UNCORRECTABLE, and a read that meets one returns nothing; both are raised
where it meets both. Wrong words of other lines are not met. -/
def AccessesMeetWrongWords : Prop :=
  ∀ (t : Nat) (r : BankReq) (ecc : List Upset) (s : State),
    s.present t = true → (s.tile t).bankOn (bankOf (s.tile t).ilv r.addr) = true →
    ((∀ e ∈ ecc, e.addr / 64 ≠ r.addr / 64) →
      Completes (.scratchpadAccess t [r] ecc) s (fun s' => OnlyTile t s s' ∧
        s'.tile t = { servedTile r (s.tile t) with waits := [] })) ∧
    ((∃ e ∈ ecc, e.addr / 64 = r.addr / 64) → (∀ e ∈ ecc, e.addr / 64 = r.addr / 64 → e.dbl = false) →
      Completes (.scratchpadAccess t [r] ecc) s (fun s' => TileLocal t s s' ∧
        bit (s'.hdr (pgTile t 1)).err Err.spCorrected.bit = true ∧ s'.ctxs = s.ctxs ∧
        s'.tile t = { servedTile r (s.tile t) with waits := [] })) ∧
    ((∃ e ∈ ecc, e.addr / 64 = r.addr / 64 ∧ e.dbl = true) →
      Completes (.scratchpadAccess t [r] ecc) s (fun s' => TileLocal t s s' ∧
        bit (s'.hdr (pgTile t 1)).err Err.spUncorrectable.bit = true ∧
        ((∃ e ∈ ecc, e.addr / 64 = r.addr / 64 ∧ e.dbl = false) →
          bit (s'.hdr (pgTile t 1)).err Err.spCorrected.bit = true) ∧
        (r.store = none → (s'.tile t).sp = (s.tile t).sp ∧
          (s'.tile t).ret = (s.tile t).ret.put r.who none none)))

/-- A masked write of one byte merges the masked bits and leaves every other byte (R30), under each
interleave (R31). -/
def MaskedByteWrite : Prop :=
  ∀ (x : Tile) (a : Nat) (v m : Byte), a < 2 ^ 20 → x.bankOn (bankOf x.ilv a) = true →
    (x.wrMask a v m).rd1 a = ((x.rd1 a &&& ~~~m) ||| (v &&& m)) ∧
    ∀ b, b < 2 ^ 20 → b ≠ a → (x.wrMask a v m).rd1 b = x.rd1 b

/-- A run of bytes written to lines whose banks are on reads back, and every byte outside it reads as
before (R30, R31, R39). -/
def ScratchpadReadAfterWrite : Prop :=
  ∀ (x : Tile) (a : Nat) (bs : List Byte), x.linesOn a bs.length = true →
    (x.wr a bs).rd a bs.length = bs ∧
    ∀ b, b < 2 ^ 20 → (b < a ∨ a + bs.length ≤ b) → (x.wr a bs).rd1 b = x.rd1 b

/-- A window entry that passes the checks is written, and no other register of the tile is (R42, R43);
one that fails them is ignored and sets WIN_ENTRY (R43). -/
def WindowEntryWriteTakesOnlyGoodEntries : Prop :=
  ∀ (t : Nat) (win : Fin 16) (v : Word) (s : State),
    s.present t = true → s.mgt.boot = 2 → (s.tile t).clk.pstate ≠ .off →
    (winOk (s.tile t).spctrl (winMask v) = true →
      Completes (.windowEntryWrite t win v) s (fun s' => TileLocal t s s' ∧
        (s'.tile t).win win = Win.ofWord (winMask v) ∧
        (∀ k off, rkey k off ≠ rkey 1 (0x180 + 8 * win.val) → (s'.tile t).reg k off = (s.tile t).reg k off) ∧
        (s'.tile t).sp = (s.tile t).sp ∧ (s'.tile t).hq = (s.tile t).hq)) ∧
    (winOk (s.tile t).spctrl (winMask v) = false →
      Completes (.windowEntryWrite t win v) s (fun s' => TileLocal t s s' ∧
        (s'.tile t).cfg = (s.tile t).cfg ∧ bit (s'.hdr (pgTile t 1)).err Err.winEntry.bit = true))

end Sys2Proof

/-- A masked byte write changes its masked bits only, and a write is read back with every other byte as before. -/
def Obligations.MaskedWritesReadBack : Prop :=
  MaskedByteWrite ∧ ScratchpadReadAfterWrite

/-- SCRATCHPAD_ACCESS and WINDOW_ENTRY_WRITE: a bank serves a request, makes requesters wait or reports their conflict,
a bank that is off and wrong words are reported, and a window entry is written if it is good. -/
def Obligations.ScratchpadsServeRequestsAndWindows : Prop :=
  ScratchpadAccessServesOneRequest ∧ RequestersMeetAtABank ∧ AccessesOfBanksThatAreOff ∧ AccessesMeetWrongWords ∧
  WindowEntryWriteTakesOnlyGoodEntries

namespace Sys2Proof

/-! ### Loop nests (chapter 08) -/

/-- Nest n of the live plane stands at item i, with `rest` behind it (R257). -/
def NestAt (t n : Nat) (k : Nest) (i : NItem) (rest : List NItem) (s : State) : Prop :=
  s.present t = true ∧ s.liveNest t n = some k ∧ k.todo = i :: rest

/-- The item is an action of this KIND with words w0, w1 (R255). -/
def ActionAt (t n kind : Nat) (k : Nest) (rest : List NItem) (w0 w1 : Word) (s : State) : Prop :=
  ∃ a, a < 8 ∧ NestAt t n k (.act a) rest s ∧ (s.tile t).act0 (s.tile t).cfg.plane n a = w0 ∧
    (s.tile t).act1 (s.tile t).cfg.plane n a = w1 ∧ actKind w0 = kind

/-- The nest has gone on to the next wait of `k` (R257). -/
def NestGoesOn (t n : Nat) (k : Nest) (s s' : State) : Prop :=
  (s'.tile t).nest (s.tile t).cfg.plane n = ((s.tile t).settle (s.tile t).cfg.plane n settleFuel k).1

/-- A local action of KIND `kind` completes at once: f says what becomes of counter CNT of the action,
and the nest goes on; the scratchpad, the queues and the other counters are left (R256). One that addresses a held
counter, which is LOST or frozen, has no effect, and the nest goes on (R239, R240). -/
def LocalAction (i : Instr) (t n kind : Nat) (f : Word → Tile → Nat → Nat) : Prop :=
  ∀ (k : Nest) (rest : List NItem) (w0 w1 : Word) (s : State), ActionAt t n kind k rest w0 w1 s →
    ((s.tile t).counterHeld (actCnt w0) = false →
      Completes i s (fun s' => TileLocal t s s' ∧ NestGoesOn t n { k with todo := rest } s s' ∧
        ((s'.tile t).counter (actCnt w0)).value = f w0 (s.tile t) ((s.tile t).counter (actCnt w0)).value ∧
        (∀ d, d ≠ actCnt w0 → (s'.tile t).counter d = (s.tile t).counter d) ∧
        (s'.tile t).sp = (s.tile t).sp ∧ (s'.tile t).hq = (s.tile t).hq)) ∧
    ((s.tile t).counterHeld (actCnt w0) = true →
      Completes i s (fun s' => TileLocal t s s' ∧ NestGoesOn t n { k with todo := rest } s s' ∧
        (s'.tile t).mp = (s.tile t).mp ∧ (s'.tile t).sp = (s.tile t).sp ∧ (s'.tile t).hq = (s.tile t).hq))

/-- The local actions: NONE and a WAIT that is met change no counter, INC adds and DEC subtracts with
saturation, RESET goes to BASE (R233, R234, R256); none of them changes a held counter (R239, R240). -/
def LocalActions : Prop :=
  ∀ (t : Nat) (n : Fin 8),
    LocalAction (.actionNone t n) t n 0 (fun _ _ v => v) ∧
    LocalAction (.actionInc t n) t n 2 (fun w _ v => min 0xFFFFFF (v + actAmt w)) ∧
    LocalAction (.actionDec t n) t n 3 (fun w _ v => v - actAmt w) ∧
    LocalAction (.actionReset t n) t n 4 (fun w x _ => fld (x.ccfg (actCnt w)) 0 24) ∧
    ∀ (k : Nest) (rest : List NItem) (w0 w1 : Word) (s : State), ActionAt t n 1 k rest w0 w1 s →
      actAmt w0 ≤ ((s.tile t).counter (actCnt w0)).value →
      Completes (.actionWait t n) s (fun s' => TileLocal t s s' ∧ NestGoesOn t n { k with todo := rest } s s' ∧
        (s'.tile t).mp = (s.tile t).mp ∧ (s'.tile t).sp = (s.tile t).sp ∧ (s'.tile t).hq = (s.tile t).hq)

/-- A WAIT that is not met waits: the tile is as before (R256). -/
def WaitActionWaits : Prop :=
  ∀ (t : Nat) (n : Fin 8) (k : Nest) (rest : List NItem) (w0 w1 : Word) (s : State),
    ActionAt t n 1 k rest w0 w1 s → ((s.tile t).counter (actCnt w0)).value < actAmt w0 →
    Machine.exec (.actionWait t n) s = .next s

/-- The command is a message action of KIND `kind` that need not wait for a fence: its counter message
of OP `op` leaves for the unit the action names, and the nest goes on (R213, R255, R256). -/
def MessageAction (i : Instr) (t n kind op : Nat) : Prop :=
  ∀ (k : Nest) (rest : List NItem) (w0 w1 : Word) (s : State), ActionAt t n kind k rest w0 w1 s →
    k.claimSent = false → (bit w0 36 = false ∨ (s.tile t).unackedAt (fld w1 17 13) = []) →
    s.unitExists (fld w1 0 13) = true →
    Completes i s (fun s' => TileLocal t s s' ∧ NestGoesOn t n { k with todo := rest } s s' ∧
      (s'.tile t).mp.tag = ((s.tile t).mp.tag + 1) % 2 ^ 32 ∧
      (s'.tile t).mp.counters = (s.tile t).mp.counters ∧ (s'.tile t).sp = (s.tile t).sp ∧
      (s'.tile t).hq = (s.tile t).hq ∧
      Sent (fromTile s t op (fld w1 0 13) (fld w1 48 3)
        (if op = 0x0C then actW1 k w0 w1 else setFld (actW1 k w0 w1) 37 24 0) (s.tile t).mp.tag) s')

/-- CINC, CDEC and CWAIT actions send their messages; a CLAIM of another tile's counter sends its CLAIM
and waits for the answer, one of the tile's own counter is taken at once (R256, R259). -/
def MessageActions : Prop :=
  ∀ (t : Nat) (n : Fin 8),
    MessageAction (.actionCinc t n) t n 5 0x08 ∧ MessageAction (.actionCdec t n) t n 6 0x09 ∧
    MessageAction (.actionCwait t n) t n 7 0x0C ∧
    ∀ (k : Nest) (rest : List NItem) (w0 w1 : Word) (s : State), ActionAt t n 8 k rest w0 w1 s →
      k.claimSent = false →
      (fld w1 0 13 ≠ t → (bit w0 36 = false ∨ (s.tile t).unackedAt (fld w1 17 13) = []) →
        s.unitExists (fld w1 0 13) = true →
        Completes (.actionClaim t n) s (fun s' => TileLocal t s s' ∧
          (s'.tile t).nest (s.tile t).cfg.plane n = { k with claimSent := true } ∧
          (s'.tile t).mp.counters = (s.tile t).mp.counters ∧ (s'.tile t).sp = (s.tile t).sp ∧
          Sent (fromTile s t 0x0A (fld w1 0 13) (fld w1 48 3) (actW1 k w0 w1) (s.tile t).mp.tag) s')) ∧
      (fld w1 0 13 = t → (s.tile t).cfg.frozen = false → ((s.tile t).counter (fld w1 13 4)).lost = false →
        ((s.tile t).counter (fld w1 13 4)).satHi = false →
        ((s.tile t).counter (fld w1 13 4)).value + actAmt w0 ≤ 0xFFFFFF →
        Completes (.actionClaim t n) s (fun s' => TileLocal t s s' ∧
          (s'.tile t).nest (s.tile t).cfg.plane n = { k with claimSent := true } ∧
          ((s'.tile t).counter (fld w1 13 4)).value = ((s.tile t).counter (fld w1 13 4)).value + actAmt w0 ∧
          (s'.tile t).fab.nestWords = (s.tile t).fab.nestWords ++
            [(true, ((s.tile t).counter (fld w1 13 4)).value)] ∧ (s'.tile t).sp = (s.tile t).sp))

/-- The claim register takes the value and status of a local claim's word (R259); a level with SRC 1
takes one word of at most 65,535 as its count (R252). -/
def NestsTakeWords : Prop :=
  ∀ (t : Nat) (n : Fin 8) (k : Nest) (rest : List NItem) (s : State),
    (∀ (w0 w1 : Word) (w : Nat) (ws : List (Bool × Nat)), ActionAt t n 8 k rest w0 w1 s →
      k.claimSent = true → fld w1 0 13 = t → (s.tile t).fab.nestWords = (true, w) :: ws →
      w / 2 ^ 24 % 256 ≠ 2 →
      Completes (.claimRegisterLoad t n) s (fun s' => TileLocal t s s' ∧
        NestGoesOn t n { k with claim := some (w % 2 ^ 24, actAmt w0, w / 2 ^ 24 % 256),
                                claimSent := false, todo := rest } s s' ∧
        (s'.tile t).fab.nestWords = ws ∧ (s'.tile t).mp = (s.tile t).mp ∧ (s'.tile t).sp = (s.tile t).sp)) ∧
    (∀ (pos w : Nat) (b : Bool) (ws : List (Bool × Nat)), NestAt t n k (.begin pos) rest s →
      lvSrc ((s.tile t).lvl0 (s.tile t).cfg.plane n ((s.tile t).levelAt (s.tile t).cfg.plane n pos)) = 1 →
      (s.tile t).fab.nestWords = (b, w) :: ws → w ≤ 65535 →
      Completes (.nestWordTake t n) s (fun s' => TileLocal t s s' ∧
        NestGoesOn t n ((s.tile t).beginRange (s.tile t).cfg.plane n pos 0 w k rest) s s' ∧
        (s'.tile t).fab.nestWords = ws ∧ (s'.tile t).mp = (s.tile t).mp ∧ (s'.tile t).sp = (s.tile t).sp))

/-- At a start point the pops and then the actions become due; at an end point without operands to
release, once no firing is outstanding, the actions do (R257); a waiting pop takes its queue's head
handle (R53, R260). -/
def NestPointsAndPops : Prop :=
  ∀ (t : Nat) (n : Fin 8) (k : Nest) (rest : List NItem) (s : State),
    (∀ l, NestAt t n k (.startPt l) rest s →
      Completes (.nestStartPoint t n) s (fun s' => TileLocal t s s' ∧
        NestGoesOn t n
          { k with
              todo := ((s.tile t).pointOps (s.tile t).cfg.plane n l).map .pop ++
                (s.tile t).pointActs (s.tile t).cfg.plane n l 0 ++ rest } s s' ∧
        (s'.tile t).mp = (s.tile t).mp ∧ (s'.tile t).sp = (s.tile t).sp ∧ (s'.tile t).hq = (s.tile t).hq)) ∧
    (∀ l, NestAt t n k (.endPt l) rest s → k.out = 0 →
      (s.tile t).pointOps (s.tile t).cfg.plane n l = [] →
      Completes (.nestEndPoint t n) s (fun s' => TileLocal t s s' ∧
        NestGoesOn t n { k with todo := (s.tile t).pointActs (s.tile t).cfg.plane n l 1 ++ rest } s s' ∧
        (s'.tile t).mp = (s.tile t).mp ∧ (s'.tile t).sp = (s.tile t).sp ∧ (s'.tile t).hq = (s.tile t).hq)) ∧
    (∀ (o q : Nat) (h : BitVec 32), NestAt t n k (.pop o) rest s →
      ((s.tile t).nbind (s.tile t).cfg.plane n o).sel % 4 = q → ((s.tile t).hqueue q).head? = some h →
      Completes (.handlePop t (.nest n)) s (fun s' => TileLocal t s s' ∧
        NestGoesOn t n
          { k with
              handles := (k.handles.filter (fun e => e.1 < o)) ++ (o, h) :: (k.handles.filter (fun e => e.1 > o)),
              todo := rest } s s' ∧
        (s'.tile t).hqueue q = ((s.tile t).hqueue q).tail ∧
        (∀ r, r ≠ q → (s'.tile t).hqueue r = (s.tile t).hqueue r) ∧ (s'.tile t).sp = (s.tile t).sp))

/-- HPUSH that makes no handle, or one that its queue turns away, raises `e`, leaves every queue as it is, stops the
nest, and is the tile's first nest fault unless one is recorded (R52, R53, R256, R263). -/
def HpushFails (t : Nat) (n : Fin 8) (w0 : Word) (e : Err) (cause : Nat) (s : State) : Prop :=
  Completes (.actionHpush t n) s (fun s' => TileLocal t s s' ∧
    bit (s'.hdr (pgTile t e.kind.tilePage)).err e.bit = true ∧
    (s'.tile t).hq = (s.tile t).hq ∧ (s'.tile t).mp = (s.tile t).mp ∧ (s'.tile t).sp = (s.tile t).sp ∧
    TUnit.nest n ∈ (s'.tile t).stopped ∧
    (bit (s.tile t).fault.b 47 = true → (s'.tile t).fault = (s.tile t).fault) ∧
    (bit (s.tile t).fault.b 47 = false → bit (s'.tile t).fault.b 47 = true ∧ fld (s'.tile t).fault.b 37 3 = cause ∧
      fld (s'.tile t).fault.b 32 3 = n ∧ fld (s'.tile t).fault.b 40 2 = fld w0 48 2))

/-- HPUSH pushes the handle it makes, and one that it cannot make or push raises HANDLE_BOUNDS or HQ_OVERFLOW (R52,
R53, R256); CHRET returns lines of a bound ring (R227); OPEN opens
a closed SEND record and CLOSE one that is opening (R223). -/
def QueueAndChannelActions : Prop :=
  ∀ (t : Nat) (n : Fin 8) (k : Nest) (rest : List NItem) (w0 w1 : Word) (s : State),
    (∀ h, ActionAt t n 9 k rest w0 w1 s → actHandle (s.tile t) (s.tile t).cfg.plane n k w0 = some h →
      (s.tile t).pushRes (fld w0 53 2) h = .ok →
      Completes (.actionHpush t n) s (fun s' => TileLocal t s s' ∧ NestGoesOn t n { k with todo := rest } s s' ∧
        (s'.tile t).hqueue (fld w0 53 2) = (s.tile t).hqueue (fld w0 53 2) ++ [h] ∧
        (s'.tile t).mp = (s.tile t).mp ∧ (s'.tile t).sp = (s.tile t).sp)) ∧
    (ActionAt t n 9 k rest w0 w1 s → actHandle (s.tile t) (s.tile t).cfg.plane n k w0 = none →
      HpushFails t n w0 .handleBounds 5 s) ∧
    (∀ h, ActionAt t n 9 k rest w0 w1 s → actHandle (s.tile t) (s.tile t).cfg.plane n k w0 = some h →
      ((s.tile t).pushRes (fld w0 53 2) h = .bounds → HpushFails t n w0 .handleBounds 5 s) ∧
      ((s.tile t).pushRes (fld w0 53 2) h = .full → HpushFails t n w0 .hqOverflow 3 s)) ∧
    (ActionAt t n 10 k rest w0 w1 s → ((s.tile t).ch (fld w0 50 3)).st = .bound →
      actAmt w0 ≤ ((s.tile t).ch (fld w0 50 3)).credit →
      Completes (.actionChret t n) s (fun s' => TileLocal t s s' ∧ NestGoesOn t n { k with todo := rest } s s' ∧
        ((s'.tile t).ch (fld w0 50 3)).credit = ((s.tile t).ch (fld w0 50 3)).credit - actAmt w0 ∧
        (s'.tile t).mp.counters = (s.tile t).mp.counters ∧ (s'.tile t).sp = (s.tile t).sp)) ∧
    (ActionAt t n 11 k rest w0 w1 s → recKind ((s.tile t).chrec (fld w0 50 3)) = 2 →
      ((s.tile t).ch (fld w0 50 3)).st = .closed →
      Completes (.actionOpen t n) s (fun s' => TileLocal t s s' ∧ NestGoesOn t n { k with todo := rest } s s' ∧
        ((s'.tile t).ch (fld w0 50 3)).st = .opening ∧
        (s'.tile t).mp.counters = (s.tile t).mp.counters ∧ (s'.tile t).sp = (s.tile t).sp)) ∧
    (ActionAt t n 12 k rest w0 w1 s → recKind ((s.tile t).chrec (fld w0 50 3)) = 2 →
      ((s.tile t).ch (fld w0 50 3)).st = .opening →
      Completes (.actionClose t n) s (fun s' => TileLocal t s s' ∧ NestGoesOn t n { k with todo := rest } s s' ∧
        ((s'.tile t).ch (fld w0 50 3)).closeReq = true ∧
        ((s'.tile t).ch (fld w0 50 3)).marked =
          ((s.tile t).hqueue (recHq ((s.tile t).chrec (fld w0 50 3)))).length ∧
        (s'.tile t).mp.counters = (s.tile t).mp.counters ∧ (s'.tile t).sp = (s.tile t).sp))

end Sys2Proof

/-- ACTION_NONE, ACTION_WAIT, ACTION_INC, ACTION_DEC and ACTION_RESET: the local actions of the nests take their
effect, and a wait action waits. -/
def Obligations.LocalActionsAndWaits : Prop :=
  LocalActions ∧ WaitActionWaits

/-- HANDLE_POP, CLAIM_REGISTER_LOAD, NEST_WORD_TAKE, NEST_END_POINT and NEST_START_POINT: nests take their words, run
their action points and pop their handles. -/
def Obligations.NestsTakeWordsAndPoints : Prop :=
  NestsTakeWords ∧ NestPointsAndPops

/-- ACTION_CINC, ACTION_CDEC, ACTION_CWAIT, ACTION_CLAIM, ACTION_HPUSH, ACTION_CHRET, ACTION_OPEN and ACTION_CLOSE:
the actions of the nests that send messages or push handles. -/
def Obligations.ActionsSendAndPush : Prop :=
  MessageActions ∧ QueueAndChannelActions

namespace Sys2Proof

/-! ### The matrix engine (chapter 04) -/

/-- The step opens its slot: none of the slots it covers is open (R253). -/
def mmaFirst (t n : Nat) (k : Nest) (d : MDesc) (s : State) : Bool :=
  !(slotCover d.mode ((s.tile t).opSlot (s.tile t).cfg.plane n k)).any (fun u => ((s.tile t).slot u).opened)

/-- What MMA needs: nest n stands before a firing of its matrix descriptor d at operand addresses a, b, c
in range, in a slot that takes them, in an operation that passes its checks where this step is its first, and
with its operands aligned (R103, R105, R125, R127, R253, R262). -/
structure MmaReady (t n : Nat) (k : Nest) (d : MDesc) (a b c : Nat) (s : State) : Prop where
  present : s.present t = true
  ready : s.readyFire t n 0 .mtx = some k
  desc : d = MDesc.ofWords ((s.tile t).mdesc (s.tile t).cfg.plane (((s.tile t).nctl (s.tile t).cfg.plane n).desc % 16) 0)
    ((s.tile t).mdesc (s.tile t).cfg.plane (((s.tile t).nctl (s.tile t).cfg.plane n).desc % 16) 1)
  free : (s.tile t).mtx.issued = []
  addrA : (s.tile t).opAddr (s.tile t).cfg.plane n 0 (opndBytes d.fa) k = some a
  addrB : (s.tile t).opAddr (s.tile t).cfg.plane n 1 (opndBytes d.fb) k = some b
  addrC : (s.tile t).opTouch (s.tile t).cfg.plane n 2 (d.cBytes (mmaFirst t n k d s)
    ((s.tile t).accLast (s.tile t).cfg.plane n d k)) k = some c
  place : (s.tile t).slotBad d ((s.tile t).opSlot (s.tile t).cfg.plane n k)
    ((s.tile t).opPlace (s.tile t).cfg.plane n 2 k) = false
  scales : ∀ q ∈ d.scaleEnds ((s.tile t).accLast (s.tile t).cfg.plane n d k && !d.stateOut) a b c, q.2 ≤ 2 ^ 20
  check : (slotCover d.mode ((s.tile t).opSlot (s.tile t).cfg.plane n k)).any
      (fun u => !((s.tile t).slot u).opened || ((s.tile t).slot u).nest != nkey (s.tile t).cfg.plane n + 1) = true →
    d.check (s.tile t) = none ∧ (d.mode = 2 → (s.tile t).splitOk (s.tile t).cfg.plane n d = true) ∧
    (d.accIn = 1 → ∀ u ∈ slotCover d.mode ((s.tile t).opSlot (s.tile t).cfg.plane n k),
      (s.tile t).slotMode u = some d.accMode)
  alignA : (s.tile t).skewOk a = true
  alignB : (s.tile t).skewOk b = true
  alignC : (s.tile t).accLast (s.tile t).cfg.plane n d k = false ∨ d.stateOut = true ∨ (s.tile t).skewOk c = true

/-- MMA issues the nest's step with its addresses and slot, as the first or the last of its slot's
accumulation, and the nest goes on (R103, R253, R257). -/
def MmaIssuesItsStep : Prop :=
  ∀ (t : Nat) (n : Fin 8) (k : Nest) (d : MDesc) (a b c : Nat) (s : State), MmaReady t n k d a b c s →
    Completes (.mma t n) s (fun s' => TileLocal t s s' ∧
      (∃ q, (s'.tile t).mtx.issued = [q] ∧ q.d = d ∧ q.nest = n ∧ q.plane = (s.tile t).cfg.plane ∧
        q.addrA = a ∧ q.addrB = b ∧ q.addrC = c ∧ q.slot = (s.tile t).opSlot (s.tile t).cfg.plane n k ∧
        q.last = (s.tile t).accLast (s.tile t).cfg.plane n d k ∧
        q.first = mmaFirst t n k d s) ∧
      NestGoesOn t n
        { k with
            out := k.out + 1,
            todo := .endPt ((s.tile t).levelAt (s.tile t).cfg.plane n 0) :: .advance 0 :: k.todo.tail } s s' ∧
      (s'.tile t).mtx.acc = (s.tile t).mtx.acc ∧ (s'.tile t).sp = (s.tile t).sp ∧
      (s'.tile t).mp = (s.tile t).mp ∧ (s'.tile t).flags = (s.tile t).flags)

/-- The operands of the oldest step enter a free buffer, each element read where the operand's
orientation puts it (R107 to R111), and the array turns the oldest buffer into rows of block values
(R109, R112). -/
def MatrixStepsAreReadAndMultiplied : Prop :=
  ∀ (t : Nat) (s : State), s.present t = true → s.unitRuns t .mtx = true →
    (∀ (q : MtxStep) (rest : List MtxStep), (s.tile t).mtx.issued = q :: rest →
      (s.tile t).mtx.bufs.length < 2 → (q.first && q.d.accIn == 2) = false →
      (∀ r ∈ operandLines q.d.fa q.d.mxa q.addrA q.d.sa ++ operandLines q.d.fb q.d.mxb q.addrB q.d.sb,
        (s.tile t).linesOn r.1 r.2 = true) →
      Completes (.mmaStepRead t) s (fun s' => OnlyTile t s s' ∧ (s'.tile t).mtx.issued = rest ∧
        (s'.tile t).mtx.bufs = (s.tile t).mtx.bufs ++
          [{ step := q,
             a := (s.tile t).operand q.d.fa q.d.oa q.d.mxa q.addrA q.d.sa q.d.m q.d.depth,
             b := (s.tile t).operand q.d.fb q.d.ob q.d.mxb q.addrB q.d.sb 32 q.d.depth }] ∧
        (s'.tile t).mtx.acc = (s.tile t).mtx.acc ∧ (s'.tile t).sp = (s.tile t).sp ∧
        (s'.tile t).flags = (s.tile t).flags)) ∧
    (∀ (b : MtxBuf) (rest : List MtxBuf), (s.tile t).mtx.bufs = b :: rest →
      Completes (.mmaArrayStep t) s (fun s' => OnlyTile t s s' ∧ (s'.tile t).mtx.bufs = rest ∧
        (s'.tile t).mtx.rows = (s.tile t).mtx.rows ++ stepRows b ∧
        (s'.tile t).mtx.acc = (s.tile t).mtx.acc ∧ (s'.tile t).sp = (s.tile t).sp ∧
        (s'.tile t).flags = (s.tile t).flags))

/-- The combine takes the oldest row of block values into its slot, which is then valid in the
operation's mode, and a step's last row makes the slot's drain due where the accumulation ends (R96,
R120, R123, R129). -/
def CombineTakesARowOfBlocks : Prop :=
  ∀ (t : Nat) (r : RowBlk) (rest : List RowBlk) (s : State), s.present t = true →
    s.unitRuns t .mtx = true → (s.tile t).mtx.rows = r :: rest → (s.tile t).mtx.drainPending r.step = false →
    Completes (.blockCombine t []) s (fun s' => OnlyTile t s s' ∧ (s'.tile t).mtx.rows = rest ∧
      (s'.tile t).mtx.acc = (r.vals.zipIdx.foldl (fun x q =>
        x.combineAt r.step.d r.step.slot (r.row * 32 + q.2)
          (r.step.first && (r.step.d.accIn == 0 || r.step.d.mode == 2)) q.1.1 q.1.2) (s.tile t)).mtx.acc ∧
      (∀ u ∈ slotCover r.step.d.mode r.step.slot,
        ((s'.tile t).slot u).valid = true ∧ ((s'.tile t).slot u).mode = r.step.d.accMode) ∧
      (s'.tile t).mtx.drains = (s.tile t).mtx.drains ++ (if r.fin && r.step.last then [r.step] else []) ∧
      (s'.tile t).sp = (s.tile t).sp ∧ (s'.tile t).flags = (s.tile t).flags)

/-- A drain writes its rows in the output format and ends its firing (R121); a state-record drain leaves
every element's two record words, little-endian, at 16 bytes an element (R122). -/
def DrainsWriteTheOutput : Prop :=
  ∀ (t : Nat) (q : MtxStep) (ds : List MtxStep) (s : State), s.present t = true →
    s.unitRuns t .mtx = true → (s.tile t).mtx.drains = q :: ds →
    (∀ f, q.d.stateOut = false → Fmt.ofCode q.d.fc = some f →
      (s.tile t).linesOn q.addrC (outBytes q.d.fc) = true →
      (q.d.mxc = true → (s.tile t).linesOn (q.d.sc * 64 + q.addrC / 32) 32 = true) →
      Completes (.mmaDrain t []) s (fun s' => OnlyTile t s s' ∧ (s'.tile t).mtx.drains = ds ∧
        (s'.tile t).sp = ((List.range q.d.m).foldl
          (fun x i => x.drainRow ((s.tile t).tabFor f) q f [] i) (s.tile t)).sp ∧
        ((s'.tile t).nest q.plane q.nest).out = ((s.tile t).nest q.plane q.nest).out - 1 ∧
        (s'.tile t).mtx.acc = (s.tile t).mtx.acc)) ∧
    (q.d.stateOut = true → (s.tile t).linesOn q.addrC (512 * q.d.m) = true →
      Completes (.stateRecordDrain t []) s (fun s' => OnlyTile t s s' ∧ (s'.tile t).mtx.drains = ds ∧
        (∀ e, e < 32 * q.d.m →
          (s'.tile t).rdN (q.addrC + 16 * e) 8 = ((s.tile t).record q.d q.slot e).1 ∧
          (s'.tile t).rdN (q.addrC + 16 * e + 8) 8 = ((s.tile t).record q.d q.slot e).2) ∧
        ((s'.tile t).nest q.plane q.nest).out = ((s.tile t).nest q.plane q.nest).out - 1 ∧
        (s'.tile t).mtx.acc = (s.tile t).mtx.acc ∧ (s'.tile t).flags = (s.tile t).flags))

end Sys2Proof

/-- MMA, MMA_STEP_READ and MMA_ARRAY_STEP: a matrix step is issued, read and multiplied. -/
def Obligations.MatrixStepsIssueAndMultiply : Prop :=
  MmaIssuesItsStep ∧ MatrixStepsAreReadAndMultiplied

/-- BLOCK_COMBINE, MMA_DRAIN and STATE_RECORD_DRAIN: rows of block values enter the accumulators, and drains write the
output. -/
def Obligations.MatrixRowsCombineAndDrain : Prop :=
  CombineTakesARowOfBlocks ∧ DrainsWriteTheOutput

namespace Sys2Proof

/-! ### The vector engine, the reduction unit and the row engine (chapter 05) -/

/-- What a vector operation needs to start: nest n stands before a firing of vector descriptor d, whose
operation is `op`, for L elements at operand addresses a, b, c in range; the engine is free and the
descriptor passes its checks (R132, R133, R143, R149, R262). -/
structure VecReady (t n op : Nat) (k : Nest) (d : VDesc) (L a b c : Nat) (s : State) : Prop where
  present : s.present t = true
  ready : s.readyFire t n 1 .vec = some k
  desc : d = VDesc.ofWords
    ((s.tile t).cword (s.tile t).cfg.plane 3 (32 + 2 * ((s.tile t).nctl (s.tile t).cfg.plane n).desc))
    ((s.tile t).cword (s.tile t).cfg.plane 3 (33 + 2 * ((s.tile t).nctl (s.tile t).cfg.plane n).desc))
  op : d.op = op
  len : L = (vecLen (s.tile t) d.vlmode d.count d.nest (k.ix ((s.tile t).levelAt (s.tile t).cfg.plane n 0))).getD 0
  free : (s.tile t).vec.fire = none
  held : d.redop = 0 ∨ (s.tile t).vec.held = []
  addrA : (s.tile t).opTouch (s.tile t).cfg.plane n 0 (d.extent (min L 8192) 0) k = some a
  addrB : (s.tile t).opTouch (s.tile t).cfg.plane n 1 (d.extent (min L 8192) 1) k = some b
  addrC : (s.tile t).opTouch (s.tile t).cfg.plane n 2 (d.extent (min L 8192) 2) k = some c
  scaleA : d.mx1 = true → L ≠ 0 → vecScale d d.f1 a (L / 32) ≤ 2 ^ 20
  scaleC : d.mxd = true → L ≠ 0 → vecScale d d.fd c (L / 32) ≤ 2 ^ 20
  check : d.check (s.tile t) L a b c = none

/-- The command starts a firing of vector operation `op`: the engine holds it with nothing read yet, and
the nest goes on with one firing more outstanding (R132, R257). -/
def StartsVector (i : Instr) (t n op : Nat) : Prop :=
  ∀ (k : Nest) (d : VDesc) (L a b c : Nat) (s : State), VecReady t n op k d L a b c s →
    Completes i s (fun s' => TileLocal t s s' ∧
      (∃ f, (s'.tile t).vec.fire = some f ∧ f.d = d ∧ f.nest = n ∧ f.plane = (s.tile t).cfg.plane ∧
        f.addrA = a ∧ f.addrB = b ∧ f.addrC = c ∧ f.len = L ∧ f.nextRead = 0 ∧ f.written = 0 ∧ f.groups = []) ∧
      NestGoesOn t n
        { k with
            out := k.out + 1,
            todo := .endPt ((s.tile t).levelAt (s.tile t).cfg.plane n 0) :: .advance 0 :: k.todo.tail } s s' ∧
      (s'.tile t).vec.tail = (s.tile t).vec.tail ∧ (s'.tile t).sp = (s.tile t).sp ∧
      (s'.tile t).mp = (s.tile t).mp ∧ (s'.tile t).flags = (s.tile t).flags)

/-- Each of the fourteen element operations starts its firing (R139, R141, R142, R151). -/
def VectorOperationsStart : Prop :=
  ∀ (t : Nat) (n : Fin 8),
    StartsVector (.add t n) t n 1 ∧ StartsVector (.sub t n) t n 2 ∧ StartsVector (.mul t n) t n 3 ∧
    StartsVector (.fma t n) t n 4 ∧ StartsVector (.fnma t n) t n 5 ∧ StartsVector (.min t n) t n 6 ∧
    StartsVector (.max t n) t n 7 ∧ StartsVector (.cmp t n) t n 8 ∧ StartsVector (.sel t n) t n 9 ∧
    StartsVector (.abs t n) t n 10 ∧ StartsVector (.neg t n) t n 11 ∧ StartsVector (.cvt t n) t n 12 ∧
    StartsVector (.curve t n) t n 13 ∧ StartsVector (.dact t n) t n 14

/-- SETVL takes the waiting scalar word as the nest's vector length (R144); one that names a reduction waits while a word
of the last is held (R149). -/
def SetvlSetsTheLength : Prop :=
  ∀ (t : Nat) (n : Fin 8) (k : Nest) (d : VDesc) (w : Nat) (s : State), s.present t = true →
    s.readyFire t n 1 .vec = some k →
    d = VDesc.ofWords
      ((s.tile t).cword (s.tile t).cfg.plane 3 (32 + 2 * ((s.tile t).nctl (s.tile t).cfg.plane n).desc))
      ((s.tile t).cword (s.tile t).cfg.plane 3 (33 + 2 * ((s.tile t).nctl (s.tile t).cfg.plane n).desc)) →
    d.op = 15 → d.check (s.tile t) 0 0 0 0 = none → (s.tile t).vec.fire = none → (s.tile t).fab.vecWord = some w → w ≤ 8192 →
    ((d.redop = 0 ∨ (s.tile t).vec.held = []) →
      Completes (.setvl t n) s (fun s' => TileLocal t s s' ∧ (s'.tile t).vec.vlen.get d.nest 0 = w ∧
        (∀ m, m ≠ d.nest → (s'.tile t).vec.vlen.get m 0 = (s.tile t).vec.vlen.get m 0) ∧
        (s'.tile t).fab.vecWord = none ∧ (s'.tile t).sp = (s.tile t).sp ∧ (s'.tile t).mp = (s.tile t).mp)) ∧
    (d.redop ≠ 0 → (s.tile t).vec.held ≠ [] → Completes (.setvl t n) s (· = s))

/-- A firing takes the scalar word it waits for, or reads its next group of elements, unless an earlier
firing has yet to write there; a firing of no elements ends at once (R145 to R147, R154). -/
def VectorGroupsAreRead : Prop :=
  ∀ (t : Nat) (f : VecFire) (s : State), s.present t = true → s.unitRuns t .vec = true →
    (s.tile t).vec.fire = some f →
    (∀ k w, f.wordNeeded = some k → (s.tile t).fab.vecWord = some w →
      Completes (.vectorGroupRead t) s (fun s' => OnlyTile t s s' ∧
        (s'.tile t).vec.fire = some (if k = 1 then { f with s2w := some w } else { f with s3w := some w }) ∧
        (s'.tile t).fab.vecWord = none ∧
        (s'.tile t).sp = (s.tile t).sp ∧ (s'.tile t).flags = (s.tile t).flags)) ∧
    (f.wordNeeded = none → f.len = 0 →
      Completes (.vectorGroupRead t) s (fun s' => OnlyTile t s s' ∧ (s'.tile t).vec.fire = none ∧
        (f.d.redop ≠ 0 → (s'.tile t).vec.red = (s.tile t).vec.red ++ [{ op := f.d.redop, ovf := f.d.sat, vals := f.red }]) ∧
        ((s'.tile t).nest f.plane f.nest).out = ((s.tile t).nest f.plane f.nest).out - 1 ∧
        (s'.tile t).sp = (s.tile t).sp ∧ (s'.tile t).flags = (s.tile t).flags)) ∧
    (f.wordNeeded = none → f.nextRead < f.len →
      (∀ g ∈ (s.tile t).vec.tail, ∀ l ∈ g.pendLines, l ∉ f.readLines ∧
        l ∉ runLines f.d.fd f.addrC f.nextRead (min f.len (f.nextRead + f.d.group))) →
      (∀ l ∈ f.readLines, (s.tile t).linesOn l 64 = true) →
      Completes (.vectorGroupRead t) s (fun s' => OnlyTileStats t s s' ∧
        (∃ f' g, f'.nextRead = min f.len (f.nextRead + f.d.group) ∧ f'.groups = f.groups ++ [g] ∧
          g.elems = (List.range' f.nextRead (min f.len (f.nextRead + f.d.group) - f.nextRead)).map (fun e =>
            (e, ((s.tile t).vecSrc ((s.tile t).anyTab f.d) f 0 e).1,
              ((s.tile t).vecSrc ((s.tile t).anyTab f.d) f 1 e).1,
              ((s.tile t).vecSrc ((s.tile t).anyTab f.d) f 2 e).1)) ∧
          (if f.len ≤ f.nextRead + f.d.group then
            (s'.tile t).vec.fire = none ∧ (s'.tile t).vec.tail = (s.tile t).vec.tail ++ [f']
          else (s'.tile t).vec.fire = some f' ∧ (s'.tile t).vec.tail = (s.tile t).vec.tail)) ∧
        (s'.tile t).sp = (s.tile t).sp ∧ (s'.tile t).flags = (s.tile t).flags))

/-- The oldest group read is written: its elements' results stand in the destination format, and the
firing whose last element is written ends, its reduction due (R139, R147, R154). It is a group of the oldest
firing whose reading has ended or, without such a firing, of the one that is reading. -/
def VectorGroupsAreWritten : Prop :=
  ∀ (t : Nat) (f f' : VecFire) (fs : List VecFire) (g : VecGroup) (gs : List VecGroup) (fd : Fmt) (x' : Tile)
    (s : State), s.present t = true → s.unitRuns t .vec = true →
    ((s.tile t).vec.tail = f :: fs ∨
      (s.tile t).vec.tail = [] ∧ fs = [] ∧ (s.tile t).vec.fire = some f ∧ f'.written < f'.len) →
    f.groups = g :: gs → Fmt.ofCode f.d.fd = some fd →
    (∀ l ∈ f.writeLines ((g.elems.map (·.1)).foldl max 0 + 1),
      (s.tile t).linesOn l 64 = true) →
    (s.tile t).writeGroup { f with groups := gs } fd g = (x', f') →
    Completes (.vectorGroupWrite t) s (fun s' => OnlyTile t s s' ∧ (s'.tile t).sp = x'.sp ∧
      (s'.tile t).flags = x'.flags ∧ (s'.tile t).gens = x'.gens ∧ (s'.tile t).mp = (s.tile t).mp ∧
      (s'.tile t).cfg = (s.tile t).cfg ∧
      (f'.written < f'.len → (s.tile t).vec.tail ≠ [] → (s'.tile t).vec.tail = f' :: fs) ∧
      ((s.tile t).vec.tail = [] → (s'.tile t).vec.fire = some f' ∧ (s'.tile t).vec.tail = []) ∧
      (f'.len ≤ f'.written → (s'.tile t).vec.tail = fs ∧
        (f'.d.redop ≠ 0 → (s'.tile t).vec.red = (s.tile t).vec.red ++
          [{ op := f'.d.redop, ovf := f'.d.sat, vals := f'.red }])))

/-- A finite FP32 code (R71). -/
def Fp32Word (w : Nat) : Prop := w < 2 ^ 32 ∧ w / 2 ^ 23 % 256 ≠ 255

/-- Its value in units of 2^-149, the distance of the smallest numbers: sign, exponent and fraction (R71, R73). -/
def fp32Units (w : Nat) : Int :=
  let m : Nat := if w / 2 ^ 23 % 256 = 0 then w % 2 ^ 23
    else (2 ^ 23 + w % 2 ^ 23) * 2 ^ (w / 2 ^ 23 % 256 - 1)
  if w / 2 ^ 31 % 2 = 1 then -(m : Int) else (m : Int)

/-- What an operation makes of the finite FP32 words a and b where no rounding is called for: ADD, SUB and MUL the word
of the exact sum, difference or product, where one stands for it and it is not zero; MIN and MAX the lower and the higher
of two; CMP 1.0 where its predicate (0 to 5: =, ≠, <, ≤, >, ≥) holds and 0 where it does not (R88, R94, R139, R141). -/
def WordOf (d : VDesc) (a b w : Nat) : Prop :=
  let u := fp32Units a
  let v := fp32Units b
  match d.op with
  | 1 => fp32Units w = u + v ∧ fp32Units w ≠ 0
  | 2 => fp32Units w = u - v ∧ fp32Units w ≠ 0
  | 3 => fp32Units w * 2 ^ 149 = u * v ∧ fp32Units w ≠ 0
  | 6 => u ≠ v ∧ w = if u < v then a else b
  | 7 => u ≠ v ∧ w = if u < v then b else a
  | 8 => ((w = 0x3F800000 ∧ [decide (u = v), decide (u ≠ v), decide (u < v), decide (u ≤ v), decide (u > v),
            decide (u ≥ v)][d.pred]? = some true) ∨
          (w = 0 ∧ [decide (u = v), decide (u ≠ v), decide (u < v), decide (u ≤ v), decide (u > v),
            decide (u ≥ v)][d.pred]? = some false))
  | _ => False

/-- The FP32 words a, b of an element, read from where its operands stand, and the word its result leaves where the
destination stands: the exact one, of ADD, SUB, MUL, MIN, MAX and CMP (R72, R139, R141). A firing reads a group of
elements first (VECTOR_GROUP_READ) and writes it then, in one go of VECTOR_GROUP_WRITE. -/
def ElementsHaveTheirValues : Prop :=
  ∀ (t n e a b w : Nat) (f : VecFire) (g : VecGroup) (gs : List VecGroup) (s : State),
    s.present t = true → s.unitRuns t .vec = true → (s.tile t).vec.tail = [f] → f.groups = g :: gs →
    f.d.f1 = 0 → f.d.f2 = 0 → f.d.fd = 0 → f.d.src2 = 0 → f.d.mx1 = false → f.d.mxd = false → f.d.round = 0 →
    g.elems.map (·.1) = List.range' f.written n → g.inv.length = n →
    (∀ l ∈ f.writeLines ((g.elems.map (·.1)).foldl max 0 + 1), (s.tile t).linesOn l 64 = true) →
    Fp32Word a → Fp32Word b → Fp32Word w → WordOf f.d a b w →
    (∀ x : Tile, x.rdN (f.addrA + 4 * e) 4 = a → x.rdN (f.addrB + 4 * e) 4 = b →
      x.vecSrc (x.anyTab f.d) f 0 e = (fp32L.decode a, false) ∧
      x.vecSrc (x.anyTab f.d) f 1 e = (fp32L.decode b, false)) ∧
    (∀ c, (e, fp32L.decode a, fp32L.decode b, c) ∈ g.elems →
      Completes (.vectorGroupWrite t) s (fun s' => (s'.tile t).rdN (f.addrC + 4 * e) 4 = w))

/-- The reduction at the head of the list has the words ws as its elements: it emits the words `out`. -/
def Emits (i : Instr) (t op : Nat) (ws out : List Nat) : Prop :=
  ∀ (r : RedPending) (rest : List RedPending) (s : State), s.present t = true → s.unitRuns t .vec = true →
    (s.tile t).vec.red = r :: rest → r.op = op → r.vals = ws.map fp32L.decode → (s.tile t).vec.held = [] →
    ((s.tile t).port (portNo .sca 4)).queue = [] → ((s.tile t).port (portNo .sca 4)).flight = [] →
    ((s.tile t).port (portNo .sca 4)).fifo.length ≤ 6 →
    Completes i s (fun s' => ((s'.tile t).port (portNo .sca 4)).fifo.map (·.data) =
      ((s.tile t).port (portNo .sca 4)).fifo.map (·.data) ++ out.map (fun w => BitVec.ofNat 512 w))

/-- The reductions of finite FP32 words: SUM emits the word of their exact sum, where one stands for it and it is not
zero, of up to 32 elements, or of any number of whole numbers that come to no more than 2^24 together; MAX and MIN the
highest and the lowest, and ARGMAX the highest and where it stands first (R147, R148). -/
def ReductionsHaveTheirValues : Prop :=
  ∀ (t w : Nat) (ws : List Nat), (∀ a ∈ ws, Fp32Word a) → Fp32Word w → fp32Units w ≠ 0 →
    ((ws.length ≤ 32 ∨ (∀ a ∈ ws, fp32Units a % 2 ^ 149 = 0) ∧
        (ws.map (fun a => (fp32Units a).natAbs)).sum ≤ 2 ^ 24 * 2 ^ 149) →
      fp32Units w = (ws.map fp32Units).sum → Emits (.sum t) t 1 ws [w]) ∧
    (w ∈ ws → (∀ a ∈ ws, fp32Units a ≤ fp32Units w) → Emits (.redopMax t) t 2 ws [w]) ∧
    (w ∈ ws → (∀ a ∈ ws, fp32Units w ≤ fp32Units a) → Emits (.redopMin t) t 3 ws [w]) ∧
    (∀ i, i < 8192 → ws[i]? = some w → (∀ a ∈ ws, fp32Units a ≤ fp32Units w) →
      (∀ j a, j < i → ws[j]? = some a → fp32Units a < fp32Units w) → Emits (.argmax t) t 4 ws [w, i])

/-- The reduction at the head of the list is of kind `op`, and the words it emits find room. -/
def Reduces (i : Instr) (t op : Nat) : Prop :=
  ∀ (r : RedPending) (rest : List RedPending) (s : State), s.present t = true → s.unitRuns t .vec = true →
    (s.tile t).vec.red = r :: rest → r.op = op → (s.tile t).vec.held = [] →
    ((s.tile t).port (portNo .sca 4)).queue = [] → ((s.tile t).port (portNo .sca 4)).flight = [] →
    ((s.tile t).port (portNo .sca 4)).fifo.length ≤ 6 →
    Completes i s (fun s' => OnlyTile t s s' ∧ (s'.tile t).vec.red = rest ∧ (s'.tile t).vec.held = [] ∧
      ((s'.tile t).port (portNo .sca 4)).fifo.map (·.data) =
        ((s.tile t).port (portNo .sca 4)).fifo.map (·.data) ++
          (redWords r).1.map (fun w => BitVec.ofNat 512 (w % 2 ^ 32)) ∧
      (s'.tile t).flags = orFlags (s.tile t).flags .vec (redWords r).2 ∧
      (s'.tile t).sp = (s.tile t).sp ∧ (s'.tile t).mp = (s.tile t).mp)

/-- The reduction unit emits the words of a SUM, MAX, MIN or ARGMAX on scalar input 4 (R147 to R149). -/
def ReductionsEmitTheirWords : Prop :=
  ∀ t : Nat, Reduces (.sum t) t 1 ∧ Reduces (.redopMax t) t 2 ∧ Reduces (.redopMin t) t 3 ∧
    Reduces (.argmax t) t 4

/-- What a row operation needs: nest n stands before a firing of row descriptor d, whose operation is
`op`, for N elements at a, b, c; the descriptor passes its checks, its side entry exists, its regions'
lines are on, and a backward operation finds its record (R155 to R159, R262). -/
structure RowReady (t n op : Nat) (k : Nest) (d : RDesc) (fd : Fmt) (N a b c : Nat) (s : State) : Prop where
  present : s.present t = true
  ready : s.readyFire t n 2 .row = some k
  desc : d = RDesc.ofWords
    ((s.tile t).cword (s.tile t).cfg.plane 3 (160 + 2 * (((s.tile t).nctl (s.tile t).cfg.plane n).desc % 16)))
    ((s.tile t).cword (s.tile t).cfg.plane 3 (161 + 2 * (((s.tile t).nctl (s.tile t).cfg.plane n).desc % 16)))
  op : d.op = op
  len : N = (vecLen (s.tile t) d.vlmode d.count d.nest (k.ix ((s.tile t).levelAt (s.tile t).cfg.plane n 0))).getD 0
  addrA : (s.tile t).opTouch (s.tile t).cfg.plane n 0 (runBytes d.fx (min N 8192)) k = some a
  addrB : (s.tile t).opTouch (s.tile t).cfg.plane n 1 (if d.bwd then runBytes d.fdy (min N 8192) else 0) k = some b
  addrC : (s.tile t).opTouch (s.tile t).cfg.plane n 2 (runBytes d.fd (min N 8192)) k = some c
  check : d.check (s.tile t) = none
  fmt : Fmt.ofCode d.fd = some fd
  entry : d.side + k.ix d.sideLvl ≤ 2047
  record : d.bwd = true → ((s.tile t).sideEntry (d.side + k.ix d.sideLvl)).valid = true ∧
    ((s.tile t).sideEntry (d.side + k.ix d.sideLvl)).kind = d.kind ∧
    ((s.tile t).sideEntry (d.side + k.ix d.sideLvl)).n = N
  lines : ∀ r ∈ d.regions N a b c, (s.tile t).linesOn r.1 r.2 = true

/-- What the row's elements come to (R156, R161). -/
def rowResult (d : RDesc) (k : Nest) (N a b : Nat) (x : Tile) : RowOut :=
  x.rowOut d (fp32L.decode (fld (x.sideEntry (d.side + k.ix d.sideLvl)).data 0 32))
    (fp32L.decode (fld (x.sideEntry (d.side + k.ix d.sideLvl)).data 32 32))
    (x.elemRun d.fx a N) (if d.bwd then x.elemRun d.fdy b N else []) (x.affine d N).1 (x.affine d N).2

/-- The command fires row operation `op`: the outputs are written (and nothing else of the scratchpad
where no x̂ is asked for), a forward operation leaves its record in the side memory, a backward one
leaves the side memory as it is (R155 to R159, R162). -/
def FiresRow (i : Instr) (t n op : Nat) : Prop :=
  ∀ (k : Nest) (d : RDesc) (fd : Fmt) (N a b c : Nat) (s : State), RowReady t n op k d fd N a b c s →
    Completes i s (fun s' => TileLocal t s s' ∧
      (¬ (d.kind ≠ 3 ∧ d.xhat = true) → (s'.tile t).sp =
        ((s.tile t).rowWrite d fd c (rowResult d k N a b (s.tile t)).ys).sp) ∧
      (s'.tile t).flags = ((s.tile t).rowWrite d fd c (rowResult d k N a b (s.tile t)).ys).flags ∧
      (s'.tile t).gens = ((s.tile t).rowWrite d fd c (rowResult d k N a b (s.tile t)).ys).gens ∧
      (d.bwd = false → (s'.tile t).sideEntry (d.side + k.ix d.sideLvl) =
        { data := packW [(32, (rowResult d k N a b (s.tile t)).s0), (32, (rowResult d k N a b (s.tile t)).s1)],
          valid := true, kind := d.kind, n := N }) ∧
      (d.bwd = true → (s'.tile t).row.side = (s.tile t).row.side) ∧
      (s'.tile t).mp = (s.tile t).mp ∧ (s'.tile t).cfg = (s.tile t).cfg)

/-- The six row operations fire (R155, R156). -/
def RowOperationsFire : Prop :=
  ∀ (t : Nat) (n : Fin 8),
    FiresRow (.lnFwd t n) t n 1 ∧ FiresRow (.rmsFwd t n) t n 2 ∧ FiresRow (.smaxFwd t n) t n 3 ∧
    FiresRow (.lnBwd t n []) t n 4 ∧ FiresRow (.rmsBwd t n []) t n 5 ∧ FiresRow (.smaxBwd t n []) t n 6

end Sys2Proof

/-- ADD, SUB, MUL, FMA, FNMA, MIN, MAX, CMP, SEL, ABS, NEG, CVT, CURVE, DACT and SETVL: the vector operations start
their firings, and SETVL sets the length. -/
def Obligations.VectorOperationsStartAndSetLength : Prop :=
  VectorOperationsStart ∧ SetvlSetsTheLength

/-- VECTOR_GROUP_READ and VECTOR_GROUP_WRITE: a vector firing reads its groups and writes them in order, and the words of
ADD, SUB, MUL, MIN, MAX and CMP have their exact values. -/
def Obligations.VectorGroupsAreReadAndWritten : Prop :=
  VectorGroupsAreRead ∧ VectorGroupsAreWritten ∧ ElementsHaveTheirValues

/-- SUM, REDOP_MAX, REDOP_MIN, ARGMAX, LN_FWD, RMS_FWD, SMAX_FWD, LN_BWD, RMS_BWD and SMAX_BWD: reductions emit their
words, those of exact sums, of the highest and of the lowest, and row operations fire. -/
def Obligations.ReductionsAndRowsFire : Prop :=
  ReductionsEmitTheirWords ∧ ReductionsHaveTheirValues ∧ RowOperationsFire

namespace Sys2Proof

/-! ### The static fabric (chapter 06) -/

/-- The head token k of a switch input may leave: its unit runs in no switch cycle, every output that names
the input accepts it, and a head that departs has its budget (R172, R173, R203, R324). Markers leave their
inputs by the commands of chapter 11. -/
structure SwitchReady (t : Nat) (net : Net) (input : Nat) (k : Token) (s : State) : Prop where
  present : s.present t = true
  inRange : input < net.inputs
  head : (s.tile t).portHead (portNo net input) = some k
  outs : (s.tile t).outsOf net input ≠ []
  steady : (s.tile t).fab.switchDue = false
  runs : s.unitRuns t (.port (portNo net input)) = true
  plain : ¬ (net = .ctl ∧ k.isMarker = true)
  order : ¬ (net = .vec ∧ input < 4 ∧ (s.tile t).boundaryAhead input k.ord = true)
  room : ∀ o ∈ (s.tile t).outsOf net input, s.outRoom t net o k = true
  budget : net = .vec → k.head = true → 0 ≤ headBudget (s.tile t) k

/-- A copy of token k is the newest on the link of direction o of tile t (R170, R173). -/
def OnLink (t : Nat) (net : Net) (o : Nat) (k : Token) (s s' : State) : Prop :=
  ∀ u, s.neighbour t o = some u →
    ∃ k', ((s'.tile u).port (portNo net (opp o))).flight = ((s.tile u).port (portNo net (opp o))).flight ++ [k'] ∧
      k'.head = k.head ∧ k'.last = k.last ∧ k'.slot = k.slot ∧ k'.set = (s.tile t).cfg.liveSet ∧
      k'.data = k.data

/-- The token as it leaves: a head that departs carries its budget at the time (R322, R323). -/
def leaving (x : Tile) (net : Net) (input : Nat) (k : Token) : Token :=
  if k.head && net == .vec && ((x.outsOf net input).any (· < 4) || decide (4 ≤ input ∧ input < 8)) then
    { k with data := headData (headBudget x k).toNat k.seq k.user }
  else k

/-- A token whose every output has room leaves its input in one move, a copy for each output (R172): the
input's queue loses it and its watch returns to zero (R189), the links get it, a landing port that the route
names gets it, and a scalar word for output 4 becomes the vector word. -/
def SwitchMovesTheHeadToken : Prop :=
  ∀ (t : Nat) (net : Net) (input : Nat) (k : Token) (s : State), SwitchReady t net input k s →
    Completes (.switchTokenMove t net input) s (fun s' =>
      (∃ l, ((s'.tile t).port (portNo net input)).fifo =
        ((s.tile t).port (portNo net input)).fifo.tail ++ l) ∧
      ((s'.tile t).port (portNo net input)).watch = 0 ∧
      (∀ o ∈ (s.tile t).outsOf net input, o < 4 → OnLink t net o (leaving (s.tile t) net input k) s s') ∧
      (net = .vec → ∀ o ∈ (s.tile t).outsOf net input, 4 ≤ o → o < 8 →
        ∃ k', ((s'.tile t).landing (o - 4)).inp = some k' ∧ k'.head = k.head ∧ k'.slot = k.slot ∧
          k'.data = (leaving (s.tile t) net input k).data) ∧
      (net = .sca → 4 ∈ (s.tile t).outsOf net input → (s'.tile t).fab.vecWord = some (k.data.toNat % 2 ^ 32)) ∧
      s'.mem = s.mem ∧ s'.ctxs = s.ctxs ∧ s'.hdrs = s.hdrs ∧ s'.log = s.log ∧
      (s'.tile t).cfg = (s.tile t).cfg ∧ (s'.tile t).nests = (s.tile t).nests ∧ (s'.tile t).mp = (s.tile t).mp)

/-- The first token on a link into an input, which its order lets enter (R170, R190). -/
structure CrossReady (t : Nat) (net : Net) (dir : Fin 4) (k : Token) (rest : List Token) (s : State) : Prop where
  present : s.present t = true
  first : ((s.tile t).port (portNo net dir)).flight = k :: rest
  on : (s.tile t).clk.pstate ≠ .off
  go : s.stop.fatal = false
  order : (s.tile t).inOrder net dir k = true
  room : (s.tile t).clk.pstate = .nap → ((s.tile t).port (portNo net dir)).fifo.length < 8

/-- The tile once token k' has come off the link into the input's FIFO or delay queue (R185). -/
def entered (x : Tile) (p : Nat) (rest : List Token) (k' : Token) : Tile :=
  (x.setPort p { x.port p with flight := rest }).portPut p k'

/-- A token on its way into an input enters it, in order (R170, R185, R190); a head pays the crossing (R322).
A token of the other LIVE_SET bit is discarded and counted (R299). A marker where none is expected enters and
raises MARK_STRAY (R178), a head whose budget the crossing takes below zero enters and raises DEADLINE
(R324). In a napping tile a token waits on its link while the input's FIFO is full (R464). -/
def TokensCrossLinks : Prop :=
  (∀ (t : Nat) (net : Net) (dir : Fin 4) (s : State), s.present t = true → (s.tile t).clk.pstate = .nap →
    8 ≤ ((s.tile t).port (portNo net dir)).fifo.length → Completes (.linkCrossing t net dir) s (· = s)) ∧
  ∀ (t : Nat) (net : Net) (dir : Fin 4) (k : Token) (rest : List Token) (s : State),
    CrossReady t net dir k rest s →
    (k.set ≠ (s.tile t).cfg.liveSet →
      Completes (.linkCrossing t net dir) s (fun s' => OnlyTileStats t s s' ∧
        (s'.tile t).port (portNo net dir) = { (s.tile t).port (portNo net dir) with flight := rest } ∧
        s'.stats = s.stats.upd (rkey (pgTile t 0) 0x58) 0 (fun v => (v + 1) % 2 ^ 64))) ∧
    (k.set = (s.tile t).cfg.liveSet → ¬ (net = .vec ∧ k.head = true) →
      ¬ (net = .ctl ∧ k.isMarker = true ∧ (s.tile t).markIn dir = false) →
      Completes (.linkCrossing t net dir) s (fun s' => OnlyTile t s s' ∧
        s'.tile t = entered (s.tile t) (portNo net dir) rest { k with arr := (s.tile t).clk.cyc } ∧
        (((s.tile t).port (portNo net dir)).queue = [] → ((s.tile t).port (portNo net dir)).fifo.length < 8 →
          ((s'.tile t).port (portNo net dir)).fifo =
            ((s.tile t).port (portNo net dir)).fifo ++ [{ k with arr := (s.tile t).clk.cyc }]))) ∧
    (k.set = (s.tile t).cfg.liveSet → net = .vec → k.head = true →
      (k.budget = unbounded ∨ cdiv (s.crossBound t dir * (s.tile t).clk.per) 65536 ≤ k.budget) →
      Completes (.linkCrossing t net dir) s (fun s' => OnlyTile t s s' ∧
        ∃ k', s'.tile t = entered (s.tile t) (portNo net dir) rest k' ∧
          k'.data = headData (if k.budget = unbounded then unbounded
            else k.budget - cdiv (s.crossBound t dir * (s.tile t).clk.per) 65536) k.seq k.user ∧
          k'.head = true ∧ k'.last = k.last ∧ k'.slot = k.slot)) ∧
    (k.set = (s.tile t).cfg.liveSet → net = .ctl → k.isMarker = true → (s.tile t).markIn dir = false →
      Completes (.linkCrossing t net dir) s (fun s' => TileLocal t s s' ∧
        (s'.tile t).port (portNo net dir) =
          (entered (s.tile t) (portNo net dir) rest { k with arr := (s.tile t).clk.cyc }).port (portNo net dir) ∧
        bit (s'.hdr (pgTile t 0)).err Err.markStray.bit = true ∧
        (.port (portNo net dir)) ∈ (s'.tile t).stopped)) ∧
    (k.set = (s.tile t).cfg.liveSet → net = .vec → k.head = true → k.budget ≠ unbounded →
      k.budget < cdiv (s.crossBound t dir * (s.tile t).clk.per) 65536 →
      Completes (.linkCrossing t net dir) s (fun s' => TileLocal t s s' ∧
        ((s'.tile t).port (portNo net dir)).flight = rest ∧
        bit (s'.hdr (pgTile t 0)).err Err.deadline.bit = true ∧
        (.port (portNo net dir)) ∈ (s'.tile t).stopped))

/-- One increment of counter c from value v; a held counter stands (R233, R234, R239, R240). -/
def oneMore (x : Tile) (c v : Nat) : Nat := if x.counterHeld c then v else min 0xFFFFFF (v + 1)

/-- Counter c after a data token lands: CNT counts every token, LCNT the last of a sequence too where it is
enabled (R180). -/
def landCount (x : Tile) (d : LandDesc) (last : Bool) (c : Nat) : Nat :=
  let v := (x.counter c).value
  let v := if c = d.cnt then oneMore x c v else v
  if last && d.lcntEn && c == d.lcnt then oneMore x c v else v

/-- A head at a landing port becomes the record of its slot (R180, R322); a data token is written at the
port's next line and counted (R180). -/
def TokensLand : Prop :=
  (∀ (t : Nat) (ld : Fin 4) (k : Token) (s : State), s.present t = true →
    ((s.tile t).landing ld).inp = some k → k.head = true → s.unitRuns t (.landing ld) = true →
    Completes (.landingHeadToken t ld) s (fun s' => OnlyTile t s s' ∧
      ((s'.tile t).landing ld).inp = none ∧ ((s'.tile t).landing ld).cur = some k.slot ∧
      ((s'.tile t).landing ld).recs.get k.slot none = some (recordOf (s.tile t) k) ∧
      (recordOf (s.tile t) k).seq = k.seq ∧ (recordOf (s.tile t) k).user = k.user ∧
      ((s'.tile t).landing ld).openSeq = !k.last ∧ (s'.tile t).sp = (s.tile t).sp ∧
      (s'.tile t).cfg = (s.tile t).cfg ∧ (s'.tile t).mp = (s.tile t).mp)) ∧
  (∀ (t : Nat) (ld : Fin 4) (k : Token) (a : Nat) (s : State), s.present t = true →
    ((s.tile t).landing ld).inp = some k → k.head = false → s.unitRuns t (.landing ld) = true →
    a = (((s.tile t).landDesc ld).base + ((s.tile t).landing ld).k % max 1 ((s.tile t).landDesc ld).size) * 64 →
    (s.tile t).linesOn a 64 = true →
    Completes (.landingDataToken t ld) s (fun s' => TileLocal t s s' ∧
      (s'.tile t).sp = ((s.tile t).wr a (leBytes 64 k.data.toNat)).sp ∧
      ((s'.tile t).landing ld).inp = none ∧ ((s'.tile t).landing ld).k = ((s.tile t).landing ld).k + 1 ∧
      ((s'.tile t).landing ld).openSeq = (((s.tile t).landing ld).openSeq && !k.last) ∧
      (∀ c, ((s'.tile t).counter c).value = landCount (s.tile t) ((s.tile t).landDesc ld) k.last c) ∧
      (s'.tile t).cfg = (s.tile t).cfg ∧ (s'.tile t).hq = (s.tile t).hq))

/-- A free, enabled launch port stands before handle h of its queue (R182). -/
structure LaunchReady (t : Nat) (la : Fin 4) (h : BitVec 32) (s : State) : Prop where
  present : s.present t = true
  handle : ((s.tile t).hqueue ((s.tile t).launchDesc la).hq).head? = some h
  enabled : ((s.tile t).launchDesc la).en = true
  free : ((s.tile t).launch la).cur = none
  runs : s.unitRuns t (.launch la) = true

/-- The handle has left the port's queue; no other queue changes. -/
def HandlePopped (t q : Nat) (s s' : State) : Prop :=
  (s'.tile t).hqueue q = ((s.tile t).hqueue q).tail ∧ ∀ r, r ≠ q → (s'.tile t).hqueue r = (s.tile t).hqueue r

/-- The request header in line a: its word 0, SEQ, USER and STAMP (R317, R318). -/
def headerGood (t sl a : Nat) (s : State) : Bool :=
  (s.tile t).rdN a 4 / 2 ^ 20 == 0 && !((s.tile t).rdN a 4 % 2 ^ 20 == unbounded && !bit (s.slotA (s.tile t).cfg.ctx sl) 32)

/-- LATE of a request slot counts a request that is discarded (R320, R334). -/
def LateCounted (c sl : Nat) (s s' : State) : Prop :=
  s'.devReg (pgCtx c) (0x148 + 16 * sl) =
    setFld (s.devReg (pgCtx c) (0x148 + 16 * sl)) 52 12 (satTo 0xFFF (fld (s.devReg (pgCtx c) (0x148 + 16 * sl)) 52 12 + 1))

/-- A free launch port takes its queue's head handle (R182). With HEAD = 0 it is sent for the slot that the
landing port names, or for some slot where that port names none. With HEAD = 1 a head token built from the slot
record enters the switch input first, and the sequence is open; without a slot record the handle is lost and
ENTRY_UNBOUND raised. A handle in a request's window is an entry (R316, R317): a good header waits to be issued,
a bad one is discarded, counted and raises REQ_HEADER (R320). -/
def LaunchPortsTakeHandles : Prop :=
  ∀ (t : Nat) (la : Fin 4) (h : BitVec 32) (s : State), LaunchReady t la h s →
    (∀ sl, s.boundSlot t (hWin h) = none → ((s.tile t).launchDesc la).head = false →
      ((s.tile t).landing ((s.tile t).launchDesc la).src).cur = some sl →
      Completes (.launchHandlePop t la) s (fun s' => OnlyTile t s s' ∧
        HandlePopped t ((s.tile t).launchDesc la).hq s s' ∧
        (s'.tile t).launch la = { (s.tile t).launch la with
          cur := some { handle := h, slot := sl, line := 0, entry := none, bound := none } } ∧
        (s'.tile t).sp = (s.tile t).sp ∧ (s'.tile t).cfg = (s.tile t).cfg ∧ (s'.tile t).mp = (s.tile t).mp)) ∧
    (s.boundSlot t (hWin h) = none → ((s.tile t).launchDesc la).head = false →
      ((s.tile t).landing ((s.tile t).launchDesc la).src).cur = none →
      Completes (.launchHandlePop t la) s (fun s' => OnlyTile t s s' ∧
        HandlePopped t ((s.tile t).launchDesc la).hq s s' ∧
        (∃ sl, ((s'.tile t).launch la).cur =
          some { handle := h, slot := sl, line := 0, entry := none, bound := none }) ∧
        (s'.tile t).sp = (s.tile t).sp ∧ (s'.tile t).cfg = (s.tile t).cfg ∧ (s'.tile t).mp = (s.tile t).mp)) ∧
    (∀ sl, s.boundSlot t (hWin h) = none → ((s.tile t).launchDesc la).head = true →
      ((s.tile t).landing ((s.tile t).launchDesc la).src).cur = some sl → (s.tile t).cfg.origin = false →
      ((s.tile t).drains && (s.tile t).origin) = false → (s.tile t).portRoom (portNo .vec (4 + la)) = true →
      Completes (.launchHandlePop t la) s (fun s' => OnlyTile t s s' ∧
        HandlePopped t ((s.tile t).launchDesc la).hq s s' ∧
        (s'.tile t).launch la =
          { cur := some { handle := h, slot := sl, line := 0, entry := none, bound := none }, openSeq := true } ∧
        (∃ k, (s'.tile t).port (portNo .vec (4 + la)) =
            ((s.tile t).portPut (portNo .vec (4 + la)) k).port (portNo .vec (4 + la)) ∧
          k.head = true ∧ k.slot = sl ∧
          k.data = headData 0
            (((((s.tile t).landing ((s.tile t).launchDesc la).src).recs.get sl none).getD {}).seq)
            (((((s.tile t).landing ((s.tile t).launchDesc la).src).recs.get sl none).getD {}).user) ∧
          k.cands = (s.tile t).joinCands sl
            (((((s.tile t).landing ((s.tile t).launchDesc la).src).recs.get sl none).getD {}).seq)) ∧
        (s'.tile t).cfg = (s.tile t).cfg ∧ (s'.tile t).mp = (s.tile t).mp)) ∧
    (s.boundSlot t (hWin h) = none → ((s.tile t).launchDesc la).head = true →
      ((s.tile t).landing ((s.tile t).launchDesc la).src).cur = none → (s.tile t).cfg.origin = false →
      ((s.tile t).drains && (s.tile t).origin) = false →
      Completes (.launchHandlePop t la) s (fun s' => TileLocal t s s' ∧
        HandlePopped t ((s.tile t).launchDesc la).hq s s' ∧ (s'.tile t).launch la = (s.tile t).launch la ∧
        bit (s'.hdr (pgTile t 0)).err Err.entryUnbound.bit = true)) ∧
    (∀ sl, s.boundSlot t (hWin h) = some sl → (s.tile t).cfg.origin = false → (s.tile t).drains = false →
      (s.tile t).linesOn ((s.tile t).hAddr h) 64 = true →
      (headerGood t sl ((s.tile t).hAddr h) s = true →
        Completes (.launchHandlePop t la) s (fun s' => OnlyTile t s s' ∧
          HandlePopped t ((s.tile t).launchDesc la).hq s s' ∧
          ((s'.tile t).launch la).cur = some {
            handle := h, slot := sl, line := 1, bound := some sl,
            entry := some ((s.tile t).rdN ((s.tile t).hAddr h) 4 % 2 ^ 20,
              (s.tile t).rdN ((s.tile t).hAddr h + 56) 8, (s.tile t).rdN ((s.tile t).hAddr h + 4) 4,
              BitVec.ofNat 448 ((s.tile t).rdN ((s.tile t).hAddr h + 8) 48)) } ∧
          (s'.tile t).sp = (s.tile t).sp ∧ (s'.tile t).cfg = (s.tile t).cfg ∧ (s'.tile t).mp = (s.tile t).mp)) ∧
      (headerGood t sl ((s.tile t).hAddr h) s = false →
        Completes (.launchHandlePop t la) s (fun s' => TileLocal t s s' ∧
          HandlePopped t ((s.tile t).launchDesc la).hq s s' ∧ ((s'.tile t).launch la).cur = none ∧
          LateCounted (s.tile t).cfg.ctx sl s s' ∧ bit (s'.hdr (pgTile t 0)).err Err.reqHeader.bit = true)))

/-- The port sends the next line of its handle as a data token into its switch input; after the last line it is
free, and a sequence that the handle closes is closed (R182, R296). -/
def LaunchPortsSendLines : Prop :=
  ∀ (t : Nat) (la : Fin 4) (g : Sending) (s : State), s.present t = true →
    ((s.tile t).launch la).cur = some g → g.entry = none → s.unitRuns t (.launch la) = true →
    (s.tile t).portRoom (portNo .vec (4 + la)) = true →
    (s.tile t).linesOn ((s.tile t).hAddr g.handle + 64 * g.line) 64 = true →
    Completes (.launchDataToken t la) s (fun s' => OnlyTile t s s' ∧
      (∃ k, (s'.tile t).port (portNo .vec (4 + la)) =
          ((s.tile t).portPut (portNo .vec (4 + la)) k).port (portNo .vec (4 + la)) ∧
        k.head = false ∧ k.slot = g.slot ∧
        k.last = (decide (hLen g.handle ≤ g.line + 1) && ((s.tile t).launchDesc la).last) ∧
        k.data = BitVec.ofNat 512 ((s.tile t).rdN ((s.tile t).hAddr g.handle + 64 * g.line) 64)) ∧
      (g.line + 1 < hLen g.handle →
        (s'.tile t).launch la = { (s.tile t).launch la with cur := some { g with line := g.line + 1 } }) ∧
      (hLen g.handle ≤ g.line + 1 →
        (s'.tile t).launch la = { cur := none, openSeq := ((s.tile t).launch la).openSeq &&
          !(((s.tile t).launchDesc la).last || ((s.tile t).launchDesc la).head || g.bound.isSome) }) ∧
      (s'.tile t).hq = (s.tile t).hq ∧ (s'.tile t).cfg = (s.tile t).cfg ∧ (s'.tile t).mp = (s.tile t).mp)

/-- The budget with which a request is issued: BUDGET less ENTRY_NS, the hold charge and the time since its
commit; an unbounded one is charged nothing (R319, R320, R327). -/
def issueBudget (t : Nat) (g : Sending) (bud stamp : Nat) (s : State) : Int :=
  if bud = unbounded then (unbounded : Int)
  else (bud : Int) - fld (s.slotA (s.tile t).cfg.ctx g.slot) 20 12 - ((s.tile t).cfg.holdAt stamp : Nat) -
    ((s.tile t).ns stamp (s.tile t).clk.cyc : Nat)

/-- A request leaves as a head with its issue budget on every output of its route; one whose budget has run out
is discarded, counted and raises REQ_LATE (R320). A request of one line ends with its head. -/
def EntriesAreIssued : Prop :=
  ∀ (t : Nat) (la : Fin 4) (g : Sending) (bud stamp seq : Nat) (user : BitVec 448) (s : State),
    s.present t = true → ((s.tile t).launch la).cur = some g → g.entry = some (bud, stamp, seq, user) →
    (s.tile t).outsOf .vec (4 + la) ≠ [] → (s.tile t).portHead (portNo .vec (4 + la)) = none →
    s.unitRuns t (.launch la) = true → (s.tile t).fab.switchDue = false → (s.tile t).cfg.origin = false →
    (s.tile t).drains = false →
    (∀ o ∈ (s.tile t).outsOf .vec (4 + la), ∀ k : Token, k.head = true → s.outRoom t .vec o k = true) →
    (0 ≤ issueBudget t g bud stamp s →
      Completes (.entryIssue t la) s (fun s' =>
        (s'.tile t).launch la = (if hLen g.handle = 1 then { cur := none, openSeq := false }
          else { cur := some { g with entry := none }, openSeq := true }) ∧
        (∀ o ∈ (s.tile t).outsOf .vec (4 + la), o < 4 → OnLink t .vec o
          { data := headData (issueBudget t g bud stamp s).toNat
              (Token.seq { data := headData bud seq user }) (Token.user { data := headData bud seq user }),
            slot := g.slot, head := true, last := decide (hLen g.handle = 1) && ((s.tile t).launchDesc la).last } s s') ∧
        s'.mem = s.mem ∧ s'.ctxs = s.ctxs ∧ s'.hdrs = s.hdrs ∧ s'.log = s.log ∧ s'.dev = s.dev ∧
        (s'.tile t).cfg = (s.tile t).cfg ∧ (s'.tile t).mp = (s.tile t).mp)) ∧
    (issueBudget t g bud stamp s < 0 →
      Completes (.entryIssue t la) s (fun s' => TileLocal t s s' ∧ ((s'.tile t).launch la).cur = none ∧
        LateCounted (s.tile t).cfg.ctx g.slot s s' ∧ bit (s'.hdr (pgTile t 0)).err Err.reqLate.bit = true))

/-- The head of a port's delay queue moves into its FIFO with the payload its place in the region holds (R184,
R185); a port, or a landing port, that has stood LIMIT × 1,024 cycles raises PROGRESS and stops (R189). -/
def DelayQueuesAndProgress : Prop :=
  (∀ (t p : Nat) (tk : Token) (rest : List Token) (s : State),
    s.present t = true → p < 34 → s.unitRuns t (.port p) = true →
    ((s.tile t).port p).queue = tk :: rest →
    ((s.tile t).port p).fifo.length < 8 →
    Completes (.delayQueueMove t p) s (fun s' => OnlyTile t s s' ∧
      ((s'.tile t).port p).queue = rest ∧
      ((s'.tile t).port p).fifo = ((s.tile t).port p).fifo ++
        [{ tk with data := BitVec.ofNat 512 ((s.tile t).rdN ((s.tile t).dqAddr p tk.place) tk.width),
                   place := 0, width := 0 }] ∧
      (∀ p', p' ≠ p → (s'.tile t).port p' = (s.tile t).port p') ∧
      (s'.tile t).sp = (s.tile t).sp)) ∧
  (∀ (t port : Nat) (s : State), s.present t = true → (s.tile t).fabLimit ≠ 0 →
    (port < 34 → (s.tile t).fabLimit * 1024 ≤ ((s.tile t).port port).watch →
      Completes (.progress t port) s (fun s' => TileLocal t s s' ∧
        (s'.tile t).port port = { (s.tile t).port port with watch := 0 } ∧ (.port port) ∈ (s'.tile t).stopped ∧
        bit (s'.hdr (pgTile t 0)).err Err.fabProgress.bit = true ∧ (s'.tile t).sp = (s.tile t).sp)) ∧
    (∀ l, port = 34 + l → l < 4 → (s.tile t).fabLimit * 1024 ≤ ((s.tile t).landing l).watch →
      Completes (.progress t port) s (fun s' => TileLocal t s s' ∧
        (s'.tile t).landing l = { (s.tile t).landing l with watch := 0 } ∧ (.landing l) ∈ (s'.tile t).stopped ∧
        bit (s'.hdr (pgTile t 0)).err Err.fabProgress.bit = true ∧ (s'.tile t).sp = (s.tile t).sp)))

/-- A steering unit stands, in the live plane, in a state whose operation is `op`, and may fire: no condition
of another tag and no token out of a sequence stands in its way (R194, R197, R199, R203). -/
def SteerAt (t u op : Nat) (s : State) : Prop :=
  s.present t = true ∧ ((s.tile t).steerSt (s.tile t).cfg.plane u
    ((s.tile t).seqr (s.tile t).cfg.plane u).state).op = op ∧
  s.steers t u = true ∧ (s.tile t).strayCond u = false ∧ (s.tile t).straySeq u = false

/-- The decision c of the unit's next move (R198, R199): that of the open sequence; none is needed for PASS; the
condition taken before, or the one at the head of the condition queue, which the move then takes. -/
def Decides (t u op : Nat) (c takes : Bool) (s : State) : Prop :=
  let q := (s.tile t).seqr (s.tile t).cfg.plane u
  (q.opened = true ∧ c = q.sel ∧ takes = false) ∨
  (q.opened = false ∧ op = 1 ∧ c = false ∧ takes = false) ∨
  (q.opened = false ∧ op ≠ 1 ∧ q.cond = some c ∧ takes = false) ∨
  (q.opened = false ∧ op ≠ 1 ∧ q.cond = none ∧ takes = true ∧
    ∃ kc, (s.tile t).portHead (steerPort u 2) = some kc ∧
      c = condVal (s.tile t) u ((s.tile t).steerSt (s.tile t).cfg.plane u q.state) kc)

/-- The command is a data operation `op` of steering unit u: it consumes the data head that its decision names,
and the condition where it takes one, puts the data on the output that the decision names (or discards it), and
the sequencer goes on or holds its sequence open (R196 to R200). -/
def SteersData (i : Instr) (t : Nat) (u : Fin 2) (op : Nat) : Prop :=
  ∀ (k : Token) (c takes : Bool) (s : State), SteerAt t u op s → Decides t u op c takes s →
    (s.tile t).portHead (steerPort u (steerPath op c).1) = some k →
    (((s.tile t).steerSt (s.tile t).cfg.plane u ((s.tile t).seqr (s.tile t).cfg.plane u).state).grain = true →
      ((s.tile t).seqr (s.tile t).cfg.plane u).opened = false → k.head = true) →
    (∀ o, (steerPath op c).2 = some o → (s.tile t).portRoom (qPort (s.tile t) u o) = true) →
    Completes i s (fun s' => OnlyTileStats t s s' ∧
      ((s'.tile t).port (steerPort u (steerPath op c).1)).fifo =
        ((s.tile t).port (steerPort u (steerPath op c).1)).fifo.tail ∧
      ((s'.tile t).port (steerPort u 2)).fifo =
        (if takes then ((s.tile t).port (steerPort u 2)).fifo.tail else ((s.tile t).port (steerPort u 2)).fifo) ∧
      (∀ o, (steerPath op c).2 = some o → (s'.tile t).port (qPort (s.tile t) u o) =
        ((s.tile t).portPut (qPort (s.tile t) u o) { k with arr := (s.tile t).clk.cyc }).port (qPort (s.tile t) u o)) ∧
      (s'.tile t).seqr (s.tile t).cfg.plane u =
        (if ((s.tile t).steerSt (s.tile t).cfg.plane u ((s.tile t).seqr (s.tile t).cfg.plane u).state).grain && !k.last then
          { (s.tile t).seqr (s.tile t).cfg.plane u with opened := true, sel := c }
        else ((s.tile t).seqr (s.tile t).cfg.plane u).complete (s.tile t) (s.tile t).cfg.plane u c) ∧
      (s'.tile t).cfg = (s.tile t).cfg)

/-- ROUTE, MERGE, FILTER and PASS move the data that their decision selects (R196, R198); MERGE takes its
condition and waits where the head it names has not come (R198). -/
def SteeringMovesData : Prop :=
  ∀ (t : Nat) (u : Fin 2), SteersData (.pass t u) t u 1 ∧ SteersData (.route t u) t u 2 ∧
    SteersData (.merge t u) t u 3 ∧ SteersData (.filter t u) t u 4 ∧
    ∀ (c : Bool) (s : State), SteerAt t u 3 s → Decides t u 3 c true s →
      (s.tile t).portHead (steerPort u (steerPath 3 c).1) = none →
      Completes (.merge t u) s (fun s' => OnlyTile t s s' ∧
        ((s'.tile t).port (steerPort u 2)).fifo = ((s.tile t).port (steerPort u 2)).fifo.tail ∧
        (s'.tile t).seqr (s.tile t).cfg.plane u =
          { (s.tile t).seqr (s.tile t).cfg.plane u with cond := some c } ∧
        (s'.tile t).sp = (s.tile t).sp ∧ (s'.tile t).cfg = (s.tile t).cfg)

/-- EMIT puts one control token of its state's tag and value on the unit's output, and TAKEC takes one
condition and lets it select the next state (R196, R200). -/
def SteeringEmitsAndTakes : Prop :=
  ∀ (t : Nat) (u : Fin 2) (s : State),
    (SteerAt t u 5 s → (s.tile t).portRoom (portNo .ctl (5 + u)) = true →
      Completes (.emit t u) s (fun s' => OnlyTileStats t s s' ∧
        (∃ k, (s'.tile t).port (portNo .ctl (5 + u)) =
            ((s.tile t).portPut (portNo .ctl (5 + u)) k).port (portNo .ctl (5 + u)) ∧
          k.tag = ((s.tile t).steerSt (s.tile t).cfg.plane u
            ((s.tile t).seqr (s.tile t).cfg.plane u).state).etag ∧
          k.val1 = ((s.tile t).steerSt (s.tile t).cfg.plane u
            ((s.tile t).seqr (s.tile t).cfg.plane u).state).eval_) ∧
        (s'.tile t).seqr (s.tile t).cfg.plane u =
          ((s.tile t).seqr (s.tile t).cfg.plane u).complete (s.tile t) (s.tile t).cfg.plane u false ∧
        (s'.tile t).cfg = (s.tile t).cfg)) ∧
    (∀ k, SteerAt t u 6 s → (s.tile t).portHead (steerPort u 2) = some k →
      Completes (.takec t u) s (fun s' => OnlyTileStats t s s' ∧
        ((s'.tile t).port (steerPort u 2)).fifo = ((s.tile t).port (steerPort u 2)).fifo.tail ∧
        (s'.tile t).seqr (s.tile t).cfg.plane u =
          ((s.tile t).seqr (s.tile t).cfg.plane u).complete (s.tile t) (s.tile t).cfg.plane u
            (condVal (s.tile t) u ((s.tile t).steerSt (s.tile t).cfg.plane u
              ((s.tile t).seqr (s.tile t).cfg.plane u).state) k) ∧
        (s'.tile t).sp = (s.tile t).sp ∧ (s'.tile t).cfg = (s.tile t).cfg))

/-- Once the switch cycle that follows a dwell has passed, the tile goes to the next step of its plane sequence
(R202, R203). -/
def PlaneSwitchTakesTheNextStep : Prop :=
  ∀ (t : Nat) (s : State), s.present t = true → (s.tile t).fab.switchDue = true →
    1 ≤ (s.tile t).fab.switchOver → s.tileRuns t = true →
    Completes (.planeSwitch t []) s (fun s' => OnlyTile t s s' ∧
      (s'.tile t).cfg.step = ((s.tile t).cfg.step + 1) % max 1 (s.tile t).pseqLen ∧
      (s'.tile t).cfg.plane = ((s.tile t).pseq (((s.tile t).cfg.step + 1) % max 1 (s.tile t).pseqLen)).1 ∧
      (s'.tile t).fab.switchDue = false ∧ (s'.tile t).fab.dwell = (s.tile t).fab.switchOver - 1 ∧
      (s'.tile t).fab.ports = (s.tile t).fab.ports ∧ (s'.tile t).nests = (s.tile t).nests ∧
      (s'.tile t).sp = (s.tile t).sp ∧ (s'.tile t).mp = (s.tile t).mp ∧
      (s'.tile t).cfg.live = (s.tile t).cfg.live)

end Sys2Proof

/-- SWITCH_TOKEN_MOVE, LINK_CROSSING, LANDING_HEAD_TOKEN and LANDING_DATA_TOKEN: tokens move through switches,
over links and into landings. -/
def Obligations.TokensMoveThroughTheFabric : Prop :=
  SwitchMovesTheHeadToken ∧ TokensCrossLinks ∧ TokensLand

/-- PASS, ROUTE, MERGE, FILTER, EMIT, TAKEC and PLANE_SWITCH: steering units move, emit and take tokens, and the
plane sequence steps. -/
def Obligations.SteeringMovesEmitsAndPlanesSwitch : Prop :=
  SteeringMovesData ∧ SteeringEmitsAndTakes ∧ PlaneSwitchTakesTheNextStep

/-- LAUNCH_HANDLE_POP, LAUNCH_DATA_TOKEN, ENTRY_ISSUE, DELAY_QUEUE_MOVE and PROGRESS: launch ports send, delay
queues move and progress errors are raised. -/
def Obligations.LaunchPortsAndDelayQueues : Prop :=
  LaunchPortsTakeHandles ∧ LaunchPortsSendLines ∧ EntriesAreIssued ∧ DelayQueuesAndProgress

namespace Sys2Proof

/-! ### Messages and sync counters (chapter 07) -/

/-- A WRITE that R44 lets in: its length is right, the window takes it, its lines' banks are on. -/
def WriteReady (t : Nat) (m : Msg) (s : State) : Prop :=
  MsgReady t 0x01 m s ∧ m.mlen = m.payload.length ∧ 0 < m.payload.length ∧ m.payload.length ≤ 4096 ∧
  winCheck (s.tile t) m m.off m.payload.length = none ∧
  (s.tile t).linesOn (((s.tile t).win m.win).base * 64 + m.off) m.payload.length = true

/-- A WRITE commits its payload (stamped at a slot's entry window) at the window's base plus its offset,
raises the credit of a channel ring, increments the window's counter when the entry says so, and changes
nothing else of the tile (R44 to R49, R227, R318). -/
def WriteCommitsItsPayload : Prop :=
  ∀ (t : Nat) (m : Msg) (s : State), WriteReady t m s →
    Completes (.write t) s (fun s' => Taken t s s' ∧ TileLocal t s s' ∧
      SameEngines (s.tile t) (s'.tile t) ∧ (s'.tile t).hq = (s.tile t).hq ∧
      (s'.tile t).sp = ((s.tile t).wr (((s.tile t).win m.win).base * 64 + m.off)
        (stamped s t m.win m.payload)).sp ∧
      (∀ r, (s.tile t).recvOf m.win = some r →
        ((s'.tile t).ch r).credit = ((s.tile t).ch r).credit + m.payload.length / 64) ∧
      (((s.tile t).win m.win).incEn = true → (s.tile t).counterHeld ((s.tile t).win m.win).cnt = false →
        ((s'.tile t).counter ((s.tile t).win m.win).cnt).value =
          min 0xFFFFFF (((s.tile t).counter ((s.tile t).win m.win).cnt).value + 1)) ∧
      (((s.tile t).win m.win).incEn = false → (s'.tile t).mp.counters = (s.tile t).mp.counters) ∧
      (s.unitExists m.src = true → Sent (answer m 0x04 0 0) s'))

/-- A WRITE that the window does not take, or whose lines' bank is off, stores nothing: its error is raised on the
tile's scratchpad page, and it is answered ERROR (R39, R44, R45, R218). One whose payload is not as long as MLEN says, or
that has none or more than 4,096 bytes, raises MSG_OP and is answered ERROR (R214, R218). -/
def WriteTurnedAwayStoresNothing : Prop :=
  (∀ (t : Nat) (im : InMsg) (s : State), s.present t = true → (s.tile t).gated = false → s.headMsg t = some im →
    im.msg.op = 0x01 →
    (im.msg.mlen ≠ im.msg.payload.length ∨ im.msg.payload.length = 0 ∨ 4096 < im.msg.payload.length) →
    Completes (.write t) s (fun s' => Taken t s s' ∧ s'.tiles = s.tiles ∧ s'.mem = s.mem ∧
      bit (s'.hdr (pgTile t 2)).err Err.msgOp.bit = true ∧
      (s.unitExists im.msg.src = true → Sent (tileAnswer s t im.msg 0x04 6 0) s'))) ∧
  ∀ (t : Nat) (m : Msg) (e : Err) (s : State), MsgReady t 0x01 m s → m.mlen = m.payload.length →
    0 < m.payload.length → m.payload.length ≤ 4096 →
    (winCheck (s.tile t) m m.off m.payload.length = some e ∨
      (winCheck (s.tile t) m m.off m.payload.length = none ∧ e = .bankOff ∧
        (s.tile t).linesOn (((s.tile t).win m.win).base * 64 + m.off) m.payload.length = false)) →
    Completes (.write t) s (fun s' => Taken t s s' ∧ s'.tiles = s.tiles ∧ s'.mem = s.mem ∧
      bit (s'.hdr (pgTile t 1)).err e.bit = true ∧
      (s.unitExists m.src = true → Sent (answer m 0x04 6 0) s'))

/-- A PAD writes its 64-byte record header where it stands, raises the credit of its ring and makes no increment
(R214, R225, R227; its SEQ is the model's reading, assumption 44), and one that the window does not take, or whose line's
bank is off, writes nothing and raises its error (R39, R44); an HPUSH whose handle lies in an open window
joins its queue (R52), and one whose handle does not raises HANDLE_BOUNDS, or HQ_OVERFLOW where it finds 16 handles
there, and is lost (R52, R53). -/
def PadAndHandlePush : Prop :=
  (∀ (t : Nat) (m : Msg) (s : State), MsgReady t 0x02 m s → winCheck (s.tile t) m m.off 64 = none →
    (s.tile t).linesOn (((s.tile t).win m.win).base * 64 + m.off) 64 = true →
    Completes (.pad t) s (fun s' => Taken t s s' ∧ TileLocal t s s' ∧
      SameEngines (s.tile t) (s'.tile t) ∧ (s'.tile t).hq = (s.tile t).hq ∧
      (s'.tile t).mp.counters = (s.tile t).mp.counters ∧
      (s'.tile t).sp = ((s.tile t).wr (((s.tile t).win m.win).base * 64 + m.off)
        (chHeader 2 (((s.tile t).win m.win).size - m.off / 64) 0 m.src
          (((s.tile t).recvOf m.win).map (fun r => ((s.tile t).ch r).seq) |>.getD 0))).sp ∧
      (∀ r, (s.tile t).recvOf m.win = some r → ((s'.tile t).ch r).credit =
        ((s.tile t).ch r).credit + (((s.tile t).win m.win).size - m.off / 64)))) ∧
  (∀ (t : Nat) (m : Msg) (s : State), MsgReady t 0x03 m s → m.mlen = 4 → m.payload.length = 4 →
    (s.tile t).pushRes (m.win % 4) (BitVec.ofNat 32 (leNat m.payload)) = .ok →
    Completes (.hpush t) s (fun s' => Taken t s s' ∧ OnlyTile t (dropMsg t s) s' ∧
      (s'.tile t).hqueue (m.win % 4) =
        (s.tile t).hqueue (m.win % 4) ++ [BitVec.ofNat 32 (leNat m.payload)] ∧
      (∀ q, q ≠ m.win % 4 → (s'.tile t).hqueue q = (s.tile t).hqueue q) ∧
      SameEngines (s.tile t) (s'.tile t) ∧ (s'.tile t).sp = (s.tile t).sp ∧ (s'.tile t).mp = (s.tile t).mp)) ∧
  (∀ (t : Nat) (m : Msg) (e : Err) (s : State), MsgReady t 0x02 m s →
    (winCheck (s.tile t) m m.off 64 = some e ∨
      (winCheck (s.tile t) m m.off 64 = none ∧ e = .bankOff ∧
        (s.tile t).linesOn (((s.tile t).win m.win).base * 64 + m.off) 64 = false)) →
    Completes (.pad t) s (fun s' => Taken t s s' ∧ s'.tiles = s.tiles ∧ s'.mem = s.mem ∧
      bit (s'.hdr (pgTile t 1)).err e.bit = true)) ∧
  (∀ (t : Nat) (m : Msg) (e : Err) (s : State), MsgReady t 0x03 m s → m.mlen = 4 → m.payload.length = 4 →
    ((s.tile t).pushRes (m.win % 4) (BitVec.ofNat 32 (leNat m.payload)) = .full ∧ e = .hqOverflow ∨
      (s.tile t).pushRes (m.win % 4) (BitVec.ofNat 32 (leNat m.payload)) = .bounds ∧ e = .handleBounds) →
    Completes (.hpush t) s (fun s' => Taken t s s' ∧ s'.tiles = s.tiles ∧
      bit (s'.hdr (pgTile t 1)).err e.bit = true))

/-- A counter message that R233 to R240 let in: the counter NORMAL and not frozen, an amount where one
is needed, the owner's tiles or management for CRESET and the export grant for the others, and no stale epoch. -/
def CounterReady (t op : Nat) (m : Msg) (s : State) : Prop :=
  MsgReady t op m s ∧ (s.tile t).cfg.frozen = false ∧ ((s.tile t).counter m.cnt).lost = false ∧
  ((op = 0x08 ∨ op = 0x09 ∨ op = 0x0A) → m.amt ≠ 0) ∧
  (if op = 0x0E then (m.sctx = (s.tile t).cfg.ctx ∧ tidDie m.src < 20) ∨ m.src = unitMgt
    else admits (s.tile t) m = true) ∧
  epochRes (s.tile t) m ≠ .stale

/-- The counter as the message finds it: with a newer epoch it stands at BASE first, without waiters (R238). -/
def found (x : Tile) (m : Msg) : Counter :=
  if epochRes x m = .advance then
    { x.counter m.cnt with value := fld (x.ccfg m.cnt) 0 24, epoch := m.epoch, waiters := [none, none, none, none] }
  else x.counter m.cnt

/-- A counter operation leaves the tile's other counters, its scratchpad and its engines. -/
def CounterFrame (t c : Nat) (s s' : State) : Prop :=
  Taken t s s' ∧ TileLocal t s s' ∧ SameEngines (s.tile t) (s'.tile t) ∧ (s'.tile t).sp = (s.tile t).sp ∧
  (s'.tile t).hq = (s.tile t).hq ∧ (s'.tile t).stopped = (s.tile t).stopped ∧
  ∀ d, d ≠ c → (s'.tile t).counter d = (s.tile t).counter d

/-- CINC adds and CDEC subtracts with saturation at 2^24 − 1 and 0 under their flags, CRESET goes to
BASE (R233, R234); each under the epoch it brings (R238). -/
def CounterMessagesChangeTheValue : Prop :=
  ∀ (t : Nat) (m : Msg) (s : State),
    (CounterReady t 0x08 m s → Completes (.cinc t) s (fun s' => CounterFrame t m.cnt s s' ∧
      ((s'.tile t).counter m.cnt).value = min 0xFFFFFF ((found (s.tile t) m).value + m.amt) ∧
      ((s'.tile t).counter m.cnt).epoch = (found (s.tile t) m).epoch ∧
      ((s'.tile t).counter m.cnt).satHi = (((s.tile t).counter m.cnt).satHi ||
        decide (0xFFFFFF < (found (s.tile t) m).value + m.amt)) ∧
      ((s'.tile t).counter m.cnt).satLo = ((s.tile t).counter m.cnt).satLo)) ∧
    (CounterReady t 0x09 m s → Completes (.cdec t) s (fun s' => CounterFrame t m.cnt s s' ∧
      ((s'.tile t).counter m.cnt).value = (found (s.tile t) m).value - m.amt ∧
      ((s'.tile t).counter m.cnt).epoch = (found (s.tile t) m).epoch ∧
      ((s'.tile t).counter m.cnt).satLo = (((s.tile t).counter m.cnt).satLo ||
        decide ((found (s.tile t) m).value < m.amt)) ∧
      ((s'.tile t).counter m.cnt).satHi = ((s.tile t).counter m.cnt).satHi)) ∧
    (CounterReady t 0x0E m s → Completes (.creset t) s (fun s' => CounterFrame t m.cnt s s' ∧
      ((s'.tile t).counter m.cnt).value = fld ((s.tile t).ccfg m.cnt) 0 24 ∧
      ((s'.tile t).counter m.cnt).epoch = (found (s.tile t) m).epoch ∧
      ((s'.tile t).counter m.cnt).satHi = ((s.tile t).counter m.cnt).satHi ∧
      ((s'.tile t).counter m.cnt).satLo = ((s.tile t).counter m.cnt).satLo))

/-- A CLAIM at a counter without SAT_HI takes its n and is answered with the value before; one that would pass
2^24 − 1 sets SAT_HI and is answered SATURATED, and so is one that finds SAT_HI set, which changes nothing (R235). A
CWAIT whose threshold is met is released at once, and another waits in the first free record (R236). -/
def ClaimAndWaitAtTheCounter : Prop :=
  ∀ (t : Nat) (m : Msg) (s : State),
    (CounterReady t 0x0A m s → s.unitExists m.src = true → ((s.tile t).counter m.cnt).satHi = false →
      ((found (s.tile t) m).value + m.amt ≤ 0xFFFFFF →
        Completes (.claim t) s (fun s' => CounterFrame t m.cnt s s' ∧
          ((s'.tile t).counter m.cnt).value = (found (s.tile t) m).value + m.amt ∧
          Sent (answer m 0x0B 0 (setFld m.w1 13 24 (found (s.tile t) m).value)) s')) ∧
      (0xFFFFFF < (found (s.tile t) m).value + m.amt →
        Completes (.claim t) s (fun s' => CounterFrame t m.cnt s s' ∧
          ((s'.tile t).counter m.cnt).value = 0xFFFFFF ∧ ((s'.tile t).counter m.cnt).satHi = true ∧
          bit (s'.hdr (pgTile t 2)).err Err.cntSaturated.bit = true ∧
          Sent (answer m 0x0B 1 (setFld m.w1 13 24 0)) s'))) ∧
    (CounterReady t 0x0A m s → s.unitExists m.src = true → ((s.tile t).counter m.cnt).satHi = true →
      Completes (.claim t) s (fun s' => CounterFrame t m.cnt s s' ∧
        ((s'.tile t).counter m.cnt).value = (found (s.tile t) m).value ∧
        ((s'.tile t).counter m.cnt).satHi = true ∧
        Sent (answer m 0x0B 1 (setFld m.w1 13 24 0)) s')) ∧
    (∀ i, CounterReady t 0x0C m s → (found (s.tile t) m).waiters.findIdx? (·.isNone) = some i → i < 4 →
      Completes (.cwait t) s (fun s' => CounterFrame t m.cnt s s' ∧
        ((s'.tile t).counter m.cnt).value = (found (s.tile t) m).value ∧
        (((s'.tile t).counter m.cnt).waiters.getD i none).isSome =
          decide ((found (s.tile t) m).value < m.amt)))

/-- How a tile answers what it turns away: a CLAIM by CRESP, a CWAIT by CREL, a CH_OPEN by CH_OPENR, but where its mould
restarts, and anything else by an ACK, from the tile's own context (R212, R218, R223, R358, R546). -/
def refusal (s : State) (t : Nat) (m : Msg) (st : Nat) : Msg :=
  if m.op = 0x0A then tileAnswer s t m 0x0B st (setFld m.w1 13 24 0)
  else if m.op = 0x0C then tileAnswer s t m 0x0D st (setFld m.w1 13 24 0)
  else if m.op = 0x10 ∧ (s.tile t).cfg.contained = false then tileAnswer s t m 0x11 st (m.w1 &&& 0x7F)
  else tileAnswer s t m 0x04 st 0

/-- The message at the head of tile t's inbox is one that the tile turns away with status `st`: FROZEN where the context
it is for is frozen, OWNER_LOST where that context does not own the tile or restarts (R219, R358). -/
def TurnsAway (t op st : Nat) (m : Msg) (s : State) : Prop :=
  s.present t = true ∧ (s.tile t).gated = false ∧ m.op = op ∧
  (s.headMsg t).map (fun im => (im.msg, msgFault im)) = some (m, none) ∧ turnAway (s.tile t) m = some st

/-- A held counter stands: a CINC, CDEC, CRESET, CLAIM or CWAIT for it at a frozen tile is answered FROZEN, and one at a
LOST counter OWNER_LOST, and nothing is applied (R239, R240, R546). -/
def HeldCountersStand : Prop :=
  ∀ (t op st : Nat) (i : Instr) (m : Msg) (s : State),
    (i, op) ∈ [(Instr.cinc t, 0x08), (.cdec t, 0x09), (.claim t, 0x0A), (.cwait t, 0x0C), (.creset t, 0x0E)] →
    (TurnsAway t op st m s ∨ (MsgReady t op m s ∧ ((s.tile t).counter m.cnt).lost = true ∧ st = 2)) →
    Completes i s (fun s' => Taken t s s' ∧ s'.tiles = s.tiles ∧ s'.mem = s.mem ∧
      (s.unitExists m.src = true → s'.ctxs = s.ctxs ∧ s'.hdrs = s.hdrs ∧ Sent (refusal s t m st) s'))

end Sys2Proof

/-- WRITE, PAD and HPUSH: messages commit at their tile, and one turned away stores nothing. -/
def Obligations.WritesAndHandlesCommit : Prop :=
  WriteCommitsItsPayload ∧ WriteTurnedAwayStoresNothing ∧ PadAndHandlePush

/-- CINC, CDEC, CRESET, CLAIM and CWAIT: counter messages change the value, claim it or wait at it, and leave a held
counter as it is. -/
def Obligations.CounterCommands : Prop :=
  CounterMessagesChangeTheValue ∧ ClaimAndWaitAtTheCounter ∧ HeldCountersStand

namespace Sys2Proof

/-- The operation with this tag waits for its resend (R219). -/
def FrozenAgain (t tag : Nat) (s s' : State) : Prop :=
  ∀ o, (s.tile t).sentOp tag = some o →
    (s'.tile t).sentOp tag = some { o with frozenAt := some (s.tile t).clk.cyc, frozen := true }

/-- A CRESP settles its operation, writes AMT and STATUS at the return buffer and increments RCNT (R235). A CREL
OK, or OWNER_LOST that its waiter takes, settles its operation, increments RCNT and gives the STATUS token that it
asked for (R236, R240); OWNER_LOST without LOST_OK raises OWNER_LOST, and any other refusal WAIT_REFUSED (R240,
R546). A FROZEN answer keeps the operation for its resend (R219). -/
def AnswersSettleTheirOperation : Prop :=
  ∀ (t : Nat) (m : Msg) (s : State),
    (AnswerReady t 0x0B m s → m.status ≠ 3 →
      (s.tile t).linesOn ((((s.tile t).win m.rwin).base + m.roff) * 64) 8 = true →
      Completes (.cresp t) s (fun s' => Taken t s s' ∧ TileLocal t s s' ∧
        SameEngines (s.tile t) (s'.tile t) ∧ (s'.tile t).hq = (s.tile t).hq ∧
        (s'.tile t).sentOp m.tag = none ∧
        ((s.tile t).counterHeld m.rcnt = false →
          ((s'.tile t).counter m.rcnt).value = min 0xFFFFFF (((s.tile t).counter m.rcnt).value + 1)) ∧
        (s'.tile t).sp = ((s.tile t).wr ((((s.tile t).win m.rwin).base + m.roff) * 64)
          (leBytes 8 (pack [(24, m.amt), (8, m.status)]))).sp)) ∧
    (AnswerReady t 0x0D m s → (m.status = 0 ∨ (m.status = 2 ∧ m.lostOk = true)) →
      Completes (.crel t) s (fun s' => Taken t s s' ∧ TileLocal t s s' ∧
        (s'.tile t).cfg = (s.tile t).cfg ∧ (s'.tile t).nests = (s.tile t).nests ∧ (s'.tile t).hq = (s.tile t).hq ∧
        (s'.tile t).sp = (if m.statEn then ((s.tile t).putStatus (m.status == 2)).sp else (s.tile t).sp) ∧
        (s'.tile t).fab = (if m.statEn then ((s.tile t).putStatus (m.status == 2)).fab else (s.tile t).fab) ∧
        (s'.tile t).sentOp m.tag = none ∧
        ((s.tile t).counterHeld m.rcnt = false →
          ((s'.tile t).counter m.rcnt).value = min 0xFFFFFF (((s.tile t).counter m.rcnt).value + 1)))) ∧
    (AnswerReady t 0x0D m s → m.status ≠ 0 → m.status ≠ 3 → (m.status = 2 → m.lostOk = false) →
      Completes (.crel t) s (fun s' => Taken t s s' ∧ s'.tile t = (settle t m.tag s).tile t ∧
        (s'.tile t).sentOp m.tag = none ∧
        bit (s'.hdr (pgTile t 2)).err (if m.status = 2 then Err.ownerLost.bit else Err.waitRefused.bit) = true)) ∧
    (AnswerReady t 0x0B m s → m.status = 3 →
      Completes (.cresp t) s (fun s' => OnlyTile t (dropMsg t s) s' ∧ FrozenAgain t m.tag s s')) ∧
    (AnswerReady t 0x0D m s → m.status = 3 →
      Completes (.crel t) s (fun s' => OnlyTile t (dropMsg t s) s' ∧ FrozenAgain t m.tag s s'))

/-- A message whose target context is frozen, or does not own the tile, changes nothing at the tile: it
is taken and answered FROZEN or OWNER_LOST (R219, R358; the answer to a CH_OPEN is assumption 44). -/
def TurnedAwayMessageChangesNothing : Prop :=
  ∀ (t op st : Nat) (m : Msg) (f : Msg → State → State) (s : State),
    (s.tile t).gated = false → m.op = op →
    (s.headMsg t).map (fun im => (im.msg, msgFault im)) = some (m, none) →
    turnAway (s.tile t) m = some st →
    (st = 2 ∨ st = 3) ∧ onHead t op f s = turnBack t m st (dropMsg t s) ∧
    (onHead t op f s).tiles = s.tiles ∧ (onHead t op f s).mem = s.mem ∧
    (s.unitExists m.src = true → Sent (refusal s t m st) (onHead t op f s))

/-- CH_OPEN binds a RECV record, is answered ACCEPTED with its size, and grants it (R224, R231); one that finds no
channel window or record is answered NOT_OPEN and changes nothing (R224). A CH_OPENR with status ACCEPTED opens the
record with that size and no credit, or lets it close where a close command has come; a refusal closes it with its
LAST code (R223). CH_CLOSE frees the RECV record and is answered CH_CLOSER (R230), which closes the SEND record
(R223). -/
def ChannelsOpenAndClose : Prop :=
  ∀ (t : Nat) (m : Msg) (s : State),
    (∀ r, MsgReady t 0x10 m s → openAccepts (s.tile t) m = some r →
      Completes (.chOpen t) s (fun s' => Taken t s s' ∧ TileLocal t s s' ∧
        (s'.tile t).ch r = { st := .bound, size := ((s.tile t).win m.win).size,
                             maxmsg := min 64 (((s.tile t).win m.win).size / 2), peer := m.src, peerRec := m.crec } ∧
        recKind ((s'.tile t).chrec r) = 3 ∧
        (∀ q, q ≠ r → (s'.tile t).ch q = (s.tile t).ch q) ∧ (s'.tile t).sp = (s.tile t).sp ∧
        (s'.tile t).mp.counters = (s.tile t).mp.counters ∧
        (s.unitExists m.src = true → Sent (fromTile s t 0x12 m.src m.sctx
          (chW1 m.win m.crec ((s.tile t).win m.win).size 0) (s.tile t).mp.tag) s'))) ∧
    (MsgReady t 0x10 m s → openAccepts (s.tile t) m = none →
      Completes (.chOpen t) s (fun s' => Taken t s s' ∧ s'.tiles = s.tiles ∧ s'.mem = s.mem ∧
        (s.unitExists m.src = true → Sent (answer m 0x11 5 (m.w1 &&& 0x7F)) s'))) ∧
    (AnswerReady t 0x11 m s → m.status = 0 → ((s.tile t).ch m.crec).st = .opening →
      ((s.tile t).ch m.crec).closeReq = false →
      Completes (.chOpenr t) s (fun s' => Taken t s s' ∧ OnlyTile t (dropMsg t s) s' ∧
        (s'.tile t).ch m.crec = { (s.tile t).ch m.crec with
          st := .opened, credit := 0, ptr := 0, seq := 0, size := m.lines, maxmsg := m.maxmsg } ∧
        (∀ q, q ≠ m.crec → (s'.tile t).ch q = (s.tile t).ch q) ∧
        (s'.tile t).sp = (s.tile t).sp ∧ (s'.tile t).mp.counters = (s.tile t).mp.counters)) ∧
    (AnswerReady t 0x11 m s → m.status = 0 → ((s.tile t).ch m.crec).st = .opening →
      ((s.tile t).ch m.crec).closeReq = true →
      Completes (.chOpenr t) s (fun s' => Taken t s s' ∧ TileLocal t s s' ∧
        ((s'.tile t).ch m.crec).st = .closing ∧ ((s'.tile t).ch m.crec).marked = ((s.tile t).ch m.crec).marked ∧
        (∀ q, q ≠ m.crec → (s'.tile t).ch q = (s.tile t).ch q) ∧
        (s'.tile t).sp = (s.tile t).sp ∧ (s'.tile t).mp.counters = (s.tile t).mp.counters)) ∧
    (∀ st code, (st, code) ∈ [(5, 1), (4, 2), (2, 3)] → AnswerReady t 0x11 m s → m.status = st →
      ((s.tile t).ch m.crec).st = .opening →
      Completes (.chOpenr t) s (fun s' => Taken t s s' ∧ OnlyTile t (dropMsg t s) s' ∧
        (s'.tile t).ch m.crec = { (s.tile t).ch m.crec with
          st := .closed, last := code, marked := 0, closeReq := false } ∧
        (∀ q, q ≠ m.crec → (s'.tile t).ch q = (s.tile t).ch q) ∧ (s'.tile t).sp = (s.tile t).sp)) ∧
    (∀ r, MsgReady t 0x14 m s → (s.tile t).recvOf m.win = some r → ((s.tile t).ch r).peer = m.src →
      Completes (.chClose t) s (fun s' => Taken t s s' ∧ TileLocal t s s' ∧
        (s'.tile t).ch r = {} ∧ recKind ((s'.tile t).chrec r) = 0 ∧
        (∀ q, q ≠ r → (s'.tile t).ch q = (s.tile t).ch q) ∧ (s'.tile t).sp = (s.tile t).sp ∧
        (s.unitExists m.src = true → Sent (answer m 0x15 0 (chW1 m.win m.crec 0 0)) s'))) ∧
    (MsgReady t 0x14 m s → (∀ r, (s.tile t).recvOf m.win = some r → ((s.tile t).ch r).peer ≠ m.src) →
      Completes (.chClose t) s (fun s' => Taken t s s' ∧ s'.tiles = s.tiles ∧
        (s.unitExists m.src = true → Sent (answer m 0x15 0 (chW1 m.win m.crec 0 0)) s'))) ∧
    (AnswerReady t 0x15 m s → ((s.tile t).ch m.crec).st = .closing →
      Completes (.chCloser t) s (fun s' => Taken t s s' ∧ OnlyTile t (dropMsg t s) s' ∧
        (s'.tile t).ch m.crec = { (s.tile t).ch m.crec with st := .closed, closeReq := false, closeSent := false } ∧
        (∀ q, q ≠ m.crec → (s'.tile t).ch q = (s.tile t).ch q) ∧
        (s'.tile t).sp = (s.tile t).sp ∧ (s'.tile t).mp.counters = (s.tile t).mp.counters))

/-- Credit that stays within SIZE reaches an open or closing SEND record, from a CH_RETURN or a CH_GRANT, and more
raises CH_CREDIT and reaches it not (R223, R227, R231). -/
def CreditReachesTheRecord (i : Instr) (t op : Nat) : Prop :=
  ∀ (m : Msg) (s : State), MsgReady t op m s →
    (((s.tile t).ch m.crec).st = .opened ∨ ((s.tile t).ch m.crec).st = .closing) →
    (((s.tile t).ch m.crec).credit + m.lines ≤ ((s.tile t).ch m.crec).size →
      Completes i s (fun s' => Taken t s s' ∧ OnlyTile t (dropMsg t s) s' ∧
        (s'.tile t).ch m.crec = { (s.tile t).ch m.crec with credit := ((s.tile t).ch m.crec).credit + m.lines } ∧
        (∀ q, q ≠ m.crec → (s'.tile t).ch q = (s.tile t).ch q) ∧ (s'.tile t).sp = (s.tile t).sp)) ∧
    (((s.tile t).ch m.crec).size < ((s.tile t).ch m.crec).credit + m.lines →
      Completes i s (fun s' => Taken t s s' ∧ TileLocal t s s' ∧ (s'.tile t).mp = (s.tile t).mp ∧
        (.record m.crec) ∈ (s'.tile t).stopped ∧ (s'.tile t).sp = (s.tile t).sp ∧
        bit (s'.hdr (pgTile t 2)).err Err.chCredit.bit = true))

/-- Credit reaches its record (R223); an ACK settles its operation and leaves the records alone, but for an
OWNER_LOST, which takes an open record to LOST and discards the handles of its queue (R218, R223). -/
def CreditAndAcknowledgement : Prop :=
  ∀ (t : Nat), CreditReachesTheRecord (.chReturn t) t 0x13 ∧ CreditReachesTheRecord (.chGrant t) t 0x12 ∧
  ∀ (m : Msg) (s : State), AnswerReady t 0x04 m s → m.status ≠ 3 →
    ((s.tile t).sentOp m.tag).any (fun o => o.msg.op == 0x10) = false →
    ((m.status = 2 → ((s.tile t).sentOp m.tag).bind (·.rec_) = none) →
      Completes (.ack t) s (fun s' => Taken t s s' ∧ OnlyTile t (dropMsg t s) s' ∧
        (s'.tile t).sentOp m.tag = none ∧
        (∀ g, g ≠ m.tag → (s'.tile t).sentOp g = (s.tile t).sentOp g) ∧
        (s'.tile t).mp.recs = (s.tile t).mp.recs ∧ (s'.tile t).mp.counters = (s.tile t).mp.counters ∧
        (s'.tile t).hq = (s.tile t).hq ∧ (s'.tile t).sp = (s.tile t).sp)) ∧
    (∀ r, m.status = 2 → ((s.tile t).sentOp m.tag).bind (·.rec_) = some r → ((s.tile t).ch r).st = .opened →
      Completes (.ack t) s (fun s' => Taken t s s' ∧ OnlyTile t (dropMsg t s) s' ∧
        (s'.tile t).sentOp m.tag = none ∧ ((s'.tile t).ch r).st = .lost ∧
        ((s'.tile t).ch r).drops =
          satTo 255 (((s.tile t).ch r).drops + ((s.tile t).hqueue (recHq ((s.tile t).chrec r))).length) ∧
        (s'.tile t).hqueue (recHq ((s.tile t).chrec r)) = [] ∧ (s'.tile t).sp = (s.tile t).sp))

/-- An open command on a closed or lost SEND record sends CH_OPEN; a close command marks the handles then in its
queue, on an opening record for later, and on an open one, which then is closing and, with none marked, sends
CH_CLOSE; it closes a lost one (R223). -/
def ChannelCommands : Prop :=
  ∀ (t : Nat) (r : Fin 8) (s : State),
    s.present t = true → s.mgt.boot = 2 → (s.tile t).clk.pstate ≠ .off → recKind ((s.tile t).chrec r) = 2 →
    s.unitExists (recDest ((s.tile t).chrec r)) = true →
    ((((s.tile t).ch r).st = .closed ∨ ((s.tile t).ch r).st = .lost) →
      Completes (.chcmdOpen t r) s (fun s' => TileLocal t s s' ∧
        (s'.tile t).ch r = { (s.tile t).ch r with
          st := .opening, closeReq := false, closeSent := false, marked := 0, watch := 0 } ∧
        (∀ q, q ≠ r.val → (s'.tile t).ch q = (s.tile t).ch q) ∧
        (s'.tile t).mp.counters = (s.tile t).mp.counters ∧ (s'.tile t).cfg = (s.tile t).cfg ∧
        (s'.tile t).mp.tag = ((s.tile t).mp.tag + 1) % 2 ^ 32 ∧
        Sent (fromTile s t 0x10 (recDest ((s.tile t).chrec r)) (recTctx ((s.tile t).chrec r))
          (chW1 (recWin ((s.tile t).chrec r)) r 0 0) (s.tile t).mp.tag) s')) ∧
    (((s.tile t).ch r).st = .opening →
      Completes (.chcmdClose t r) s (fun s' => TileLocal t s s' ∧
        (s'.tile t).ch r = { (s.tile t).ch r with
          closeReq := true, marked := ((s.tile t).hqueue (recHq ((s.tile t).chrec r))).length } ∧
        (∀ q, q ≠ r.val → (s'.tile t).ch q = (s.tile t).ch q) ∧
        (s'.tile t).mp.counters = (s.tile t).mp.counters ∧ (s'.tile t).cfg = (s.tile t).cfg)) ∧
    (((s.tile t).ch r).st = .opened →
      Completes (.chcmdClose t r) s (fun s' => TileLocal t s s' ∧
        ((s'.tile t).ch r).st = .closing ∧
        ((s'.tile t).ch r).marked = ((s.tile t).hqueue (recHq ((s.tile t).chrec r))).length ∧
        (∀ q, q ≠ r.val → (s'.tile t).ch q = (s.tile t).ch q) ∧
        (s'.tile t).mp.counters = (s.tile t).mp.counters ∧ (s'.tile t).cfg = (s.tile t).cfg ∧
        ((s.tile t).hqueue (recHq ((s.tile t).chrec r)) = [] → ((s.tile t).ch r).closeSent = false →
          (s.tile t).recFrozen r = false →
          ((s'.tile t).ch r).closeSent = true ∧
          Sent (fromTile s t 0x14 (recDest ((s.tile t).chrec r)) (recTctx ((s.tile t).chrec r))
            (chW1 (recWin ((s.tile t).chrec r)) r 0 0) (s.tile t).mp.tag) s'))) ∧
    (((s.tile t).ch r).st = .lost →
      Completes (.chcmdClose t r) s (fun s' => TileLocal t s s' ∧
        (s'.tile t).ch r = { (s.tile t).ch r with st := .closed } ∧
        (∀ q, q ≠ r.val → (s'.tile t).ch q = (s.tile t).ch q) ∧
        (s'.tile t).mp.counters = (s.tile t).mp.counters ∧ (s'.tile t).cfg = (s.tile t).cfg))

/-- What DIRECT_SEND needs: a DIRECT record that runs, a head handle of at most 64 lines whose lines are
on, a place for its WRITE, and a target that is not frozen and holds no message up (R220, R222, R229, R386). -/
def DirectReady (t r : Nat) (h : BitVec 32) (s : State) : Prop :=
  s.present t = true ∧ recKind ((s.tile t).chrec r) = 1 ∧ s.unitRuns t (.record r) = true ∧
  ((s.tile t).hqueue (recHq ((s.tile t).chrec r))).head? = some h ∧ hLen h ≤ 64 ∧
  (s.tile t).writeSlot (recDest ((s.tile t).chrec r)) = true ∧ (s.tile t).recFrozen r = false ∧
  (s.tile t).linesOn ((s.tile t).hAddr h) (hLen h * 64) = true ∧
  s.unitExists (recDest ((s.tile t).chrec r)) = true ∧ s.heldUp (recDest ((s.tile t).chrec r)) = false

/-- The bytes a DIRECT record sends: those of its handle; of a slot's exit, the first 8 replaced by the budget and
the SEQ (R222, R325). -/
def directBytes (t r : Nat) (h : BitVec 32) (s : State) : List Byte :=
  let bs := (s.tile t).rd ((s.tile t).hAddr h) (hLen h * 64)
  match s.exitBudget t r with
  | none => bs
  | some (_, b, q) => leBytes 4 b.toNat ++ leBytes 4 q ++ bs.drop 8

/-- A DIRECT record sends its head handle's bytes as one WRITE to its window (R222); a slot's exit replaces their
first 8 and records LASTSEQ and LASTBUD, and one whose budget has run out raises DEADLINE and sends nothing (R324,
R325). A handle of more than 64 lines is dropped with CH_TOOLONG (R222). While an export engine's full buffer holds a
message up the record waits (R386; that one message holds up every sender is the model's choice, log 135). -/
def DirectRecordSendsItsHandle : Prop :=
  ∀ (t : Nat) (r : Fin 8) (h : BitVec 32) (s : State),
    (DirectReady t r h s → (∀ e, s.exitBudget t r = some e → 0 ≤ e.2.1) →
      Completes (.directSend t r) s (fun s' => TileLocal t s s' ∧
        (s'.tile t).hqueue (recHq ((s.tile t).chrec r)) = ((s.tile t).hqueue (recHq ((s.tile t).chrec r))).tail ∧
        (s'.tile t).sp = (s.tile t).sp ∧ (s'.tile t).mp.counters = (s.tile t).mp.counters ∧
        SameEngines (s.tile t) (s'.tile t) ∧
        (s'.tile t).mp.tag = ((s.tile t).mp.tag + 1) % 2 ^ 32 ∧
        (∀ i b q, s.exitBudget t r = some (some i, b, q) →
          s'.devReg (pgCtx (s.tile t).cfg.ctx) (0x148 + 16 * i) =
            setFld (setFld (s.devReg (pgCtx (s.tile t).cfg.ctx) (0x148 + 16 * i)) 0 32 q) 32 20 b.toNat) ∧
        Sent { fromTile s t 0x01 (recDest ((s.tile t).chrec r)) (recTctx ((s.tile t).chrec r))
          (winW1 (recWin ((s.tile t).chrec r)) (hOff h * 64) (hLen h * 64)) (s.tile t).mp.tag with
          payload := directBytes t r h s } s')) ∧
    (∀ e, DirectReady t r h s → s.exitBudget t r = some e → e.2.1 < 0 →
      Completes (.directSend t r) s (fun s' => TileLocal t s s' ∧ (s'.tile t).hq = (s.tile t).hq ∧
        (s'.tile t).mp = (s.tile t).mp ∧ (.record r.val) ∈ (s'.tile t).stopped ∧
        bit (s'.hdr (pgTile t 0)).err Err.deadline.bit = true)) ∧
    (s.present t = true → recKind ((s.tile t).chrec r) = 1 →
      ((s.tile t).hqueue (recHq ((s.tile t).chrec r))).head? = some h → hLen h ≤ 64 →
      s.heldUp (recDest ((s.tile t).chrec r)) = true → Completes (.directSend t r) s (· = s)) ∧
    (s.present t = true → recKind ((s.tile t).chrec r) = 1 → s.unitRuns t (.record r) = true →
      ((s.tile t).hqueue (recHq ((s.tile t).chrec r))).head? = some h → 64 < hLen h →
      Completes (.directSend t r) s (fun s' => TileLocal t s s' ∧
        (s'.tile t).hqueue (recHq ((s.tile t).chrec r)) = ((s.tile t).hqueue (recHq ((s.tile t).chrec r))).tail ∧
        (s'.tile t).mp = (s.tile t).mp ∧ (.record r.val) ∈ (s'.tile t).stopped ∧
        bit (s'.hdr (pgTile t 2)).err Err.chToolong.bit = true))

/-- What CHANNEL_SEND needs: a SEND record that runs, open or with marked handles while it closes, a message that
fits its limits and its credit, a place for it, and a target that is not frozen (R223, R226, R229). -/
def ChannelReady (t r : Nat) (h : BitVec 32) (s : State) : Prop :=
  s.present t = true ∧ recKind ((s.tile t).chrec r) = 2 ∧ s.unitRuns t (.record r) = true ∧
  ((s.tile t).hqueue (recHq ((s.tile t).chrec r))).head? = some h ∧ chMaySend ((s.tile t).ch r) = true ∧
  ((s.tile t).ch r).closeSent = false ∧
  hLen h + 1 ≤ ((s.tile t).ch r).maxmsg ∧ hLen h ≤ 63 ∧
  chNeed (hLen h + 1) (((s.tile t).ch r).size - ((s.tile t).ch r).ptr) ≤ ((s.tile t).ch r).credit ∧
  (s.tile t).writeSlot (recDest ((s.tile t).chrec r)) = true ∧ (s.tile t).recFrozen r = false ∧
  (s.tile t).linesOn ((s.tile t).hAddr h) (hLen h * 64) = true ∧
  s.unitExists (recDest ((s.tile t).chrec r)) = true

/-- The message wraps: it does not fit between the record's pointer and the ring's end (R226). -/
def wraps (k : ChRec) (h : BitVec 32) : Bool := decide (k.size - k.ptr < hLen h + 1)

/-- The messages a SEND record sends for its head handle, with their tags from `tag` on: a pad where it wraps, the
message behind its header line, and CH_CLOSE after the last marked handle (R223, R225, R226). -/
def channelSends (t r : Nat) (h : BitVec 32) (s : State) : List Msg :=
  let x := s.tile t
  let w := x.chrec r
  let k := x.ch r
  let p := if wraps k h then 0 else k.ptr
  let msg (op tag : Nat) (w1 : Word) (bs : List Byte) : Msg :=
    { fromTile s t op (recDest w) (recTctx w) w1 ((x.mp.tag + tag) % 2 ^ 32) with payload := bs }
  let n := if wraps k h then 1 else 0
  (if wraps k h then [{ msg 0x02 0 (winW1 (recWin w) (k.ptr * 64) 0) [] with tag := x.mp.tag }] else []) ++
  [{ msg 0x01 n (winW1 (recWin w) (p * 64) ((hLen h + 1) * 64))
      (chHeader 1 (hLen h + 1) (hLen h * 64) t k.seq ++ x.rd (x.hAddr h) (hLen h * 64)) with
      tag := if wraps k h then (x.mp.tag + 1) % 2 ^ 32 else x.mp.tag }] ++
  (if k.st = .closing ∧ k.marked = 1 then [msg 0x14 (n + 1) (chW1 (recWin w) r 0 0) []] else [])

/-- A SEND record sends its head handle as one message behind a header line at its pointer, with a pad before it
where it wraps, and its credit, pointer and sequence number move on (R225, R226); the last marked handle of a
closing record is followed by CH_CLOSE (R223). A handle that fits no message is dropped with CH_TOOLONG (R226), and
in LOST a handle is discarded and counted (R223). -/
def ChannelRecordSendsItsHandle : Prop :=
  ∀ (t : Nat) (r : Fin 8) (h : BitVec 32) (s : State),
    (ChannelReady t r h s →
      Completes (.channelSend t r) s (fun s' => TileLocal t s s' ∧
        (s'.tile t).hqueue (recHq ((s.tile t).chrec r)) = ((s.tile t).hqueue (recHq ((s.tile t).chrec r))).tail ∧
        (s'.tile t).sp = (s.tile t).sp ∧ (s'.tile t).mp.counters = (s.tile t).mp.counters ∧
        SameEngines (s.tile t) (s'.tile t) ∧
        ((s'.tile t).ch r).credit = ((s.tile t).ch r).credit -
          chNeed (hLen h + 1) (((s.tile t).ch r).size - ((s.tile t).ch r).ptr) ∧
        ((s'.tile t).ch r).ptr = ((if wraps ((s.tile t).ch r) h then 0 else ((s.tile t).ch r).ptr) + (hLen h + 1)) %
          ((s.tile t).ch r).size ∧
        ((s'.tile t).ch r).seq = (((s.tile t).ch r).seq + 1) % 2 ^ 32 ∧
        ((s'.tile t).ch r).marked = ((s.tile t).ch r).marked - 1 ∧
        s'.routers.get (rkeyOf t t) [] =
          s.routers.get (rkeyOf t t) [] ++ (channelSends t r h s).flatMap packets)) ∧
    (s.present t = true → recKind ((s.tile t).chrec r) = 2 → s.unitRuns t (.record r) = true →
      ((s.tile t).hqueue (recHq ((s.tile t).chrec r))).head? = some h →
      (chMaySend ((s.tile t).ch r) = true → (((s.tile t).ch r).maxmsg < hLen h + 1 ∨ 63 < hLen h) →
        Completes (.channelSend t r) s (fun s' => TileLocal t s s' ∧
          (s'.tile t).hqueue (recHq ((s.tile t).chrec r)) = ((s.tile t).hqueue (recHq ((s.tile t).chrec r))).tail ∧
          (.record r.val) ∈ (s'.tile t).stopped ∧ (s'.tile t).sp = (s.tile t).sp ∧
          bit (s'.hdr (pgTile t 2)).err Err.chToolong.bit = true)) ∧
      (((s.tile t).ch r).st = .lost →
        Completes (.channelSend t r) s (fun s' => OnlyTile t s s' ∧
          (s'.tile t).hqueue (recHq ((s.tile t).chrec r)) = ((s.tile t).hqueue (recHq ((s.tile t).chrec r))).tail ∧
          (s'.tile t).ch r = { (s.tile t).ch r with drops := satTo 255 (((s.tile t).ch r).drops + 1) } ∧
          (s'.tile t).sp = (s.tile t).sp)))

/-- A record that has stood WLIMIT × 1,024 cycles raises PROGRESS and stops (R229); a frozen operation
is sent again after 1,024 tile cycles (R219); a FENCED operation leaves once nothing it waits for is
left (R221). -/
def WaitingOperationsGoOn : Prop :=
  (∀ (t : Nat) (r : Fin 8) (s : State), s.present t = true → recWlimit ((s.tile t).chrec r) ≠ 0 →
    recWlimit ((s.tile t).chrec r) * 1024 ≤ ((s.tile t).ch r).watch →
    Completes (.channelProgress t r) s (fun s' => TileLocal t s s' ∧
      (s'.tile t).ch r = { (s.tile t).ch r with watch := 0 } ∧ (.record r) ∈ (s'.tile t).stopped ∧
      bit (s'.hdr (pgTile t 2)).err Err.chProgress.bit = true ∧
      (s'.tile t).sp = (s.tile t).sp ∧ (s'.tile t).mp.counters = (s.tile t).mp.counters)) ∧
  (∀ (t tag c : Nat) (o : SentOp) (s : State), s.present t = true → (s.tile t).sentOp tag = some o →
    o.frozenAt = some c → c + 1024 ≤ (s.tile t).clk.cyc → s.unitExists o.msg.dest = true →
    Completes (.frozenResend t tag) s (fun s' => TileLocal t s s' ∧ Sent o.msg s' ∧
      ((s'.tile t).sentOp tag).map (·.frozenAt) = some none ∧ (s'.tile t).sp = (s.tile t).sp ∧
      (s'.tile t).mp.counters = (s.tile t).mp.counters ∧ SameEngines (s.tile t) (s'.tile t))) ∧
  (∀ (t : Nat) (f : Fenced) (s : State), s.present t = true →
    (s.tile t).mp.fenced.find? (fun f => f.tags.isEmpty) = some f →
    (s.tile t).cfg.halted = false → f.msg.src = t → s.unitExists f.msg.dest = true →
    Completes (.fencedSend t) s (fun s' => TileLocal t s s' ∧ Sent f.msg s' ∧
      (s'.tile t).mp.fenced = (s.tile t).mp.fenced.erase f ∧
      (s'.tile t).mp.sent = (s.tile t).mp.sent ++ [{ msg := f.msg, nest := f.nest }] ∧
      (s'.tile t).sp = (s.tile t).sp ∧ (s'.tile t).cfg = (s.tile t).cfg ∧
      (s'.tile t).mp.counters = (s.tile t).mp.counters))

/-- A hand set writes the value of a NORMAL counter, raises CNT_HANDSET and marks the device (R242,
R501); a flag clear drops the flags it names, but one set at the same time, and leaves the value (R242, R509). -/
def HandSetAndFlagClear : Prop :=
  ∀ (t : Nat) (c : Fin 16) (v : Word) (s : State),
    s.present t = true → s.mgt.boot = 2 → (s.tile t).clk.pstate ≠ .off →
    (bit v 38 = true → ((s.tile t).counter c).lost = false →
      Completes (.handSet t c v) s (fun s' => TileLocal t s s' ∧
        ((s'.tile t).counter c).value = fld v 0 24 ∧ s'.mgt.debugged = true ∧
        bit (s'.hdr (pgTile t 2)).err Err.cntHandset.bit = true ∧
        (s'.tile t).sp = (s.tile t).sp ∧ (s'.tile t).cfg = (s.tile t).cfg ∧
        (∀ d, d ≠ c.val → (s'.tile t).counter d = (s.tile t).counter d))) ∧
    (bit v 38 = false →
      Completes (.counterFlagClear t c v) s (fun s' => TileLocal t s s' ∧
        (s'.tile t).counter c = { (s.tile t).counter c with
          satHi := ((s.tile t).counter c).satHi && (!bit v 25 || ((s.tile t).counter c).hiAt == some s.time),
          satLo := ((s.tile t).counter c).satLo && (!bit v 26 || ((s.tile t).counter c).loAt == some s.time) } ∧
        (s'.tile t).sp = (s.tile t).sp ∧ (s'.tile t).cfg = (s.tile t).cfg ∧
        (∀ d, d ≠ c.val → (s'.tile t).counter d = (s.tile t).counter d)))

end Sys2Proof

/-- CH_OPEN, CH_OPENR, CH_CLOSE, CH_CLOSER, CH_RETURN, CH_GRANT and ACK: channels open, move credit and
acknowledgements, and close. -/
def Obligations.ChannelsOpenCreditAndClose : Prop :=
  ChannelsOpenAndClose ∧ CreditAndAcknowledgement

/-- CHCMD_OPEN, CHCMD_CLOSE, DIRECT_SEND and CHANNEL_SEND: channel records take their commands and send their
handles. -/
def Obligations.ChannelRecordsAreCommandedAndSend : Prop :=
  ChannelCommands ∧ DirectRecordSendsItsHandle ∧ ChannelRecordSendsItsHandle

/-- CHANNEL_PROGRESS, FROZEN_RESEND, FENCED_SEND, HAND_SET and COUNTER_FLAG_CLEAR: operations that wait go on,
counters are set by hand and flags are cleared. -/
def Obligations.WaitingOperationsAndFlags : Prop :=
  WaitingOperationsGoOn ∧ HandSetAndFlagClear

/-- CRESP and CREL: an answer settles its operation; a message turned away changes nothing at the tile. -/
def Obligations.AnswersSettleAndRefusalsHold : Prop :=
  AnswersSettleTheirOperation ∧ TurnedAwayMessageChangesNothing

namespace Sys2Proof

/-! ### Markers and commit groups (chapters 06 and 11) -/

/-- How many records of the tile are COMMIT_PENDING and swap window pair p (R337, R342). -/
def swapsOf (x : Tile) (p : Nat) : Nat :=
  ((List.range 4).filter (fun r => (x.part r).st == 3 && cpSwap (x.cgp r) / 2 ^ p % 2 == 1)).length

/-- Window pair p after the swaps of the pending records: each exchanges BASE and SIZE of the two windows, and the rest of
their entries stays (R337, R343). -/
def PairSwapped (x y : Tile) (p : Nat) : Prop :=
  if swapsOf x p % 2 = 1 then
    y.win (2 * p) = { x.win (2 * p) with base := (x.win (2 * p + 1)).base, size := (x.win (2 * p + 1)).size } ∧
    y.win (2 * p + 1) = { x.win (2 * p + 1) with base := (x.win (2 * p)).base, size := (x.win (2 * p)).size }
  else y.win (2 * p) = x.win (2 * p) ∧ y.win (2 * p + 1) = x.win (2 * p + 1)

/-- An origin injects a BOUNDARY marker when a commit or a closed sequence calls for one (R344). A tile collects the
markers of its MARK_IN inputs, applies the pending swaps, which exchange BASE and SIZE of their window pairs (R337),
ends the round's acts and puts one marker, bound, on every MARK_OUT output (R178, R343); where a firing in progress meets a swap, or a SYNC round is undecided, they wait
(R343). -/
def BoundaryMarkers : Prop :=
  (∀ (t : Nat) (s : State), s.present t = true → s.tileRuns t = true → (s.tile t).origin = true →
    ((s.tile t).cg.closed ≠ [] ∨
      ((s.tile t).cg.inject = true ∧ (List.range 4).all (fun la => !((s.tile t).launch la).openSeq) = true)) →
    Completes (.boundaryInject t) s (fun s' => OnlyTile t s s' ∧
      (s'.tile t).fab.injBoundary = (s.tile t).fab.injBoundary + 1 ∧
      (s'.tile t).cg.closed = (s.tile t).cg.closed.tail ∧ (s'.tile t).sp = (s.tile t).sp ∧
      (s'.tile t).cfg = (s.tile t).cfg ∧ (s'.tile t).mp = (s.tile t).mp)) ∧
  (∀ (t : Nat) (s : State), s.present t = true → s.tileRuns t = true →
    s.collects t 12 (decide (0 < (s.tile t).fab.injBoundary)) = true → (s.tile t).swapMeetsFiring = false →
    (s.tile t).syncHolds = false →
    Completes (.boundaryCollect t) s (fun s' => s'.mem = s.mem ∧ s'.ctxs = s.ctxs ∧ s'.hdrs = s.hdrs ∧
      (∀ d, d < 4 → (s.tile t).markOut d = true → OnLink t .ctl d (ctlToken (s.tile t) 12 false) s s') ∧
      (∀ u, (∀ d, d < 4 → (s.tile t).markOut d = true → s.neighbour t d ≠ some u) → u ≠ t → s'.tile u = s.tile u) ∧
      (∀ d, d < 4 → (s.tile t).markIn d = true → ((s'.tile t).port (portNo .ctl d)).fifo =
        ((s.tile t).port (portNo .ctl d)).fifo.tail) ∧
      (∀ r, r < 4 → ((s'.tile t).part r).acted = false ∧ ((s'.tile t).part r).st =
        (if ((s.tile t).part r).st = 3 then 1 else ((s.tile t).part r).st) ∧
        (((s.tile t).part r).st = 3 →
          ((s'.tile t).part r).swaps = min (2 ^ 32 - 1) (((s.tile t).part r).swaps + 1))) ∧
      (∀ p, p < 8 → PairSwapped (s.tile t) (s'.tile t) p) ∧
      (s'.tile t).mp.counters = (s.tile t).mp.counters ∧
      (s'.tile t).sp = (s.tile t).sp ∧ (s'.tile t).nests = (s.tile t).nests)) ∧
  (∀ (t : Nat) (s : State), s.present t = true →
    ((s.tile t).swapMeetsFiring = true ∨ (s.tile t).syncHolds = true) →
    Machine.exec (.boundaryCollect t) s = .next s)

/-- A participant whose stage counter has reached its threshold acknowledges (R338); one whose decision
counter holds a decision of its round acts on it, resets both counters to BASE, but one that is held, and goes to the
next round, COMMIT_PENDING where a commit swaps windows; while it is COMMIT_PENDING it does not act (R240, R342). -/
def ParticipantsStageAndAct : Prop :=
  ∀ (t : Nat) (r : Fin 4) (s : State), s.present t = true → s.tileRuns t = true →
    (((s.tile t).part r).st = 1 → cpStt ((s.tile t).cgp r) ≠ 0 →
      cpStt ((s.tile t).cgp r) ≤ ((s.tile t).counter (cpStc ((s.tile t).cgp r))).value →
      s.unitExists (cpCoord ((s.tile t).cgp r)) = true →
      Completes (.cgStage t r) s (fun s' => TileLocal t s s' ∧ ((s'.tile t).part r).st = 2 ∧
        (∀ q, q ≠ r.val → (s'.tile t).part q = (s.tile t).part q) ∧
        (s'.tile t).mp.counters = (s.tile t).mp.counters ∧ (s'.tile t).sp = (s.tile t).sp ∧
        Sent (fromTile s t 0x08 (cpCoord ((s.tile t).cgp r)) (s.tile t).cfg.ctx
          (cntW1 (cpSc ((s.tile t).cgp r)) ((s.tile t).part r).round true 1 0 0 0 false false)
          (s.tile t).mp.tag) s')) ∧
    ((((s.tile t).part r).st = 1 ∨ ((s.tile t).part r).st = 2) →
      ((s.tile t).counter (cpDc ((s.tile t).cgp r))).epoch = ((s.tile t).part r).round →
      ((s.tile t).counter (cpDc ((s.tile t).cgp r))).value ≠ 0 →
      Completes (.cgActDecision t r) s (fun s' => TileLocal t s s' ∧
        ((s'.tile t).part r).round = (((s.tile t).part r).round + 1) % 256 ∧
        ((s'.tile t).part r).acted = true ∧
        ((s'.tile t).part r).st = (if ((s.tile t).counter (cpDc ((s.tile t).cgp r))).value = 1 ∧
          cpSwap ((s.tile t).cgp r) ≠ 0 then 3 else 1) ∧
        (∀ k ∈ [cpDc ((s.tile t).cgp r), cpStc ((s.tile t).cgp r)], (s.tile t).counterHeld k = false →
          ((s'.tile t).counter k).value = fld ((s.tile t).ccfg k) 0 24) ∧
        (∀ k, (k ∉ [cpDc ((s.tile t).cgp r), cpStc ((s.tile t).cgp r)] ∨ (s.tile t).counterHeld k = true) →
          (s'.tile t).counter k = (s.tile t).counter k) ∧
        (∀ q, q ≠ r.val → (s'.tile t).part q = (s.tile t).part q) ∧
        (s'.tile t).sp = (s.tile t).sp ∧ (s'.tile t).cfg = (s.tile t).cfg)) ∧
    (((s.tile t).part r).st = 3 → Completes (.cgActDecision t r) s (· = s))

/-- The coordinator has decided d and its notice is the last message its tile sent (R340, R480). -/
def Noticed (t d : Nat) (s s' : State) : Prop :=
  (s'.tile t).cg.coord.st = 2 ∧ (s'.tile t).cg.coord.decision = d ∧
  Sent { op := 0x34, src := t, dest := unitMgt, sctx := (s.tile t).cfg.ctx, tctx := (s.tile t).cfg.ctx,
         w1 := packW [(8, cgGid (s.tile t).cgc), (8, (s.tile t).cg.coord.round), (2, d)] } s'

/-- An OPEN coordinator commits when every acknowledgement is there under AUTO or GO, which its GO counter may give
(it is then decremented), and aborts at the timeout of its round, in IDLE too, or on ABORT; GO is latched while
acknowledgements are missing (R339, R340, R346). -/
def CoordinatorsDecide : Prop :=
  ∀ (t : Nat) (s : State), s.present t = true → (s.tile t).cg.coord.st = 1 →
    (s.tileRuns t = true → cgNpart (s.tile t).cgc ≤ (s.tile t).staged →
      (bit (s.tile t).cgc 1 = true ∨ (s.tile t).cg.coord.go = true) → (s.tile t).cgTimedOut = false →
      (bit (s.tile t).cgc 36 = false ∨ (s.tile t).cg.coord.go = true) →
      Completes (.cgDecide t) s (fun s' => TileLocal t s s' ∧ Noticed t 1 s s' ∧
        (s'.tile t).mp = (s.tile t).mp ∧ (s'.tile t).sp = (s.tile t).sp)) ∧
    (s.tileRuns t = true → bit (s.tile t).cgc 36 = true → (s.tile t).cg.coord.go = false →
      1 ≤ ((s.tile t).counter (cgGocnt (s.tile t).cgc)).value → cgGocnt (s.tile t).cgc ≠ cgSc (s.tile t).cgc →
      (s.tile t).counterHeld (cgGocnt (s.tile t).cgc) = false → (s.tile t).cgTimedOut = false →
      Completes (.cgDecide t) s (fun s' => TileLocal t s s' ∧ (s'.tile t).cg.coord.go = true ∧
        ((s'.tile t).counter (cgGocnt (s.tile t).cgc)).value =
          ((s.tile t).counter (cgGocnt (s.tile t).cgc)).value - 1 ∧
        (s'.tile t).sp = (s.tile t).sp ∧
        (cgNpart (s.tile t).cgc ≤ (s.tile t).staged → Noticed t 1 s s') ∧
        ((s.tile t).staged < cgNpart (s.tile t).cgc → (s'.tile t).cg.coord.st = 1))) ∧
    (s.cyclesPass t = true → (s.tile t).cgTimedOut = true →
      Completes (.cgTimeout t) s (fun s' => TileLocal t s s' ∧ Noticed t 2 s s' ∧
        bit (s'.hdr (pgTile t 2)).err Err.cgTimeout.bit = true ∧ (s'.tile t).sp = (s.tile t).sp)) ∧
    (s.mgt.boot = 2 → (s.tile t).clk.pstate ≠ .off →
      Completes (.cgGo t) s (fun s' => TileLocal t s s' ∧
        (s'.tile t).cg.coord = { (s.tile t).cg.coord with go := true } ∧ (s'.tile t).mp = (s.tile t).mp) ∧
      Completes (.cgAbort t) s (fun s' => TileLocal t s s' ∧ Noticed t 2 s s' ∧ (s'.tile t).mp = (s.tile t).mp))

/-- The setup of a participant is one that R349 takes. -/
def partGood (x : Tile) (v : Word) : Prop :=
  bit v 0 = true → cpInject (v &&& 0x1FFFFFFFFFFFFFFF) ≠ 3 ∧
    ∀ p, p < 8 → cpSwap (v &&& 0x1FFFFFFFFFFFFFFF) / 2 ^ p % 2 = 1 →
      (x.win (2 * p)).mode ≠ 0 ∧ (x.win (2 * p + 1)).mode ≠ 0

/-- A good setup of a coordinator or a participant that is OFF is stored, and with EN = 1 enables it OPEN with round
0; a bad one is ignored and raises CG_SETUP (R345, R346, R349). -/
def GroupSetupIsStored : Prop :=
  ∀ (t : Nat) (v : Word) (s : State), s.present t = true → s.mgt.boot = 2 → (s.tile t).clk.pstate ≠ .off →
    ((s.tile t).cg.coord.st = 0 → (bit v 0 = true → cgcBad s t (v &&& 0x1FFFFFFFFFFFFFFF) = false) →
      Completes (.cgcoordWrite t v) s (fun s' => TileLocal t s s' ∧
        (s'.tile t).cgc = v &&& 0x1FFFFFFFFFFFFFFF ∧ (s'.tile t).cg.coord = { st := if bit v 0 then 1 else 0 } ∧
        (s'.tile t).mp = (s.tile t).mp ∧ (s'.tile t).sp = (s.tile t).sp)) ∧
    (bit v 0 = true → cgcBad s t (v &&& 0x1FFFFFFFFFFFFFFF) = true →
      Completes (.cgcoordWrite t v) s (fun s' => TileLocal t s s' ∧ (s'.tile t).cgc = (s.tile t).cgc ∧
        (s'.tile t).cg = (s.tile t).cg ∧ bit (s'.hdr (pgTile t 2)).err Err.cgSetup.bit = true)) ∧
    (∀ r : Fin 4, ((s.tile t).part r).st = 0 → partGood (s.tile t) v →
      Completes (.cgpartWrite t r v) s (fun s' => TileLocal t s s' ∧
        (s'.tile t).cgp r = v &&& 0x1FFFFFFFFFFFFFFF ∧ (s'.tile t).part r = { st := if bit v 0 then 1 else 0 } ∧
        (∀ q, q ≠ r.val → (s'.tile t).part q = (s.tile t).part q) ∧
        (s'.tile t).mp = (s.tile t).mp ∧ (s'.tile t).sp = (s.tile t).sp)) ∧
    (∀ r : Fin 4, ¬ partGood (s.tile t) v →
      Completes (.cgpartWrite t r v) s (fun s' => TileLocal t s s' ∧ (s'.tile t).cgp r = (s.tile t).cgp r ∧
        (s'.tile t).cg = (s.tile t).cg ∧ bit (s'.hdr (pgTile t 2)).err Err.cgSetup.bit = true))

end Sys2Proof

/-- BOUNDARY_INJECT, BOUNDARY_COLLECT, CG_STAGE and CG_ACT_DECISION: boundary markers pass and participants stage
and act. -/
def Obligations.BoundariesAndParticipants : Prop :=
  BoundaryMarkers ∧ ParticipantsStageAndAct

/-- CG_DECIDE, CG_TIMEOUT, CG_GO, CG_ABORT, CGCOORD_WRITE and CGPART_WRITE: coordinators decide their rounds, and the
setup of a group is stored. -/
def Obligations.CoordinatorsAndGroupSetup : Prop :=
  CoordinatorsDecide ∧ GroupSetupIsStored

namespace Sys2Proof

/-! ### Castings: the configuration engine (chapter 09) -/

/-- Only the casting state and packets for the session's port change, of pours only that of context c. -/
def PourFrame (c : Nat) (s s' : State) : Prop :=
  s' = { s with cast := s'.cast, lnm := s'.lnm } ∧ ∀ k, k ≠ c → s'.pour k = s.pour k

/-- The messages `ms` of the management die are queued at its router, and no other router has changed (R15, R20). -/
def MgtQueued (ms : List Msg) (s s' : State) : Prop := s'.routers = (sendAll ms s).routers

/-- The stream is rejected (R291): the error and `CFG_REJ` say why, the pour is IDLE again, and no tile
has changed. -/
def Rejected (c : Nat) (e : Err) (s s' : State) : Prop :=
  bit (s'.hdr pgCfg).err e.bit = true ∧ fld (s'.devReg pgCfg 0x180) 0 5 = e.bit ∧
  fld (s'.devReg pgCfg 0x180) 5 3 = c ∧ s'.pour c = {} ∧ (∀ k, k ≠ c → s'.pour k = s.pour k) ∧
  s'.tiles = s.tiles ∧ s'.mem = s.mem ∧ s'.mov = s.mov ∧
  ∀ k, k ≠ rkeyOf nodeM nodeM → s'.routers.get k [] = s.routers.get k []

/-- What the engine has consumed of a session's stream once pour p stands as it does: all that has arrived and does
not wait behind the unit the engine takes (R446). -/
def consumedOf (e : Session) (p : Pour) : Nat := e.spent - (p.inb.length - p.unit)

end Sys2Proof

/-- POUR_HEADER, SEGMENT, FINAL_TAG and CLOSING_CHECKS_DONE: a header that passes its checks opens the pour, and one
that does not is rejected (R274, R289, R291) and, which is the model's choice (log 53), ends the session; a segment whose tag matches gives its words
for execution and one whose tag does not is rejected (R278); the final tag and the closing checks over the shadow
sets follow (R275, R293), and a pour whose last column is already staged arms (R294). -/
def Obligations.StreamsAreVerified : Prop :=
  ∀ (c : Fin 8) (p : Pour) (s : State), s.pour c = p →
    (∀ e, s.session c = some e → e.ended = false → p.st = .idle → 64 ≤ p.inb.length →
      (∀ q : Pour, q = { st := .pouring, hdr := p.inb.take 64, inb := p.inb.drop 64, lastByteAt := p.lastByteAt } →
        s.hdrCheck c (p.inb.take 64) = none →
        Completes (.pourHeader c) s (fun s' => PourFrame c s s' ∧ s'.pour c = q ∧
          (s'.session c).map (·.consumed) = some (consumedOf e q))) ∧
      (∀ er, s.hdrCheck c (p.inb.take 64) = some er →
        Completes (.pourHeader c) s (fun s' => Rejected c er s s' ∧ (s'.session c).map (·.ended) = some true))) ∧
    (p.st = .pouring → p.segs < segCount p.hdr → segLen p.hdr p.segs + 16 ≤ p.inb.length →
      (∀ tag plain, (p.inb.drop (segLen p.hdr p.segs)).take 16 = tag →
        s.openSeg p.hdr p.segs (p.inb.take (segLen p.hdr p.segs)) = (tag, plain) →
        Completes (.segment c) s (fun s' => PourFrame c s s' ∧
          s'.pour c = { p with inb := p.inb.drop (segLen p.hdr p.segs + 16), segs := p.segs + 1,
                               tags := p.tags ++ tag,
                               words := p.words ++ (groupsOf 8 (segLen p.hdr p.segs / 8) plain).map
                                 (fun b => BitVec.ofNat 64 (leNat b)) } ∧
          ∀ e, s.session c = some e → (s'.session c).map (·.consumed) = some (consumedOf e (s'.pour c)))) ∧
      ((s.openSeg p.hdr p.segs (p.inb.take (segLen p.hdr p.segs))).1 ≠
          (p.inb.drop (segLen p.hdr p.segs)).take 16 →
        Completes (.segment c) s (fun s' => Rejected c .castTag s s'))) ∧
    (p.st = .pouring → p.finalOk = false → p.segs = segCount p.hdr → p.stuck = true →
      Completes (.finalTag c) s (fun s' => Rejected c .castFormat s s')) ∧
    (p.st = .pouring → p.finalOk = false → p.segs = segCount p.hdr → p.stuck = false → p.ended = true →
      16 ≤ p.inb.length →
      (p.inb.take 16 = s.finalTag p.hdr p.tags →
        Completes (.finalTag c) s (fun s' => PourFrame c s s' ∧ s'.pour c = { p with inb := [], finalOk := true })) ∧
      (p.inb.take 16 ≠ s.finalTag p.hdr p.tags →
        Completes (.finalTag c) s (fun s' => Rejected c .castTag s s'))) ∧
    (p.st = .pouring → p.finalOk = true → p.closed = false →
      (s.mouldTiles (hdrMould p.hdr)).all s.cfgQuiet = true →
      (s.closingCheck (s.mouldTiles (hdrMould p.hdr)) = none → p.group = 0 → p.bad = [] →
        ((s.mouldCols (hdrMould p.hdr)).all (fun k => p.cols.contains k) = false →
          Completes (.closingChecksDone c) s (fun s' => s' = s.setPour c { p with closed := true })) ∧
        ((s.mouldCols (hdrMould p.hdr)).all (fun k => p.cols.contains k) = true → p.auto = false →
          Completes (.closingChecksDone c) s (fun s' => (s'.pour c).st = .armed ∧ s'.session c = none ∧
            (∀ t ∈ s.mouldTiles (hdrMould p.hdr), (s'.tile t).cfg.pour = .armed) ∧
            (∀ t, t ∉ s.mouldTiles (hdrMould p.hdr) → s'.tile t = s.tile t) ∧ s'.ctxs = s.ctxs))) ∧
      (s.closingCheck (s.mouldTiles (hdrMould p.hdr)) = none → p.bad ≠ [] →
        Completes (.closingChecksDone c) s (fun s' => Rejected c .castShadowEcc s s')) ∧
      (∀ er, s.closingCheck (s.mouldTiles (hdrMould p.hdr)) = some er →
        Completes (.closingChecksDone c) s (fun s' => Rejected c er s s')))

namespace Sys2Proof

/-- A command word of opcode `op` stands at the head of context c's verified words, in the order that
R280 asks for. -/
def CmdAt (c op : Nat) (p : Pour) (w : Word) (rest : List Word) (s : State) : Prop :=
  s.pour c = p ∧ p.st = .pouring ∧ p.left = 0 ∧ p.ended = false ∧ p.words = w :: rest ∧ cmdOp w = op ∧
  (op = 1 ∨ p.moulded = true) ∧ (p.armed = true → op = 7)

/-- NOP, SET_MOULD, SET_FAR, HASH_CHECK, ARM and END are executed from the head of the verified words
(R272, R279 to R281, R284, R285); an unknown opcode rejects the stream (R279). -/
def CommandWordsTakeEffect : Prop :=
  ∀ (c : Fin 8) (p : Pour) (w : Word) (rest : List Word) (s : State),
    (CmdAt c 0 p w rest s → within w 0xFF00000000000000 = true →
      Completes (.nop c) s (fun s' => s' = s.setPour c (p.took 1))) ∧
    (CmdAt c 1 p w rest s → within w 0xFF000000000FFFFF = true → p.moulded = false →
      fld w 0 20 = fld (hdrW p.hdr 3) 0 20 →
      Completes (.setMould c) s (fun s' => s' = { s with cast := s'.cast, ctxs := s'.ctxs, routers := s'.routers } ∧
        s'.pour c = { p.took 1 with moulded := true } ∧
        s'.ctx c = { s.ctx c with mould := some (hdrMould p.hdr) } ∧
        (∀ k, k ≠ c.val → s'.ctx k = s.ctx k ∧ s'.pour k = s.pour k) ∧
        MgtQueued ((s.mouldTiles (hdrMould p.hdr)).map
          (fun t => cfgMsg 0x20 c t 0 (b2n (hdrPartial p.hdr)) [])) s s')) ∧
    (CmdAt c 2 p w rest s → within w 0xFF0000000001FFFF = true →
      Completes (.setFar c) s (fun s' => s' = s.setPour c { p.took 1 with far := some (fld w 0 17) })) ∧
    (CmdAt c 5 p w rest s → within w 0xFF00000000000000 = true → 4 ≤ rest.length →
      (rest.take 4).flatMap (fun w => leBytes 8 w.toNat) = sha256 p.bodyBytes →
      Completes (.hashCheck c) s (fun s' => s' = s.setPour c (p.took 5))) ∧
    (CmdAt c 5 p w rest s → within w 0xFF00000000000000 = true → 4 ≤ rest.length →
      (rest.take 4).flatMap (fun w => leBytes 8 w.toNat) ≠ sha256 p.bodyBytes →
      Completes (.hashCheck c) s (fun s' => Rejected c .castHash s s')) ∧
    (∀ u, CmdAt c 6 p w rest s → within w 0xFF0000000000FF01 = true →
      (if fld w 8 8 = 0 then u = (s.coordOf c 0).getD 0
        else s.coordOf c (fld w 8 8) = some u ∧ cgNlist (s.tile u).cgc = 0) →
      Completes (.arm c) s (fun s' => s' = { s with cast := s'.cast, routers := s'.routers } ∧
        s'.pour c = { p.took 1 with
          armed := true, auto := bit w 0, group := fld w 8 8, coord := u, sc := cgSc (s.tile u).cgc,
          round := (s.tile u).cg.coord.round } ∧
        (∀ k, k ≠ c.val → s'.pour k = s.pour k) ∧
        MgtQueued ((s.mouldTiles (hdrMould p.hdr)).map (fun t => cfgMsg 0x23 c t 0 0 [])) s s')) ∧
    (CmdAt c 6 p w rest s → within w 0xFF0000000000FF01 = true → fld w 8 8 ≠ 0 → s.coordOf c (fld w 8 8) = none →
      Completes (.arm c) s (fun s' => Rejected c .castFormat s s')) ∧
    (CmdAt c 7 p w rest s → within w 0xFF000000FFFFFFFF = true → p.armed = true →
      fld w 0 32 * 8 = hdrLen p.hdr → p.done.length + 1 = fld w 0 32 →
      Completes (.castEnd c) s (fun s' => s' = s.setPour c { p.took 1 with ended := true })) ∧
    (s.pour c = p → p.st = .pouring → p.left = 0 → p.ended = false → p.words = w :: rest → 7 < cmdOp w →
      Completes (.nop c) s (fun s' => Rejected c .castFormat s s'))

/-- Tiles that a WRITE_CREG reaches (R283): one tile, its die column, or the mould. -/
def scopeTiles (s : State) (m : Mould) (tid scope : Nat) : List Nat :=
  if scope = 0 then [tid]
  else if scope = 1 then (List.range 16).map (fun r => tidDie tid * 256 + r * 16 + tidCol tid)
  else s.mouldTiles m

/-- The message that carries the pour's next frame to its tile (R281, R308). -/
def frameMsg (c far : Nat) (p : Pour) : Msg :=
  cfgMsg 0x21 c (far / 4096 * 256 + far / 4 % 16 * 16 + far / 256 % 16) (BitVec.ofNat 64 far) 0
    ((p.words.take 256).flatMap (fun w => leBytes 8 w.toNat))

/-- The next frame of the pour passes the checks of R287, R289 and R290. -/
def frameGood (far : Nat) (p : Pour) (s : State) : Prop :=
  s.targetCheck (hdrMould p.hdr) (far / 4096) (far / 256 % 16) = none ∧
  s.frameCheck (hdrMould p.hdr) (far / 4096 * 256 + far / 4 % 16 * 16 + far / 256 % 16) (far % 4)
    (fun i => (p.words.take 256).getD i 0) = none

/-- WRITE_FRAMES takes its count and then sends each frame that passes its checks to its tile, FAR moving
on by one (R281, R282); a run that would go past the last FAR and a frame outside the mould are rejected, the latter
with its FAR, and no tile keeps any of the stream (R289, R290); WRITE_CREG sends its word to the tiles of its scope
(R283). -/
def FramesAndRegistersGoToTheirTiles : Prop :=
  ∀ (c : Fin 8) (p : Pour) (w : Word) (rest : List Word) (s : State),
    (∀ far, CmdAt c 3 p w rest s → within w 0xFF00000000001FFF = true → p.far = some far →
      1 ≤ fld w 0 13 → fld w 0 13 ≤ 4096 →
      (far + fld w 0 13 ≤ 0x1FFFF → rest.length < 256 →
        Completes (.writeFrames c) s (fun s' => s' = s.setPour c { p.took 1 with left := fld w 0 13 })) ∧
      (0x1FFFF < far + fld w 0 13 → Completes (.writeFrames c) s (fun s' => Rejected c .castFormat s s'))) ∧
    (∀ far n, s.pour c = p → p.st = .pouring → p.left = n + 1 → p.far = some far →
      256 ≤ p.words.length → frameGood far p s →
      Completes (.writeFrames c) s (fun s' => (∃ more, s'.routers.get (rkeyOf nodeM nodeM) [] =
          s.routers.get (rkeyOf nodeM nodeM) [] ++ packets (frameMsg c far p) ++ more) ∧
        s'.tiles = s.tiles ∧ s'.mem = s.mem ∧
        (p.words.length < 512 →
          s' = { s with cast := s'.cast, routers := s'.routers } ∧ MgtQueued [frameMsg c far p] s s' ∧
          s'.pour c = { p.took 256 with far := some (far + 1), left := n } ∧
          ∀ k, k ≠ c.val → s'.pour k = s.pour k))) ∧
    (∀ far n, s.pour c = p → p.st = .pouring → p.left = n + 1 → p.far = some far → 256 ≤ p.words.length →
      (hdrMould p.hdr).hasCol (far / 4096) (far / 256 % 16) = false →
      Completes (.writeFrames c) s (fun s' => Rejected c .castOutOfMould s s' ∧
        fld (s'.devReg pgCfg 0x180) 8 17 = far % 2 ^ 17)) ∧
    (∀ v more, CmdAt c 4 p w rest s → rest = v :: more → within w 0xFF0000001FFFFFFF = true →
      (fld w 27 2 ≤ 1 → s.targetCheck (hdrMould p.hdr) (tidDie (fld w 0 13)) (tidCol (fld w 0 13)) = none) →
      (fld w 27 2 ≤ 2 → (cregMask (fld w 13 2) (fld w 15 12)).isSome = true →
        cregValueOk (fld w 13 2) (fld w 15 12) v = true →
        (fld w 13 2 = 3 ∧ fld w 15 12 = 0x138 →
          ∀ t ∈ scopeTiles s (hdrMould p.hdr) (fld w 0 13) (fld w 27 2), s.cfgQuiet t = true ∧
            tblEntryOk (tblSel ((s.tile t).shadowReg 3 0x130)).1 (tblSel ((s.tile t).shadowReg 3 0x130)).2.2 v = true) →
        Completes (.writeCreg c) s (fun s' =>
          s' = { s with cast := s'.cast, routers := s'.routers } ∧
          MgtQueued ((scopeTiles s (hdrMould p.hdr) (fld w 0 13) (fld w 27 2)).map (fun t => cfgMsg 0x22 c t
            (packW [(13, t), (2, fld w 13 2), (12, fld w 15 12), (2, 0)]) 0 (leBytes 8 v.toNat))) s s' ∧
          s'.pour c = p.took 2 ∧ ∀ k, k ≠ c.val → s'.pour k = s.pour k)) ∧
      ((fld w 27 2 = 3 ∨ (cregMask (fld w 13 2) (fld w 15 12)).isNone = true ∨
          cregValueOk (fld w 13 2) (fld w 15 12) v = false) →
        Completes (.writeCreg c) s (fun s' => Rejected c .castCregInvalid s s')))

end Sys2Proof

/-- NOP, SET_MOULD, SET_FAR, WRITE_FRAMES, WRITE_CREG, HASH_CHECK, ARM and END: the command words of a verified
casting take effect, and frames and registers reach their tiles. -/
def Obligations.CastingWordsTakeEffect : Prop :=
  CommandWordsTakeEffect ∧ FramesAndRegistersGoToTheirTiles

namespace Sys2Proof

/-! ### Castings: tiles, recasts (chapter 09) -/

/-- A configuration or management message of OP `op` that is whole and true to its row stands at the head of the
inbox of tile t, whose clock runs (R211, R308, R464, R480). -/
def TileMsg (t op : Nat) (m : Msg) (s : State) : Prop :=
  s.present t = true ∧ (s.tile t).gated = false ∧ m.op = op ∧
  (s.headMsg t).map (fun im => (im.msg, msgFault im)) = some (m, none)

/-- The same at a unit of the management die: the first of its OP that none of its source precedes; `rest` is what
else waits there (R210, R308, R480). -/
def UnitMsg (u op : Nat) (m : Msg) (rest : List InMsg) (s : State) : Prop :=
  m.op = op ∧ ∃ im, pickIn (fun m => m.op == op) [] (s.inbox.get u []) = some (im, rest) ∧ im.msg = m ∧
    msgFault im = none

/-- The unit has taken it. -/
def tookUnit (u : Nat) (rest : List InMsg) (s : State) : State := { s with inbox := s.inbox.put u rest [] }

/-- The message is taken and only tile t, in its configuration state alone, has changed. -/
def ConfigOnly (t : Nat) (s s' : State) : Prop :=
  s' = { s with tiles := s'.tiles, inbox := s'.inbox } ∧ Taken t s s' ∧ (∀ u, u ≠ t → s'.tile u = s.tile u) ∧
  s'.tile t = { s.tile t with cfg := (s'.tile t).cfg }

/-- The live set of a tile is as before. -/
def LiveSetKept (x y : Tile) : Prop :=
  y.cfg.liveSet = x.cfg.liveSet ∧ y.cfg.live = x.cfg.live ∧ y.cfg.tblLive = x.cfg.tblLive ∧
  ∀ p f w, y.cword p f w = x.cword p f w

end Sys2Proof

/-- CFG_SETUP, CFG_FRAME, CFG_CREG, CFG_ARM, CFG_FENCE and CFG_DISCARD: CFG_SETUP prepares the shadow set, a copy of the live set for a partial stream and Cold for a full
one, and brings a tile that is OFF up in IDLE (R288, R462); CFG_FRAME and CFG_CREG write the shadow set
only (R282, R283), a table entry at the place the shadow index names (R91); CFG_ARM starts fill and read-back (R293); CFG_FENCE sets the fence (R303); CFG_DISCARD
drops the shadow set (R291). -/
def Obligations.TilesTakeTheirConfiguration : Prop :=
  ∀ (t : Nat) (m : Msg) (s : State),
    (TileMsg t 0x20 m s → (s.tile t).clk.pstate ≠ .off →
      Completes (.cfgSetup t) s (fun s' => ConfigOnly t s s' ∧ LiveSetKept (s.tile t) (s'.tile t) ∧
        (s'.tile t).owner = some m.sctx ∧ (s'.tile t).cfg.pour = .pouring ∧
        (m.status = 1 → (s'.tile t).cfg.shadow = (s.tile t).cfg.live ∧
          ∀ p f w, (s'.tile t).scword p f w = (s.tile t).cword p f w) ∧
        (m.status ≠ 1 → (s'.tile t).cfg.shadow = [] ∧ ∀ p f w, (s'.tile t).scword p f w = 0))) ∧
    (TileMsg t 0x20 m s → (s.tile t).clk.pstate = .off →
      Completes (.cfgSetup t) s (fun s' => (s'.tile t).clk.pstate = .idle ∧
        (s'.tile t).clk.per = periodOf (s.pwr.half (halfOf t)).freq ∧ (s'.tile t).owner = some m.sctx ∧
        (∀ u, u ≠ t → s'.tile u = s.tile u) ∧
        Taken t s s' ∧ MgtQueued [mgtMsg 0x33 0 t s.runStates 0 0 []] s s')) ∧
    (TileMsg t 0x21 m s →
      Completes (.cfgFrame t) s (fun s' => ConfigOnly t s s' ∧ LiveSetKept (s.tile t) (s'.tile t) ∧
        (∀ i, i < 256 → (s'.tile t).scword (fld m.w1 6 2) (fld m.w1 0 2) i =
          BitVec.ofNat 64 (leNat ((m.payload.drop (8 * i)).take 8))) ∧
        (∀ p f w, p < 4 → f < 4 → w < 256 → ¬ (p = fld m.w1 6 2 ∧ f = fld m.w1 0 2) →
          (s'.tile t).scword p f w = (s.tile t).scword p f w) ∧
        (s'.tile t).cfg.shadow = (s.tile t).cfg.shadow)) ∧
    (TileMsg t 0x22 m s → ¬ (fld m.w1 13 2 = 3 ∧ fld m.w1 15 12 = 0x138) →
      Completes (.cfgCreg t) s (fun s' => ConfigOnly t s s' ∧ LiveSetKept (s.tile t) (s'.tile t) ∧
        (s'.tile t).shadowReg (fld m.w1 13 2) (fld m.w1 15 12) = BitVec.ofNat 64 (leNat m.payload) &&&
          BitVec.ofNat 64 ((cregMask (fld m.w1 13 2) (fld m.w1 15 12)).getD 0) ∧
        (∀ k off, rkey k off ≠ rkey (fld m.w1 13 2) (fld m.w1 15 12) →
          (s'.tile t).shadowReg k off = (s.tile t).shadowReg k off) ∧
        ∀ p f w, (s'.tile t).scword p f w = (s.tile t).scword p f w)) ∧
    (∀ ix k tb e, TileMsg t 0x22 m s → fld m.w1 13 2 = 3 → fld m.w1 15 12 = 0x138 →
      ix = (s.tile t).shadowReg 3 0x130 → tblSel ix = (k, tb, e) →
      Completes (.cfgCreg t) s (fun s' => ConfigOnly t s s' ∧ LiveSetKept (s.tile t) (s'.tile t) ∧
        (s'.tile t).cfg.tblShadow = (s.tile t).cfg.tblShadow.put (k * 4096 + tb * 256 + e)
          (BitVec.ofNat 64 (leNat m.payload)) 0 ∧
        (s'.tile t).shadowReg 3 0x130 = (if bit ix 12 then setFld ix 4 8 (e + 1) else ix) ∧
        (∀ k off, rkey k off ≠ rkey 3 0x130 → (s'.tile t).shadowReg k off = (s.tile t).shadowReg k off))) ∧
    (TileMsg t 0x23 m s →
      Completes (.cfgArm t) s (fun s' => ConfigOnly t s s' ∧
        (s'.tile t).cfg = { (s.tile t).cfg with
          fill := if (s.tile t).newBanks = 0 then 2 else 1
          readback := 1 })) ∧
    (TileMsg t 0x28 m s →
      Completes (.cfgFence t) s (fun s' => ConfigOnly t s s' ∧
        (s'.tile t).cfg = { (s.tile t).cfg with fence := bit m.w1 0 })) ∧
    (TileMsg t 0x27 m s →
      Completes (.cfgDiscard t) s (fun s' =>
        s' = { s with tiles := s'.tiles, inbox := s'.inbox } ∧ Taken t s s' ∧ (∀ u, u ≠ t → s'.tile u = s.tile u) ∧
        LiveSetKept (s.tile t) (s'.tile t) ∧ (s'.tile t).cfg.pour = .idle ∧ (s'.tile t).cfg.shadow = [] ∧
        (s'.tile t).cfg.owned = ((s.tile t).cfg.owned && m.status != 1) ∧
        (∀ p f w, (s'.tile t).scword p f w = 0) ∧
        (∀ a, a < 2 ^ 20 → bit (s.tile t).spctrl (bankOf (s.tile t).ilv a) = true →
          (s'.tile t).rd1 a = (s.tile t).rd1 a) ∧
        (s'.tile t).mp = (s.tile t).mp ∧ (s'.tile t).hq = (s.tile t).hq))

namespace Sys2Proof

/-- The fill zeroes and powers the newly enabled banks (R40); a read-back without a double-bit error is
done and a double-bit error fails the pour (R60, R293); such an error in an ARMED shadow rejects it
(R292). -/
def ShadowSetsAreFilledAndReadBack : Prop :=
  ∀ (t : Nat) (s : State), s.present t = true →
    ((s.tile t).cfg.fill = 1 → Completes (.bankFillDone t) s (fun s' =>
      s' = { s with tiles := s'.tiles, routers := s'.routers } ∧ (∀ u, u ≠ t → s'.tile u = s.tile u) ∧
      (s'.tile t).cfg = { (s.tile t).cfg with
        fill := 2
        powered := (s.tile t).cfg.powered ||| BitVec.ofNat 16 (s.tile t).newBanks } ∧
      (∀ k b, (s.tile t).sp.get k 0 = b →
        (s'.tile t).sp.get k 0 = if (s.tile t).newBanks / 2 ^ (k / 65536) % 2 = 1 then 0 else b) ∧
      (s'.tile t).mp = (s.tile t).mp ∧ (s'.tile t).hq = (s.tile t).hq)) ∧
    (∀ ecc, (s.tile t).cfg.readback = 1 → Completes (.readbackDone t ecc) s (fun s' => TileLocal t s s' ∧
      (s'.tile t).cfg = { (s.tile t).cfg with readback := if ecc.any (·.dbl) = true then 3 else 2 } ∧
      (s'.tile t).sp = (s.tile t).sp ∧ (s'.tile t).mp = (s.tile t).mp)) ∧
    (∀ (c : Fin 8) addr, (s.tile t).owner = some c.val → (s.pour c).st = .armed →
      (hdrMould (s.pour c).hdr).has t = true → addr < 4096 →
      Completes (.shadowEccError t addr) s (fun s' => Rejected c .castShadowEcc s s'))

/-- The tile has exchanged its sets (R58, R298): what was shadow is live and the other way round, save
that a record bound to a sender is unbound (R224); its flags and the pour state are reset and its banks
are those of the new set. -/
def Exchanged (x y : Tile) : Prop :=
  y.cfg.liveSet = (!x.cfg.liveSet) ∧ y.cfg.shadow = x.cfg.live ∧
  (∀ k off, (∀ r, r < 8 → rkey k off ≠ rkey 2 (0x200 + 8 * r)) → y.reg k off = x.shadowReg k off) ∧
  y.cfg.tblLive = x.cfg.tblShadow ∧ y.cfg.tblShadow = x.cfg.tblLive ∧
  (∀ p f w, y.cword p f w = x.scword p f w ∧ y.scword p f w = x.cword p f w) ∧
  y.flags = 0 ∧ y.cfg.pour = .idle ∧ y.cfg.origin = false ∧ y.stopped = [] ∧
  y.cfg.powered = BitVec.ofNat 16 ((x.shadowReg 1 0x100).toNat % 65536)

/-- CFG_DONE of tile t, owned by context c (R308). -/
def doneMsg (t c : Nat) : Msg := { op := 0x26, src := t, dest := unitCfg, sctx := c, tctx := c }

/-- A direct request exchanges the tile at once, an origin injects its marker once no launch port has an
open sequence (R295, R296), and a drained tile that has collected the marker passes it and exchanges
(R297, R298). -/
def TilesExchangeTheirSets : Prop :=
  ∀ (t : Nat) (s : State), s.present t = true →
    (∀ m, TileMsg t 0x25 m s → m.status = 1 →
      Completes (.cfgRecast t) s (fun s' => TileLocal t s s' ∧ Exchanged (s.tile t) (s'.tile t) ∧
        Sent (doneMsg t (s.tile t).cfg.ctx) s')) ∧
    (∀ m, TileMsg t 0x25 m s → m.status ≠ 1 →
      Completes (.cfgRecast t) s (fun s' => ConfigOnly t s s' ∧
        (s'.tile t).cfg = { (s.tile t).cfg with origin := true })) ∧
    (s.tileRuns t = true → (s.tile t).cfg.origin = true →
      (List.range 4).all (fun la => !((s.tile t).launch la).openSeq) = true →
      Completes (.recastInject t) s (fun s' => OnlyTile t s s' ∧
        (s'.tile t) = { s.tile t with fab := { (s.tile t).fab with injRecast := true } })) ∧
    (s.tileRuns t = true → s.collects t 13 (s.tile t).fab.injRecast = true → (s.tile t).drained = true →
      (s.tile t).cfg.fill ≠ 1 → (s.tile t).cg.coord.st ≠ 2 → (s.tile t).cg.coord.st ≠ 3 → (s.tile t).cfg.pour = .recasting →
      Completes (.recastPass t) s (fun s' => Exchanged (s.tile t) (s'.tile t) ∧
        (∀ d, d < 4 → (s.tile t).markOut d = true → OnLink t .ctl d (ctlToken (s.tile t) 13 false) s s') ∧
        s'.mem = s.mem ∧ s'.mov = s.mov ∧ s'.cast = s.cast ∧ s'.time = s.time ∧
        Sent (doneMsg t (s.tile t).cfg.ctx) s'))

/-- GO commits an ARMED pour of its own group: every tile of the mould is to exchange, the fence rises
and the ingress holds (R292, R295); ABORT and the idle limit discard a pour as CAST_ABORTED (R292). -/
def PoursAreCommittedOrAborted : Prop :=
  ∀ (c : Fin 8) (p : Pour) (s : State), s.pour c = p →
    (s.mgt.boot = 2 → p.st = .armed → p.auto = false → p.group = 0 →
      Completes (.pourGo c) s (fun s' =>
        s'.pour c = { p with st := .recasting, pending := s.mouldTiles (hdrMould p.hdr), commitAt := s.time } ∧
        (s'.ctx c).fence = true ∧ (∀ q, q < 8 → fld (s'.devReg (pgLnm q) 0x130) c 1 = 1) ∧
        (∀ t ∈ s.mouldTiles (hdrMould p.hdr), (s'.tile t).cfg.pour = .recasting) ∧
        (∀ t, t ∉ s.mouldTiles (hdrMould p.hdr) → (s'.tile t).cfg = (s.tile t).cfg) ∧
        s'.mem = s.mem ∧ s'.mov = s.mov)) ∧
    (s.mgt.boot = 2 → (p.st = .pouring ∨ p.st = .armed) →
      Completes (.pourAbort c) s (fun s' => Rejected c .castAborted s s')) ∧
    (fld (s.devReg pgCfg 0x188) 16 16 ≠ 0 → p.st = .pouring →
      p.lastByteAt + fld (s.devReg pgCfg 0x188) 16 16 * 1000000 ≤ s.time →
      Completes (.pourIdleTimeout c) s (fun s' => Rejected c .castAborted s s')) ∧
    (fld (s.devReg pgCfg 0x188) 0 16 ≠ 0 → p.st = .recasting →
      p.commitAt + fld (s.devReg pgCfg 0x188) 0 16 * 1000 ≤ s.time →
      Completes (.castRecastTimeout c) s (fun s' => Kept s s' ∧
        bit (s'.hdr pgCfg).err Err.castRecastTimeout.bit = true))

/-- A die column's report stages it, and tells the coordinator of the group that the pour rides on (R294, R348); the
last one arms the pour once the closing checks have passed, and a failed read-back then rejects it (R292, R293). A
tile that has exchanged leaves the list, and the last one ends the recast: the context's casting is live, its hash
and clock floor are the new ones, and what was held is released or armed (R302, R309, R327). -/
def PoursAdvanceWithTheirTiles : Prop :=
  ∀ (m : Msg) (rest : List InMsg) (p : Pour) (c : Fin 8) (s : State), m.sctx = c.val → s.pour c = p →
    (UnitMsg unitCfg 0x24 m rest s → p.st = .pouring → (hdrMould p.hdr).has m.src = true →
      ((p.closed = false ∨ (p.finalOk = false ∧ p.group = 0)) →
        Completes .cfgStaged s (fun s' =>
          s' = (tookUnit unitCfg rest s).setPour c
            { p with cols := p.cols ++ [m.src], bad := p.bad ++ (if m.status = 6 then [m.src] else []) })) ∧
      (p.closed = true → p.finalOk = true → p.bad = [] → m.status ≠ 6 →
        (p.group = 0 → p.auto = false →
          (s.mouldCols (hdrMould p.hdr)).all (fun k => (p.cols ++ [m.src]).contains k) = true →
          Completes .cfgStaged s (fun s' => (s'.pour c).st = .armed ∧ s'.session c = none ∧
            (∀ t ∈ s.mouldTiles (hdrMould p.hdr), (s'.tile t).cfg.pour = .armed) ∧
            (∀ t, t ∉ s.mouldTiles (hdrMould p.hdr) → s'.tile t = s.tile t) ∧ s'.ctxs = s.ctxs)) ∧
        (p.group ≠ 0 → p.acked = p.cols → p.cols.contains m.src = false → s.unitExists p.coord = true →
          Completes .cfgStaged s (fun s' => (s'.pour c).acked = p.cols ++ [m.src] ∧
            Sent { op := 0x08, src := unitCfg, dest := p.coord, sctx := c, tctx := c, priv := true,
                   w1 := cntW1 p.sc p.round true 1 0 0 0 false false } s'))) ∧
      (p.closed = true → p.finalOk = true → (p.bad ≠ [] ∨ m.status = 6) →
        Completes .cfgStaged s (fun s' => Rejected c .castShadowEcc s s'))) ∧
    (UnitMsg unitCfg 0x26 m rest s → p.st = .recasting → p.pending.contains m.src = true →
      (p.pending.erase m.src ≠ [] →
        Completes .cfgDone s (fun s' => s'.pour c = { p with pending := p.pending.erase m.src } ∧
          s'.tiles = s.tiles ∧ s'.ctxs = s.ctxs ∧ s'.mem = s.mem ∧
          (∀ q, q < 8 → ∀ k, k / 16 = m.src → (s'.port q).grants.get k (0, 0) = (0, 0)) ∧
          (∀ q, q < 28 → ∀ k, k / 16 = m.src → (s'.mover q).grants.get k (0, 0) = (0, 0)))) ∧
      (p.pending.erase m.src = [] → (s.ctx c).st = .restarting →
        Completes .cfgDone s (fun s' => s'.pour c = {} ∧ (s'.ctx c).live = true ∧
          (s'.ctx c).floor = hdrFloor p.hdr ∧ (s'.ctx c).st = .restarting ∧ s'.tiles = s.tiles ∧
          s'.castHash c = newHash s c p)) ∧
      (p.pending.erase m.src = [] → ((s.ctx c).st = .bound ∨ (s.ctx c).st = .running) →
        Completes .cfgDone s (fun s' => s'.pour c = {} ∧ (s'.ctx c).live = true ∧
          (s'.ctx c).st = (if (s.ctx c).held then .preempting else .running) ∧
          (s'.ctx c).floor = hdrFloor p.hdr ∧ s'.tiles = s.tiles ∧ s'.castHash c = newHash s c p ∧
          (s.entries c = [] → (s'.ctx c).fence = false) ∧
          (s.entries c ≠ [] → (s'.ctx c).fence = (s.ctx c).fence ∧ (s'.ctx c).armWait = s.entries c))))

end Sys2Proof

/-- BANK_FILL_DONE, READBACK_DONE, SHADOW_ECC_ERROR, CFG_RECAST, RECAST_INJECT and RECAST_PASS: shadow sets are
filled, read back and exchanged. -/
def Obligations.ShadowSetsFillAndExchange : Prop :=
  ShadowSetsAreFilledAndReadBack ∧ TilesExchangeTheirSets

/-- POUR_GO, POUR_ABORT, POUR_IDLE_TIMEOUT, CAST_RECAST_TIMEOUT, CFG_STAGED and CFG_DONE: pours advance with their
tiles and are committed or aborted. That CFG_DONE clears the grants of the one tile it comes from, where R409 and R437 have
the entries of a mould's tiles cleared when the mould recasts, is the model's choice (log 57). -/
def Obligations.PoursAdvanceCommitAndAbort : Prop :=
  PoursAreCommittedOrAborted ∧ PoursAdvanceWithTheirTiles

namespace Sys2Proof

/-! ### Contexts (chapter 10) -/

/-- What a command about context c leaves alone: every other context, the memory tiers, the gradient
engines' mask, the board and the clock. -/
def CtxFrame (c : Nat) (s s' : State) : Prop :=
  (∀ k, k ≠ c → s'.ctx k = s.ctx k) ∧ s'.mem = s.mem ∧ s'.brd = s.brd ∧ s'.time = s.time ∧
  s'.pending = s.pending ∧ s'.pwr = s.pwr

/-- A command without a row for the state of its context sets CMD_STATE and changes no context (R312). -/
def NoRow (i : Instr) (c : Nat) (s : State) : Prop :=
  Completes i s (fun s' => s'.ctxs = s.ctxs ∧ s'.tiles = s.tiles ∧ s'.mem = s.mem ∧
    bit (s'.hdr (pgCtx c)).err Err.cmdState.bit = true)

/-- The commands of `CTX_CMD` in the states that R312 gives them: CREATE in FREE, PREEMPT in RUNNING and
RESTARTING, RESUME in PREEMPTED, TEARDOWN in every bound state, RESTART in RUNNING; a PREEMPT during a recast is
held until it ends (R307), and the others set CMD_STATE. -/
def ContextCommands : Prop :=
  ∀ (c : Fin 8) (s : State), s.mgt.boot = 2 →
    ((s.ctx c).st = .free → Completes (.create c) s (fun s' => CtxFrame c s s' ∧
      s'.ctx c = { ({} : Ctx) with st := .bound } ∧ s'.tiles = s.tiles ∧
      (∀ i, i < 262144 → s'.gxMaskBit c i = true) ∧ ∀ i, i < 14 → s'.devReg (pgCtx c) (0x2C0 + 8 * i) = 0)) ∧
    ((s.ctx c).st = .running → (s.pour c).st ≠ .recasting →
      Completes (.preempt c) s (fun s' => CtxFrame c s s' ∧
        s'.ctx c = { s.ctx c with st := .preempting, held := false, drainAt := s.time,
                                  mould := (s'.ctx c).mould } ∧
        s'.tiles = s.tiles ∧ (s'.pour c).st = .idle)) ∧
    ((s.ctx c).st = .running → (s.pour c).st = .recasting →
      Completes (.preempt c) s (fun s' => CtxFrame c s s' ∧ s'.ctx c = { s.ctx c with held := true } ∧
        s'.tiles = s.tiles ∧ s'.cast = s.cast)) ∧
    ((s.ctx c).st = .restarting → Completes (.preempt c) s (fun s' => CtxFrame c s s' ∧
      s'.ctx c = { s.ctx c with pend := true } ∧ s'.tiles = s.tiles)) ∧
    ((s.ctx c).st = .preempted → Completes (.resume c) s (fun s' => CtxFrame c s s' ∧
      s'.ctx c = { s.ctx c with st := .running } ∧
      (∀ t ∈ s.ctxTiles c, (s'.tile t).cfg =
        { (s.tile t).cfg with frozen := false, halted := s.stop.fatal || (s.hdr (pgTile t 0)).halt }) ∧
      (∀ t, t ∉ s.ctxTiles c → s'.tile t = s.tile t))) ∧
    ((s.ctx c).st ≠ .free → (s.ctx c).st ≠ .teardown →
      Completes (.teardown c) s (fun s' => (s'.ctx c).st = .teardown ∧ (s'.pour c).st = .idle ∧
        s'.tiles = s.tiles ∧ s'.mem = s.mem ∧ (s.stop.restart = none → CtxFrame c s s'))) ∧
    ((s.ctx c).st = .running → Completes (.restart c) s (fun s' => CtxFrame c s s' ∧
      (s'.ctx c).st = .restarting ∧ (s'.ctx c).restarts = min 255 ((s.ctx c).restarts + 1) ∧
      (s'.ctx c).fence = true ∧ (s'.ctx c).handling.step = 1 ∧ (s'.ctx c).handling.waiting = s.ctxTiles c ∧
      s'.tiles = s.tiles ∧ ∀ p, p < 8 → fld (s'.devReg (pgLnm p) 0x130) c 1 = 1)) ∧
    ((s.ctx c).st ≠ .free → NoRow (.create c) c s) ∧
    ((s.ctx c).st ≠ .running → (s.ctx c).st ≠ .restarting → NoRow (.preempt c) c s) ∧
    ((s.ctx c).st ≠ .preempted → NoRow (.resume c) c s) ∧
    (((s.ctx c).st = .free ∨ (s.ctx c).st = .teardown) → NoRow (.teardown c) c s) ∧
    ((s.ctx c).st ≠ .running → NoRow (.restart c) c s)

/-- A teardown whose steps are done frees the context and its mould and keeps the counts (R312); a drain
that is complete freezes the context as PREEMPTED, and one that has taken PREEMPT_LIMIT µs raises
PREEMPT_TIMEOUT (R312, R329). -/
def ContextsComeToRest : Prop :=
  ∀ (c : Fin 8) (s : State),
    ((s.ctx c).st = .teardown → (s.ctx c).handling.step = 5 →
      Completes (.teardownComplete c) s (fun s' => CtxFrame c s s' ∧
        s'.ctx c = { ({} : Ctx) with restarts := (s.ctx c).restarts, acct := (s.ctx c).acct } ∧
        s'.tiles = s.tiles)) ∧
    ((s.ctx c).st = .preempting → s.drainDone c = true →
      Completes (.preemptDrainComplete c) s (fun s' => CtxFrame c s s' ∧
        s'.ctx c = { s.ctx c with st := .preempted } ∧
        (∀ t ∈ s.ctxTiles c, (s'.tile t).cfg = { (s.tile t).cfg with frozen := true, halted := true }) ∧
        (∀ t, t ∉ s.ctxTiles c → s'.tile t = s.tile t))) ∧
    ((s.ctx c).st = .preempting → s.stop.fatal = false → fld (s.devReg (pgCtx c) 0x110) 0 16 ≠ 0 →
      (s.ctx c).drainAt + fld (s.devReg (pgCtx c) 0x110) 0 16 * 1000 ≤ s.time →
      Completes (.preemptTimeout c) s (fun s' => Kept s s' ∧
        bit (s'.hdr (pgCtx c)).err Err.preemptTimeout.bit = true ∧
        (s'.ctx c).st = .restarting ∧ (s'.ctx c).pend = true))

/-- A slot entry is written while the context is BOUND or PREEMPTED and no other enabled slot names its
window (R316), a segment entry is stored and a bad one stored invalid (R331), and the accounting
registers take their values together: engine time, the bytes counted, and the energy before with the context's share
of what has been measured (R333). -/
def ContextTablesAreWritten : Prop :=
  ∀ (c : Fin 8) (s : State), s.mgt.boot = 2 →
    (∀ (i : Fin 8) v, ((s.ctx c).st = .bound ∨ (s.ctx c).st = .preempted) →
      s.slotClash c i (setFld v 51 13 0) = false →
      Completes (.slotEntryWrite c i false v) s (fun s' =>
        Acted (s.setDevReg (pgCtx c) (0x140 + 16 * i.val) (setFld v 51 13 0)) s')) ∧
    (∀ (i : Fin 8) v, ((s.ctx c).st ≠ .bound ∧ (s.ctx c).st ≠ .preempted ∨
        s.slotClash c i (setFld v 51 13 0) = true) →
      Completes (.slotEntryWrite c i false v) s (fun s' => Acted s s' ∧
        bit (s'.hdr (pgCtx c)).err Err.cmdState.bit = true)) ∧
    (∀ (i : Fin 8) v, Completes (.slotEntryWrite c i true v) s (fun s' => Acted s s')) ∧
    (∀ (i : Fin 16) (v : Word), bit v 0 = false →
      Completes (.segEntryWrite c i v) s (fun s' =>
        Acted (s.setDevReg (pgCtx c) (0x1C0 + 16 * i.val) (setFld (setFld v 5 7 0) 48 16 0)) s')) ∧
    (∀ (i : Fin 16) (v : Word), bit v 0 = true →
      let pages := fld (s.devReg (pgCtx c) (0x1C8 + 16 * i.val)) 0 36
      let b := fld v 12 36 * 4096
      let good := pages ≠ 0 ∧ fld v 1 2 ≠ 0 ∧ (tierWindow (fld v 1 2)).1 ≤ b ∧
        b + pages * 4096 ≤ (tierWindow (fld v 1 2)).2
      (good → Completes (.segEntryWrite c i v) s (fun s' =>
        Acted (s.setDevReg (pgCtx c) (0x1C0 + 16 * i.val) (setFld (setFld v 5 7 0) 48 16 0)) s')) ∧
      (¬ good → Completes (.segEntryWrite c i v) s (fun s' =>
        Acted (s.setDevReg (pgCtx c) (0x1C0 + 16 * i.val)
          (setFld (setFld (setFld v 5 7 0) 48 16 0) 0 1 0)) s' ∧
        bit (s'.hdr (pgCtx c)).err Err.segEntry.bit = true))) ∧
    (∀ sample : AcctSample, Completes (.accountingUpdate c sample) s (fun s' =>
      s' = { s with dev := s'.dev, ctxs := s'.ctxs } ∧ (∀ k, k ≠ c.val → s'.ctx k = s.ctx k) ∧
      s'.ctx c = { s.ctx c with acct := (s'.ctx c).acct } ∧
      (∀ i, i < 12 → (s'.ctx c).acct.get i 0 = (s.ctx c).acct.get i 0) ∧
      s'.devReg (pgCtx c) 0x2C0 = BitVec.ofNat 64
        (((List.range 40).map (fun h => cdiv ((s.ctx c).acct.get (acctTime + h) 0) 65536)).sum) ∧
      (∀ i, i < 11 → s'.devReg (pgCtx c) (0x2C8 + 8 * i) = BitVec.ofNat 64 ((s.ctx c).acct.get i 0)) ∧
      s'.devReg (pgCtx c) 0x320 =
        BitVec.ofNat 64 ((s.devReg (pgCtx c) 0x320).toNat + s.energyShare c sample) ∧
      s'.devReg (pgCtx c) 0x328 = BitVec.ofNat 64 s.elapsed ∧
      ∀ pg off, pg ≠ pgCtx c → off < 4096 → s'.devReg pg off = s.devReg pg off))

/-- A message from tile t to a unit of the management die (R308, R480). -/
def fromTileTo (t op dest c : Nat) (w1 : Word) (tag status : Nat) : Msg :=
  { op := op, src := t, dest := dest, sctx := c, tctx := c, w1 := w1, tag := tag, status := status }

/-- The management die's messages to tiles about contexts: a run state reaches a tile's copy (R219), an entry
tile is armed with the hold, or disarmed by its disarm notice, and acknowledges (R327), and the notice goes out once,
when the largest ENTRY_NS has passed since the release (R327); the
acknowledgement of a decision notice lets the decision take effect and the fan-out begin, which of an empty list
ends at once, or, refused, opens the round again (R340, R341, R346); a frozen tile sets it aside (R350; log 50). -/
def MessagesToTiles : Prop :=
  ∀ (t : Nat) (m : Msg) (s : State),
    (TileMsg t 0x33 m s → Completes (.mgtRunstate t) s (fun s' =>
      s' = { s with tiles := s'.tiles, inbox := s'.inbox } ∧ Taken t s s' ∧ (∀ u, u ≠ t → s'.tile u = s.tile u) ∧
      s'.tile t = { s.tile t with mp := { (s.tile t).mp with runStates := (s'.tile t).mp.runStates } } ∧
      ∀ c, c < 8 → (s'.tile t).mp.runStates.get c 0 = fld m.w1 (3 * c) 3)) ∧
    (TileMsg t 0x36 m s → Completes (.mgtArm t) s (fun s' =>
      s' = { s with tiles := s'.tiles, inbox := s'.inbox, routers := s'.routers } ∧ Taken t s s' ∧
      (∀ u, u ≠ t → s'.tile u = s.tile u) ∧
      s'.tile t = { s.tile t with cfg := { (s.tile t).cfg with
        hold := if bit m.w1 32 = true then none else some (fld m.w1 0 32)
        holdFrom := (s.tile t).clk.cyc
        holds := (s'.tile t).cfg.holds } } ∧
      Sent (fromTileTo t 0x37 unitMgt m.sctx 0 m.tag 0) s')) ∧
    (∀ c, s.present t = true → c < 8 → (s.ctx c).armedAt.contains t = true →
      (∀ k, k < c → (s.ctx k).armedAt.contains t = false) →
      ((s.ctx c).armFor = 0 → (s.ctx c).noticed.contains t = false →
        (s.ctx c).releasedAt + s.maxEntryNs c ≤ s.time →
        Completes (.mgtDisarm t) s (fun s' => s' = { s with ctxs := s'.ctxs, routers := s'.routers } ∧
          (∀ k, k ≠ c → s'.ctx k = s.ctx k) ∧ s'.ctx c = { s.ctx c with noticed := (s.ctx c).noticed ++ [t] } ∧
          MgtQueued [disarmMsg c t] s s')) ∧
      ((s.ctx c).armFor ≠ 0 ∨ (s.ctx c).noticed.contains t = true ∨
        s.time < (s.ctx c).releasedAt + s.maxEntryNs c →
        Completes (.mgtDisarm t) s (fun s' => s' = s))) ∧
    (TileMsg t 0x35 m s → (s.tile t).cfg.frozen = false → (s.tile t).cg.coord.st = 2 → m.status = 0 →
      Completes (.mgtNoticeAck t) s (fun s' => OnlyTile t (dropMsg t s) s' ∧
        (s'.tile t).cg.coord.last = (s.tile t).cg.coord.decision ∧
        (s'.tile t).cg.coord.st = (if cgNlist (s.tile t).cgc = 0 then 1 else 3) ∧
        (s'.tile t).cg.coord.round =
          (if cgNlist (s.tile t).cgc = 0 then ((s.tile t).cg.coord.round + 1) % 256 else (s.tile t).cg.coord.round) ∧
        (s'.tile t).cg.coord.go = (if cgNlist (s.tile t).cgc = 0 then false else (s.tile t).cg.coord.go) ∧
        (s'.tile t).cg.coord.fan = 0 ∧
        (s'.tile t).mp = (s.tile t).mp ∧ (s'.tile t).sp = (s.tile t).sp ∧ (s'.tile t).cfg = (s.tile t).cfg)) ∧
    (TileMsg t 0x35 m s → (s.tile t).cfg.frozen = false → (s.tile t).cg.coord.st = 2 → m.status ≠ 0 →
      Completes (.mgtNoticeAck t) s (fun s' => OnlyTile t (dropMsg t s) s' ∧
        (s'.tile t).cg.coord = { (s.tile t).cg.coord with st := 1, firstAck := none } ∧
        (s'.tile t).mp = (s.tile t).mp)) ∧
    (TileMsg t 0x35 m s → (s.tile t).cfg.frozen = true →
      Completes (.mgtNoticeAck t) s (fun s' => OnlyTile t (dropMsg t s) s' ∧
        (s'.tile t).cg = (s.tile t).cg ∧
        (s'.tile t).mp.parked = (s.tile t).mp.parked ++ [{ msg := m, complete := true }]))

/-- Messages at the management die: the answer to a disarm notice ends the arming of its tile (TAG 1 marks it, log
124), the entry tiles' acknowledgements are counted, and with the last the context is
released, and one that restarts runs again (R327, R356); a decision notice is recorded and acknowledged, and commits
or aborts the pour that rides on it (R340, R348, R481); one of a context that is no more is answered OWNER_LOST
(R481). -/
def MessagesToTheManagementDie : Prop :=
  ∀ (m : Msg) (rest : List InMsg) (x : Ctx) (s : State), s.ctx m.sctx = x →
    (UnitMsg unitMgt 0x37 m rest s → m.tag = 1 → x.noticed.contains m.src = true →
      Completes .mgtArmAck s (fun s' => s' = { tookUnit unitMgt rest s with ctxs := s'.ctxs } ∧
        s'.ctx m.sctx = { x with noticed := x.noticed.erase m.src, armedAt := x.armedAt.erase m.src } ∧
        ∀ k, k ≠ m.sctx → s'.ctx k = s.ctx k)) ∧
    (UnitMsg unitMgt 0x37 m rest s → m.tag ≠ 1 → s.stop.fatal = false →
      (x.armFor ≠ 0 → x.armWait.erase m.src ≠ [] →
        Completes .mgtArmAck s (fun s' => s' = { tookUnit unitMgt rest s with ctxs := s'.ctxs } ∧
          s'.ctx m.sctx = { x with armWait := x.armWait.erase m.src } ∧
          ∀ k, k ≠ m.sctx → s'.ctx k = s.ctx k)) ∧
      (x.armFor = 1 → x.armWait.erase m.src = [] →
        Completes .mgtArmAck s (fun s' => s'.tiles = s.tiles ∧ (s'.ctx m.sctx).fence = false ∧
          (s'.ctx m.sctx).holdAt = none ∧ (s'.ctx m.sctx).releasedAt = s.time ∧ (s'.ctx m.sctx).armFor = 0 ∧
          (s'.ctx m.sctx).st = x.st ∧ ∀ k, k ≠ m.sctx → s'.ctx k = s.ctx k)) ∧
      (x.armFor = 2 → x.armWait.erase m.src = [] → x.handling.again = false → x.pend = false →
        s.stop.restart = none →
        Completes .mgtArmAck s (fun s' => s'.tiles = s.tiles ∧ (s'.ctx m.sctx).fence = false ∧
          (s'.ctx m.sctx).st = .running ∧ (s'.ctx m.sctx).handling = {} ∧
          ∀ k, k ≠ m.sctx → s'.ctx k = s.ctx k))) ∧
    (UnitMsg unitMgt 0x34 m rest s → lostState x.st = false →
      (s.rides m.sctx (fld m.w1 0 8) = false →
        Completes .mgtNotice s (fun s' => s'.tiles = s.tiles ∧ s'.cast = s.cast ∧
          (s'.ctx m.sctx).rounds.get (fld m.w1 0 8 * 256 + fld m.w1 8 8) 0 = fld m.w1 16 2 ∧
          (s'.ctx m.sctx).st = x.st ∧ (∀ k, k ≠ m.sctx → s'.ctx k = s.ctx k) ∧
          MgtQueued [mgtMsg 0x35 m.sctx m.src m.w1 m.tag 0 []] s s')) ∧
      (s.rides m.sctx (fld m.w1 0 8) = true → (s.pour m.sctx).round = fld m.w1 8 8 →
        (fld m.w1 16 2 = 1 → (s.pour m.sctx).st = .armed →
          Completes .mgtNotice s (fun s' => (s'.pour m.sctx).st = .recasting ∧ (s'.ctx m.sctx).fence = true ∧
            (s'.ctx m.sctx).rounds.get (fld m.w1 0 8 * 256 + fld m.w1 8 8) 0 = 1 ∧ s'.mem = s.mem ∧
            Sent (mgtMsg 0x35 m.sctx m.src m.w1 m.tag 0 []) s')) ∧
        (fld m.w1 16 2 = 2 →
          Completes .mgtNotice s (fun s' => s'.pour m.sctx = {} ∧ s'.tiles = s.tiles ∧ s'.mem = s.mem ∧
            bit (s'.hdr pgCfg).err Err.castAborted.bit = true ∧
            Sent (mgtMsg 0x35 m.sctx m.src m.w1 m.tag 0 []) s')))) ∧
    (UnitMsg unitMgt 0x34 m rest s → lostState x.st = true →
      Completes .mgtNotice s (fun s' =>
        s' = { tookUnit unitMgt rest s with ctxs := s'.ctxs, routers := s'.routers } ∧
        MgtQueued [mgtMsg 0x35 m.sctx m.src m.w1 m.tag 2 []] s s' ∧
        (s'.ctx m.sctx).rounds.get (fld m.w1 0 8 * 256 + fld m.w1 8 8) 0 = 2))

end Sys2Proof

/-- CREATE, PREEMPT, RESUME, TEARDOWN, RESTART, TEARDOWN_COMPLETE, PREEMPT_DRAIN_COMPLETE and PREEMPT_TIMEOUT:
contexts follow their commands and come to rest. -/
def Obligations.ContextsFollowTheirCommands : Prop :=
  ContextCommands ∧ ContextsComeToRest

/-- SLOT_ENTRY_WRITE, SEG_ENTRY_WRITE, ACCOUNTING_UPDATE, MGT_RUNSTATE, MGT_ARM, MGT_DISARM, MGT_ARM_ACK, MGT_NOTICE and
MGT_NOTICE_ACK: the tables of a context are written, and the messages about contexts take effect. That an increment
answered OWNER_LOST leaves LAST and GO as they are (log 50), the energy sample and a context's share of it (log 31), and
that MGT_NOTICE_ACK is set aside at a frozen tile (log 50), are the model's choice. -/
def Obligations.ContextTablesAndMessages : Prop :=
  ContextTablesAreWritten ∧ MessagesToTiles ∧ MessagesToTheManagementDie

namespace Sys2Proof

/-! ### Restarts and the error log (chapter 11) -/

/-- The tile's acknowledgement of a step is the last message it has sent (R356, R480). -/
def StepAcked (t : Nat) (m : Msg) (status : Nat) (s' : State) : Prop :=
  Sent (fromTileTo t 0x39 unitMgt m.sctx m.w1 m.tag status) s'

/-- The steps of a restart at a tile: step 1 contains it, step 2 loses its counters and, where a recast was
interrupted, ends its exchange, step 3 stops its engines and forgets what is in flight, its sent list and its FENCED
operations among it (the model's choice, log 57), step 4 scrubs and fails on a
double-bit error, step 5 sets the counters to BASE (R241, R306, R350, R356, R359); a teardown's step 4 gives the
tile up (R314). -/
def TilesRunRestartSteps : Prop :=
  ∀ (t : Nat) (m : Msg) (s : State), TileMsg t 0x38 m s → s.stop.fatal = false →
    (bit m.w1 3 = false → fld m.w1 0 3 = 1 → Completes (.mgtStep t []) s (fun s' => TileLocal t s s' ∧
      StepAcked t m 0 s' ∧ (s'.tile t).cfg.contained = true ∧ (s'.tile t).cfg.live = (s.tile t).cfg.live ∧
      (s'.tile t).sp = (s.tile t).sp ∧ (s'.tile t).mp = (s.tile t).mp ∧ (s'.tile t).fab = (s.tile t).fab)) ∧
    (bit m.w1 3 = false → fld m.w1 0 3 = 2 →
      Completes (.mgtStep t []) s (fun s' => TileLocal t s s' ∧ StepAcked t m 0 s' ∧
        (∀ c, c < 16 → ((s'.tile t).counter c).lost = true ∧
          ((s'.tile t).counter c).waiters = [none, none, none, none]) ∧
        ((s.tile t).cfg.pour = .recasting → (s'.tile t).cfg.liveSet = (!(s.tile t).cfg.liveSet) ∧
          (s'.tile t).cfg.pour = .idle) ∧
        ((s.tile t).cfg.pour ≠ .recasting → (s'.tile t).cfg.liveSet = (s.tile t).cfg.liveSet ∧
          (∀ c, c < 16 → ((s'.tile t).counter c).value = ((s.tile t).counter c).value) ∧
          (s'.tile t).sp = (s.tile t).sp ∧ (s'.tile t).fab = (s.tile t).fab))) ∧
    (bit m.w1 3 = false → fld m.w1 0 3 = 3 → Completes (.mgtStep t []) s (fun s' => TileLocal t s s' ∧
      StepAcked t m 0 s' ∧ (s'.tile t).cfg.flushed = true ∧ (s'.tile t).mp.sent = [] ∧
      (s'.tile t).mp.fenced = [] ∧ (s'.tile t).stopped = [] ∧ (s'.tile t).mtx.issued = [] ∧
      (s'.tile t).vec.fire = none ∧ (s'.tile t).sp = (s.tile t).sp ∧
      (s'.tile t).mp.counters = (s.tile t).mp.counters)) ∧
    (∀ ecc, bit m.w1 3 = false → fld m.w1 0 3 = 4 → m.sctx < 8 →
      (ecc = [] ∨ ∃ u, ecc = [u] ∧ (2 ^ 20 ≤ u.addr ∨ (s.tile t).bankOn (bankOf (s.tile t).ilv u.addr) = true)) →
      Completes (.mgtStep t ecc) s (fun s' => TileLocal t s s' ∧
        StepAcked t m (if ecc.any (·.dbl) then 6 else 0) s' ∧ s'.tile t = s.tile t ∧
        (ecc.any (·.dbl) = true → bit (s'.hdr (pgCtx m.sctx)).err Err.scrubFail.bit = true))) ∧
    (bit m.w1 3 = false → fld m.w1 0 3 = 5 → Completes (.mgtStep t []) s (fun s' => TileLocal t s s' ∧
      StepAcked t m 0 s' ∧ (s'.tile t).cfg = (s.tile t).cfg ∧
      (∀ c, c < 16 → (s'.tile t).counter c = { value := fld ((s.tile t).ccfg c) 0 24 }) ∧
      (s'.tile t).sp = (s.tile t).sp)) ∧
    (bit m.w1 3 = true → fld m.w1 0 3 = 4 → Completes (.mgtStep t []) s (fun s' => TileLocal t s s' ∧
      StepAcked t m 0 s' ∧ (s'.tile t).owner = none ∧ (s'.tile t).cfg.pour = .idle ∧
      (s'.tile t).cfg.hold = none ∧ (s'.tile t).cg.coord.st = 0 ∧ (s'.tile t).cfg.live = (s.tile t).cfg.live))

/-- A restart's acknowledgement leaves the list of those awaited; the last one starts the next step at
every tile of the mould (R356), and the end of step 5 lets the mould's tiles go together (R358; that they leave
together is the model's choice, log 69). -/
def RestartsStepThroughTheMould : Prop :=
  ∀ (m : Msg) (rest : List InMsg) (x : Ctx) (s : State), UnitMsg unitMgt 0x39 m rest s → s.stop.fatal = false →
    s.ctx m.sctx = x → bit m.w1 3 = false → x.st = .restarting → fld m.w1 0 3 = x.handling.step →
    x.handling.waiting.contains m.src = true →
    (x.handling.waiting.erase m.src ≠ [] → Completes .mgtStepAck s (fun s' =>
      s' = { tookUnit unitMgt rest s with ctxs := s'.ctxs } ∧ (∀ k, k ≠ m.sctx → s'.ctx k = s.ctx k) ∧
      s'.ctx m.sctx = { x with handling := { x.handling with
        waiting := x.handling.waiting.erase m.src
        scrubFail := x.handling.scrubFail || m.status == 6 } })) ∧
    (x.handling.waiting.erase m.src = [] →
      (x.handling.step = 2 ∨ (x.handling.step = 3 ∧ x.handling.device = false) ∨
        (x.handling.step = 4 ∧ x.handling.scrubFail = false ∧ m.status ≠ 6)) →
      Completes .mgtStepAck s (fun s' =>
        (∀ k, k ≠ m.sctx → s'.ctx k = s.ctx k) ∧ s'.tiles = s.tiles ∧
        (s'.ctx m.sctx).st = .restarting ∧ (s'.ctx m.sctx).handling.step = x.handling.step + 1 ∧
        (s'.ctx m.sctx).handling.waiting = s.ctxTiles m.sctx ∧
        MgtQueued ((s.ctxTiles m.sctx).map (fun t =>
          mgtMsg 0x38 m.sctx t (packW [(3, x.handling.step + 1), (1, 0)]) 0 0 [])) s s')) ∧
    (x.handling.waiting.erase m.src = [] → x.handling.step = 4 → (x.handling.scrubFail = true ∨ m.status = 6) →
      Completes .mgtStepAck s (fun s' => s' = { tookUnit unitMgt rest s with ctxs := s'.ctxs } ∧
        (s'.ctx m.sctx).st = .restarting ∧ (s'.ctx m.sctx).handling.step = 4)) ∧
    (x.handling.waiting.erase m.src = [] → x.handling.step = 5 →
      Completes .mgtStepAck s (fun s' =>
        (∀ t ∈ s.ctxTiles m.sctx, (s'.tile t).cfg.contained = false ∧ (s'.tile t).cfg.flushed = false) ∧
        (∀ t, t ∉ s.ctxTiles m.sctx → s'.tile t = s.tile t) ∧ s'.mem = s.mem))

/-- The FATAL stop (R362): every tile halts, the alert is asserted, HBM3E and DDR5 are in self-refresh as
`HBM_STAT` and `DDR_STAT` show it, and no Laniem port admits anything: neither a packet that arrives nor one that has
been accepted already. -/
def DeviceStopped (s' : State) : Prop :=
  s'.stop.fatal = true ∧ s'.alert = true ∧ (∀ e ∈ s'.tiles, e.2.cfg.halted = true) ∧
  (∀ u, u < 20 → bit (s'.readDev .hbm (pgHbm u) 0x100) 11 = true) ∧
  (∀ c, c < 16 → bit (s'.readDev .ddr (pgDdr c) 0x100) 12 = true) ∧
  (∀ (p : Fin 8) (k : LnmPkt), Machine.exec (.lnmWrite p k) s' = .next s' ∧
    Machine.exec (.lnmTierWrite p k) s' = .next s' ∧ Machine.exec (.ingressIssue p) s' = .next s')

/-- RESTART_TIMEOUT is of class DEVICE: 1,000 µs after its start it makes the restart a device restart
(R351, R355, R361); DEVICE_STUCK, 2,000 µs after the start of a device restart, is FATAL: the device
stops (R355, R362). -/
def StuckRestartsEscalate : Prop :=
  ∀ (c : Fin 8) (s : State), s.stop.fatal = false →
    ((s.ctx c).st = .restarting → (s.ctx c).handling.scrubFail = false →
      (s.ctx c).handling.start + 1000000 ≤ s.time →
      Completes (.restartTimeout c) s (fun s' => Kept s s' ∧
        bit (s'.hdr (pgCtx c)).err Err.restartTimeout.bit = true ∧
        (s.stop.restart = none → s'.stop.restart = some s.time ∧ (s'.ctx c).handling.device = true ∧
          (s'.ctx c).handling.step = 1))) ∧
    ((s.ctx c).handling.scrubFail = true ∨ s.time < (s.ctx c).handling.start + 1000000 →
      Completes (.restartTimeout c) s (· = s)) ∧
    (∀ t0, s.stop.restart = some t0 → s.time < t0 + 2000000 → Completes .deviceStuck s (· = s)) ∧
    (∀ t0, s.stop.restart = some t0 → t0 + 2000000 ≤ s.time →
      Completes .deviceStuck s (fun s' => DeviceStopped s' ∧
        bit (s'.hdr pgErr).err Err.deviceStuck.bit = true ∧ s'.ctxs = s.ctxs ∧ s'.mem = s.mem))

/-- The host's read pointer of the error log takes the value written, and the count of unread entries is
the distance to the write pointer (R365). -/
def ErrorLogReadPointer : Prop :=
  ∀ (v : Word) (s : State), s.mgt.boot = 2 →
    Completes (.errRdptrWrite v) s (fun s' => s' = { s with log := { s.log with
      rd := fld v 16 10
      unread := (s.log.wr + 1024 - fld v 16 10) % 1024 } })

end Sys2Proof

/-- MGT_STEP and MGT_STEP_ACK: tiles run the steps of a restart, and the restart steps through the mould. That step 3
empties the list of what a tile has sent and its FENCED operations, and that the tiles leave step 5 together, is the
model's choice (logs 57 and 69; DEDUCED). -/
def Obligations.RestartStepsRunThroughTheMould : Prop :=
  TilesRunRestartSteps ∧ RestartsStepThroughTheMould

/-- RESTART_TIMEOUT, DEVICE_STUCK and ERR_RDPTR_WRITE: a stuck restart escalates, and the error log is read by its
pointer. -/
def Obligations.RestartsEscalateAndTheLogIsRead : Prop :=
  StuckRestartsEscalate ∧ ErrorLogReadPointer

namespace Sys2Proof

/-! ### Gradient export (chapter 12) -/

/-- A rim unit's first message that f accepts and none of its source precedes; `rest` is what else waits there, all of
it of OPs that the unit acts on (R209, R210, R214). -/
def RimHolds (u : Nat) (f : Msg → Bool) (im : InMsg) (rest : List InMsg) (s : State) : Prop :=
  pickIn f [] (s.inbox.get u []) = some (im, rest) ∧
  ∀ x ∈ s.inbox.get u [], x.complete = true → rimOp x.msg.op = true

/-- That message, whole and with a good payload (R215, R216). -/
def RimReady (u : Nat) (f : Msg → Bool) (m : Msg) (rest : List InMsg) (s : State) : Prop :=
  ∃ im, RimHolds u f im rest s ∧ im.msg = m ∧ msgFault im = none

/-- What a message at a rim unit leaves alone: the tiles, the contexts, the tiers, the castings, power. -/
structure RimFrame (s s' : State) : Prop where
  tiles : s'.tiles = s.tiles
  cast : s'.cast = s.cast
  pwr : s'.pwr = s.pwr
  brd : s'.brd = s.brd
  time : s'.time = s.time
  pending : s'.pending = s.pending

/-- A gradient message that passes its checks is counted and acknowledged; unless the mask discards it
its record is formed for the stream's port and address (R380 to R384); at EXPECT messages DONE follows
and the counts return to 0 (R385). One that fails them is refused (R380); one out of place or with a bad payload commits
nothing and is refused (R215, R216). -/
def GradientMessagesBecomeRecords : Prop :=
  ∀ (e : Fin 4) (m : Msg) (rest : List InMsg) (w st : Word) (s : State),
    RimReady (gxUnit e) (fun m => m.op == 0x01) m rest s → s.unitExists m.src = true →
    s.gxcfg m.sctx m.win = w → s.gxstat m.sctx m.win = st →
    (gxCheck s e m = none →
      (fld st 0 20 + 1) % 2 ^ 20 ≠ fld w 42 20 →
      (bit w 7 = true → s.gxMaskBit m.sctx (fld w 8 18 + leNat (m.payload.take 8)) = false →
        Completes (.gxMessage e) s (fun s' => RimFrame s s' ∧ s'.inbox.get (gxUnit e) [] = rest ∧
          s'.gx = s.gx ∧ s'.ctxs = s.ctxs ∧ s'.mem = s.mem ∧
          fld (s'.gxstat m.sctx m.win) 0 20 = (fld st 0 20 + 1) % 2 ^ 20 ∧
          fld (s'.gxstat m.sctx m.win) 20 20 = (fld st 20 20 + 1) % 2 ^ 20 ∧
          Sent (answer m 0x04 0 0) s')) ∧
      ((bit w 7 = false ∨ s.gxMaskBit m.sctx (fld w 8 18 + leNat (m.payload.take 8)) = true) → gxEtype w < 6 →
        Completes (.gxMessage e) s (fun s' => RimFrame s s' ∧ s'.inbox.get (gxUnit e) [] = rest ∧
          s'.ctxs = s.ctxs ∧ s'.mem = s.mem ∧
          fld (s'.gxstat m.sctx m.win) 0 20 = (fld st 0 20 + 1) % 2 ^ 20 ∧
          fld (s'.gxstat m.sctx m.win) 20 20 = fld st 20 20 ∧
          (∃ r, (s'.gx.get e {}).held = (s.gx.get e {}).held ++ [r] ∧ r.port = gxPort w ∧ r.ctx = m.sctx ∧
            r.stream = m.win ∧ r.addr = s.devReg (pgCtx m.sctx) (0x408 + 32 * m.win) +
              BitVec.ofNat 64 (leNat (m.payload.take 8) * fld w 26 16 * 64)) ∧
          (∀ k, k ≠ e.val → s'.gx.get k {} = s.gx.get k {}) ∧ Sent (answer m 0x04 0 0) s'))) ∧
    (gxCheck s e m = none → (fld st 0 20 + 1) % 2 ^ 20 = fld w 42 20 →
      Completes (.gxMessage e) s (fun s' => RimFrame s s' ∧ s'.inbox.get (gxUnit e) [] = rest ∧
        s'.ctxs = s.ctxs ∧ s'.mem = s.mem ∧ fld (s'.gxstat m.sctx m.win) 0 40 = 0 ∧
        ∃ r, (s'.gx.get e {}).held.getLast? = some r ∧ r.ctx = m.sctx ∧ r.stream = m.win ∧
          r.port = gxPort w ∧ r.addr = s.devReg (pgCtx m.sctx) (0x410 + 32 * m.win))) ∧
    (∀ er, gxCheck s e m = some er →
      Completes (.gxMessage e) s (fun s' => RimFrame s s' ∧ s'.inbox.get (gxUnit e) [] = rest ∧ s'.gx = s.gx ∧
        bit (s'.hdr (pgCtx m.sctx)).err er.bit = true ∧ Sent (answer m 0x04 6 0) s'))

/-- A message for an engine that is out of place, breaks its row or carries a bad payload takes no effect: the error is
raised and it is answered with status 6 (R214 to R216, R218). -/
def BrokenGradientMessagesAreRefused : Prop :=
  ∀ (e : Fin 4) (im : InMsg) (rest : List InMsg) (er : Err) (s : State),
    RimHolds (gxUnit e) (fun m => m.op == 0x01) im rest s → msgFault im = some er →
    s.unitExists im.msg.src = true →
    Completes (.gxMessage e) s (fun s' => RimFrame s s' ∧ s'.inbox.get (gxUnit e) [] = rest ∧ s'.gx = s.gx ∧
      s'.gxMask = s.gxMask ∧ Sent (answer im.msg 0x04 6 0) s')

/-- The oldest record whose port can take it leaves as WRITE packets to the partner and its bytes count as its context's
(R333, R384, R386); where none can, records wait; the
write of a mask word reaches its place and INDEX moves on under AUTOINC (R381, R393); a configuration
with EN = 0 is stored and the stream's records and counts go, a good one with EN = 1 is stored, and one
with EN = 1 for an enabled stream, or that breaks a rule of the fields, is refused (R393). -/
def GradientStreamsAreSetUpAndSent : Prop :=
  (∀ (e : Fin 4) (r : GxRec) (rest : List GxRec) (s : State),
    pickRec s [] (s.gx.get e {}).held = some (r, rest) →
    Completes (.gxRecordSend e) s (fun s' => s' = { s with gx := s'.gx, lnm := s'.lnm, ctxs := s'.ctxs } ∧
      (∀ k, k ≠ r.ctx → s'.ctx k = s.ctx k) ∧ s'.ctx r.ctx = { s.ctx r.ctx with acct := (s'.ctx r.ctx).acct } ∧
      (s'.ctx r.ctx).acct.get (3 + r.port) 0 = (s.ctx r.ctx).acct.get (3 + r.port) 0 + r.bytes.length ∧
      (s'.gx.get e {}).held = rest ∧ (∀ k, k ≠ e.val → s'.gx.get k {} = s.gx.get k {}) ∧
      (∀ q, q ≠ r.port → s'.port q = s.port q) ∧
      s'.port r.port = { s.port r.port with outq := (s.port r.port).outq ++
        (writePkts 2 r.ctx r.addr r.bytes).map (fun p => ⟨0x01, r.ctx, p, none⟩) })) ∧
  (∀ (e : Fin 4) (s : State), pickRec s [] (s.gx.get e.val {}).held = none →
    Completes (.gxRecordSend e) s (· = s)) ∧
  (∀ (c : Fin 8) (v sel : Word) (s : State), s.mgt.boot = 2 → s.devReg (pgCtx c) 0x348 = sel →
    Completes (.gxMaskWrite c v) s (fun s' =>
      s'.gxMaskWord c (fld sel 0 12) = v ∧
      (∀ w, w < 4096 → w ≠ fld sel 0 12 → s'.gxMaskWord c w = s.gxMaskWord c w) ∧
      s'.devReg (pgCtx c) 0x348 = (if bit sel 12 = true then setFld sel 0 12 (fld sel 0 12 + 1) else sel) ∧
      s'.tiles = s.tiles ∧ s'.ctxs = s.ctxs ∧ s'.gx = s.gx ∧ s'.mem = s.mem)) ∧
  (∀ (c : Fin 8) (i : Fin 16) (v : Word) (s : State), s.mgt.boot = 2 →
    (bit v 0 = false → Completes (.gxConfigWrite c i v) s (fun s' =>
      s'.gxcfg c i = setFld v 62 2 0 ∧ fld (s'.gxstat c i) 0 40 = 0 ∧
      (∀ e, e < 4 → (s'.gx.get e {}).held =
        (s.gx.get e {}).held.filter (fun r => !(r.ctx == c.val && r.stream == i.val))) ∧
      s'.tiles = s.tiles ∧ s'.ctxs = s.ctxs ∧ s'.mem = s.mem)) ∧
    (bit v 0 = true → bit (s.gxcfg c i) 0 = false → gxSetupOk s c i v = true →
      Completes (.gxConfigWrite c i v) s (fun s' => Acted (s.setDevReg (pgCtx c) (0x400 + 32 * i.val) v) s')) ∧
    (bit v 0 = true → (bit (s.gxcfg c i) 0 = true ∨ gxSetupOk s c i v = false) →
      Completes (.gxConfigWrite c i v) s (fun s' => Acted s s' ∧
        bit (s'.hdr (pgCtx c)).err Err.gxSetup.bit = true)))

end Sys2Proof

/-- GX_MESSAGE, GX_RECORD_SEND, GX_MASK_WRITE and GX_CONFIG_WRITE: gradient streams are set up, messages become records,
and the records are sent. -/
def Obligations.GradientsAreSetUpMadeAndSent : Prop :=
  GradientMessagesBecomeRecords ∧ BrokenGradientMessagesAreRefused ∧ GradientStreamsAreSetUpAndSent

namespace Sys2Proof

/-! ### Memory movers, tiers and CXL links (chapter 13) -/

/-- What MOVER_DESCRIPTOR takes: a WRITE of a window other than 1, with room for its descriptors (R400, R408). -/
def takesDescs (s : State) (k : Nat) (m : Msg) : Bool :=
  m.op == 0x01 && m.win != 1 && (m.win != 0 || decide ((s.mover k).held + m.payload.length / 64 ≤ 256))

/-- Descriptor j of a message, as mover v accepts it (R401, R405). -/
def descOf (v : Mover) (m : Msg) (j : Nat) : Desc :=
  { src := m.src, ctx := m.sctx, ws := words8 ((m.payload.drop (64 * j)).take 64), seq := v.seq + j,
    spoiled := v.ended.get (m.src * 8 + m.sctx) false }

/-- The mover after the first n descriptors of a message have joined its queue, in order. -/
def tookDescs (v : Mover) (m : Msg) (n : Nat) : Mover :=
  { v with queue := v.queue ++ (List.range n).map (descOf v m), seq := v.seq + n }

/-- The descriptors of a WIN 0 message that pass their checks join the mover's queue in order and the message is
acknowledged; the first that fails its check ends the message, which is refused, and those before it stay (R400 to
R402). A message of another window or of a wrong length is refused (R404); one out of place or with a bad payload takes
no effect (R215, R216). -/
def MoversAcceptDescriptors : Prop :=
  (∀ (k : Fin 28) (m : Msg) (rest : List InMsg) (s : State),
    RimReady (movUnit k) (takesDescs s k) m rest s → s.unitExists m.src = true → s.stop.fatal = false →
    (∀ n, m.win = 0 → m.payload.length = 64 * n → m.mlen = 64 * n → 0 < n →
      ((∀ j, j < n → descCheck s k (descOf (s.mover k) m j) = none) →
        Completes (.moverDescriptor k) s (fun s' => RimFrame s s' ∧ s'.inbox.get (movUnit k) [] = rest ∧
          s'.mover k = tookDescs (s.mover k) m n ∧
          (∀ q, q ≠ k.val → s'.mover q = s.mover q) ∧ s'.mem = s.mem ∧ s'.ctxs = s.ctxs ∧
          Sent (answer m 0x04 0 0) s')) ∧
      (∀ i e, i < n → (∀ j, j < i → descCheck s k (descOf (s.mover k) m j) = none) →
        descCheck s k (descOf (s.mover k) m i) = some e →
        Completes (.moverDescriptor k) s (fun s' => RimFrame s s' ∧ s'.inbox.get (movUnit k) [] = rest ∧
          s'.mover k = tookDescs (s.mover k) m i ∧
          (∀ q, q ≠ k.val → s'.mover q = s.mover q) ∧ s'.mem = s.mem ∧ bit (s'.hdr (pgMov k)).err e.bit = true ∧
          Sent (answer m 0x04 6 0) s'))) ∧
    ((m.win ≠ 0 ∨ m.mlen ≠ m.payload.length ∨ m.payload.length % 64 ≠ 0 ∨ m.payload.length = 0) →
      Completes (.moverDescriptor k) s (fun s' => RimFrame s s' ∧ s'.inbox.get (movUnit k) [] = rest ∧
        s'.mov = s.mov ∧ s'.mem = s.mem ∧ bit (s'.hdr (pgMov k)).err Err.movFormat.bit = true ∧
        Sent (answer m 0x04 6 0) s'))) ∧
  (∀ (k : Fin 28) (im : InMsg) (rest : List InMsg) (e : Err) (s : State),
    RimHolds (movUnit k) (takesDescs s k) im rest s → s.unitExists im.msg.src = true → s.stop.fatal = false →
    msgFault im = some e →
    Completes (.moverDescriptor k) s (fun s' => RimFrame s s' ∧ s'.inbox.get (movUnit k) [] = rest ∧
      s'.mov = s.mov ∧ s'.mem = s.mem ∧ Sent (answer im.msg 0x04 6 0) s'))

/-- A message of STORE data that its STORE has room for is accepted, to be written piece by piece and then answered; one
that breaks the rules of length ends the STORE, and one for which no STORE lacks data is refused (R404, R408). A halted
mover accepts data as any other: HALT stops only the start of pieces (R516). -/
def StoreDataIsAccepted : Prop :=
  ∀ (k : Fin 28) (m : Msg) (rest : List InMsg) (s : State),
    RimReady (movUnit k) (fun m => m.op == 0x01 && m.win == 1) m rest s → s.unitExists m.src = true →
    s.stop.fatal = false →
    (∀ i d, (s.mover k).storeOf m.src = some i → (s.mover k).queue[i]? = some d →
      (m.mlen = m.payload.length → m.payload.length % 64 = 0 → 0 < m.payload.length →
        m.payload.length ≤ d.len - d.pos - d.waiting →
        Completes (.storeData k) s (fun s' => s' = { s with mov := s'.mov, inbox := s'.inbox } ∧
          s'.inbox.get (movUnit k) [] = rest ∧ (∀ q, q ≠ k.val → s'.mover q = s.mover q) ∧
          s'.mover k = { s.mover k with
            queue := (s.mover k).queue.set i { d with fill := d.fill ++ [((s.mover k).seq, m)] }
            seq := (s.mover k).seq + 1 })) ∧
      ((m.mlen ≠ m.payload.length ∨ m.payload.length % 64 ≠ 0 ∨ m.payload.length = 0 ∨
          d.len - d.pos - d.waiting < m.payload.length) →
        Completes (.storeData k) s (fun s' => RimFrame s s' ∧ s'.inbox.get (movUnit k) [] = rest ∧
          (s'.mover k).queue.length + 1 = (s.mover k).queue.length ∧ s'.mem = s.mem ∧
          (∀ q, q ≠ k.val → s'.mover q = s.mover q) ∧ bit (s'.hdr (pgMov k)).err Err.movFormat.bit = true ∧
          Sent (answer m 0x04 6 0) s'))) ∧
    ((s.mover k).storeOf m.src = none →
      Completes (.storeData k) s (fun s' => RimFrame s s' ∧ s'.inbox.get (movUnit k) [] = rest ∧
        s'.mov = s.mov ∧ s'.mem = s.mem ∧ bit (s'.hdr (pgMov k)).err Err.movFormat.bit = true ∧
        Sent (answer m 0x04 6 0) s'))

/-- What a piece moves counts for its context (R333). -/
def MovedFor (k c n : Nat) (s s' : State) : Prop :=
  (s'.ctx c).acct.get (tierOf k) 0 = (s.ctx c).acct.get (tierOf k) 0 + n

/-- A piece of a LOAD: its bytes are read, and what has been read is sent as WRITEs; the tiers do not change, and
single-bit errors are corrected and reported (R403, R408, R418). An uncorrectable granule ends the descriptor (R406). -/
def LoadsAreServedInPieces : Prop :=
  ∀ (k : Fin 28) (c u i : Nat) (d : Desc) (s : State), s.movRuns k = true →
    s.nextPiece k (s.mover k) = some (c, u, i) → (s.mover k).queue[i]? = some d → d.load = true →
    s.rangeOk k d.addr d.len = true →
    (∀ ecc, (∀ x ∈ ecc, x.dbl = false) →
      (∀ g, g < cdiv (min (pieceSize k) (d.len - d.pos)) 64 → s.loadBad k d (d.addr + d.pos + 64 * g) = false) →
      Completes (.moverPiece k ecc) s (fun s' => s'.tiles = s.tiles ∧ s'.mem = s.mem ∧ s'.cast = s.cast ∧
        (s'.mover k).rrCtx = c ∧ (s'.mover k).queue.length = (s.mover k).queue.length ∧
        (∀ q, q ≠ k.val → s'.mover q = s.mover q) ∧
        MovedFor k d.ctx (min (pieceSize k) (d.len - d.pos)) s s' ∧
        ∃ d', (s'.mover k).queue[i]? = some d' ∧ d'.ws = d.ws ∧
          d'.pos = d.pos + min (pieceSize k) (d.len - d.pos) ∧
          d'.sent + d'.buf.length = d.sent + d.buf.length + min (pieceSize k) (d.len - d.pos))) ∧
    (∀ g mem_ b, (List.range (cdiv (min (pieceSize k) (d.len - d.pos)) 64)).find?
        (fun g => s.loadBad k d (d.addr + d.pos + 64 * g)) = some g →
      s.memAt k (d.addr + d.pos + 64 * g) = some (mem_, b) →
      Completes (.moverPiece k []) s (fun s' => s'.tiles = s.tiles ∧ s'.mem = s.mem ∧ s'.cast = s.cast ∧
        (s'.mover k).queue.length + 1 = (s.mover k).queue.length ∧
        bit (s'.hdr (memPage mem_)).err Err.memUncorrectable.bit = true))

/-- The data that a STORE has accepted and not written, in order (R404). -/
def unwritten (d : Desc) : List Byte := (d.fill.flatMap (fun x => x.2.payload)).drop d.part

/-- The data messages of a STORE are in the order of acceptance, none of them empty, and the first is not written whole. -/
def FillOk (d : Desc) : Prop :=
  d.fill.Pairwise (fun x y => x.1 < y.1) ∧ (∀ x ∈ d.fill, x.2.payload ≠ [] ∧ x.2.op = 0x01) ∧
  (∀ x, d.fill.head? = some x → d.part < x.2.payload.length) ∧ (d.fill = [] → d.part = 0) ∧
  d.pos + (unwritten d).length ≤ d.len

/-- No other descriptor owes bytes of the rest of this STORE's range that were accepted before those of this one (R407). -/
def NoneOwed (v : Mover) (i : Nat) (d : Desc) : Prop :=
  ∀ x ∈ d.fill, ({ v with queue := v.queue.eraseIdx i } : Mover).owed x.1 (d.addr + d.pos) (d.addr + d.len) = false

/-- A piece of a STORE: the next bytes of its waiting data, S_min or all there is, whatever messages they came in, are
written where they belong, and every other byte of the tiers reads as before; a message is answered once its last byte is
written (R404, R408). -/
def StoresAreServedInPieces : Prop :=
  ∀ (k : Fin 28) (c u i : Nat) (d : Desc) (bs : List Byte) (s : State),
    s.movRuns k = true → s.nextPiece k (s.mover k) = some (c, u, i) → (s.mover k).queue[i]? = some d →
    d.load = false → s.rangeOk k d.addr d.len = true → FillOk d → NoneOwed (s.mover k) i d →
    (∀ x ∈ d.fill, s.unitExists x.2.src = true) →
    bs = (unwritten d).take (pieceSize k) →
    Completes (.moverPiece k []) s (fun s' => s'.tiles = s.tiles ∧ s'.cast = s.cast ∧ s'.inbox = s.inbox ∧
      (∀ j, j < bs.length → s'.memByte k (d.addr + d.pos + j) = bs[j]?) ∧
      (∀ q b, q < 28 → b < 2 ^ 48 → (q ≠ k.val ∨ b < d.addr + d.pos ∨ d.addr + d.pos + bs.length ≤ b) →
        s'.memByte q b = s.memByte q b) ∧
      (∃ (d' : Desc) (gone : List (Nat × Msg)), (s'.mover k).queue[i]? = some { d with pos := d.pos + bs.length, fill := d'.fill, part := d'.part } ∧
        unwritten d' = (unwritten d).drop bs.length ∧ d.fill = gone ++ d'.fill ∧
        (∀ x, d'.fill.head? = some x → d'.part < x.2.payload.length) ∧ (d'.fill = [] → d'.part = 0) ∧
        s'.routers = (gone.foldl (fun s x => sendMsg (answer x.2 0x04 0 0) s) s).routers) ∧
      (∀ j e, j ≠ i → (s.mover k).queue[j]? = some e → ∃ o, (s'.mover k).queue[j]? = some { e with old := o }) ∧
      (∀ q, q ≠ k.val → s'.mover q = s.mover q) ∧ MovedFor k d.ctx bs.length s s')

/-- Where the piece is all of one message's, earlier LOADs keep what they have not read of the old content (R407). -/
def StoresKeepWhatLoadsHaveNotRead : Prop :=
  ∀ (k : Fin 28) (c u i seq n : Nat) (d : Desc) (m : Msg) (rest : List (Nat × Msg)) (s : State),
    s.movRuns k = true → s.nextPiece k (s.mover k) = some (c, u, i) → (s.mover k).queue[i]? = some d →
    d.load = false → d.fill = (seq, m) :: rest → m.op = 0x01 → s.rangeOk k d.addr d.len = true →
    (pieceSize k ≤ m.payload.length - d.part ∨ rest = []) → n = min (pieceSize k) (m.payload.length - d.part) →
    Completes (.moverPiece k []) s (fun s' => s'.tiles = s.tiles ∧
      (s'.mover k).queue = ((s.mover k).queue.map (keepOld s k (d.addr + d.pos) n seq)).set i
        { d with
          pos := d.pos + n
          fill := if d.part + n = m.payload.length then rest else d.fill
          part := if d.part + n = m.payload.length then 0 else d.part + n })

/-- The piece of a STORE writes no byte for which data accepted earlier is still to be written (R407). -/
def LaterStoresWait : Prop :=
  ∀ (k : Fin 28) (c u i : Nat) (d : Desc) (x : Nat × Msg) (s : State), s.movRuns k = true →
    s.nextPiece k (s.mover k) = some (c, u, i) → (s.mover k).queue[i]? = some d → d.load = false →
    s.rangeOk k d.addr d.len = true → FillOk d → d.fill.head? = some x →
    Completes (.moverPiece k []) s (fun s' => s'.tiles = s.tiles ∧
      ∃ d', (s'.mover k).queue[i]? = some d' ∧ d.pos < d'.pos ∧
        ∀ e ∈ (s.mover k).queue, e.before x.1 = 0 ∨ d.addr + d'.pos ≤ e.addr + e.pos ∨
          e.addr + e.pos + e.before x.1 ≤ d.addr + d.pos)

/-- A descriptor whose range is usable no more ends at its next piece, with MOV_RANGE if it had not started; with nothing
to serve, and in a HALTed or stopped mover, nothing happens (R410, R501). -/
def PiecesEndWithTheirRange : Prop :=
  ∀ (k : Fin 28) (ecc : List Upset) (s : State),
    (∀ c u i d, s.movRuns k = true → s.nextPiece k (s.mover k) = some (c, u, i) → (s.mover k).queue[i]? = some d →
      s.rangeOk k d.addr d.len = false →
      Completes (.moverPiece k ecc) s (fun s' => s'.tiles = s.tiles ∧ s'.mem = s.mem ∧ s'.cast = s.cast ∧
        (s'.mover k).queue.length + 1 = (s.mover k).queue.length ∧ (∀ q, q ≠ k.val → s'.mover q = s.mover q) ∧
        (d.pos = 0 → bit (s'.hdr (pgMov k)).err Err.movRange.bit = true))) ∧
    ((s.movRuns k = false ∨ s.nextPiece k (s.mover k) = none) → Completes (.moverPiece k ecc) s (· = s))

/-- The staged acknowledgement of a descriptor. -/
def stagedAck (k tag : Nat) (d : Desc) : Msg :=
  { op := 0x08, src := movUnit k, dest := d.sunit, sctx := d.ctx, priv := true, tctx := d.ctx, w1 := d.stageW1, tag := tag }

/-- A complete descriptor leaves the queue and its completion increment goes
out; its staged acknowledgement waits for the earlier descriptors of its source and context, and is not sent where one of
them has ended without completing (R405); an operation answered FROZEN is sent again after 1 µs (R406). -/
def DescriptorsComplete : Prop :=
  ∀ (k : Fin 28) (s : State),
    (∀ i d, (s.mover k).queue.findIdx? (fun d => !d.done && d.complete) = some i →
      (s.mover k).queue[i]? = some d → (∀ e ∈ (s.mover k).queue, e.done = false) →
      ((d.stageEn = false ∨ ∀ j e, j < i → (s.mover k).queue[j]? = some e → e.src ≠ d.src ∨ e.ctx ≠ d.ctx) →
        Completes (.descriptorComplete k) s (fun s' => s'.tiles = s.tiles ∧ s'.mem = s.mem ∧ s'.inbox = s.inbox ∧
          (s'.mover k).queue = (s.mover k).queue.eraseIdx i ∧ (∀ q, q ≠ k.val → s'.mover q = s.mover q) ∧
          (d.doneEn = false → (d.stageEn = false ∨ d.spoiled = true) → s'.routers = s.routers) ∧
          (d.doneEn = true → (d.stageEn = false ∨ d.spoiled = true) → s.unitExists d.cunit = true →
            Sent { op := 0x08, src := movUnit k, dest := d.cunit, sctx := d.ctx, priv := true, tctx := d.ctx,
                   w1 := d.doneW1, tag := (s.mover k).tag } s') ∧
          (d.stageEn = true → d.spoiled = false → s.unitExists d.sunit = true →
            Sent (stagedAck k (if d.doneEn then ((s.mover k).tag + 1) % 2 ^ 32 else (s.mover k).tag) d) s'))) ∧
      (∀ j e, d.stageEn = true → j < i → (s.mover k).queue[j]? = some e → e.src = d.src → e.ctx = d.ctx →
        Completes (.descriptorComplete k) s (fun s' => s'.tiles = s.tiles ∧ s'.mem = s.mem ∧ s'.inbox = s.inbox ∧
          (s'.mover k).queue = (s.mover k).queue.set i { d with done := true } ∧
          (∀ q, q ≠ k.val → s'.mover q = s.mover q) ∧ (d.doneEn = false → s'.routers = s.routers)))) ∧
    (∀ msg, (s.mover k).thawed s.time = some msg → s.unitExists msg.dest = true →
      Completes (.moverFrozenResend k) s (fun s' => s' = { s with mov := s'.mov, routers := s'.routers } ∧
        Sent msg s' ∧ (s'.mover k).queue.length = (s.mover k).queue.length ∧
        (∀ q, q ≠ k.val → s'.mover q = s.mover q)))

/-- The patrol scrub reads a granule of a stack or channel: one wrong bit is corrected and reported, two
mark the granule uncorrectable, a good granule is left as it is (R419). A refresh rate and the temperature that
requires it are kept (R413, R414, R420) and a channel that fails is no longer usable (R410). -/
def TiersAreScrubbed : Prop :=
  ∀ (s : State),
    (∀ (k : Fin 28) a mem_ b, k.val < 24 → s.memAt k a = some (mem_, b) → s.stop.fatal = false →
      (if k.val < 20 then fld (s.devReg (pgHbm k) 0x108) 0 16
        else fld (s.devReg (pgDdr (mem_ - 32)) 0x110) 0 16) ≠ 0 →
      (s.granBad k (a / 64 * 64) = false → Completes (.patrolScrub k a []) s (fun s' => s' = s)) ∧
      (s.granBad k (a / 64 * 64) = false → Completes (.patrolScrub k a [⟨a, false⟩]) s (fun s' => Reports s s' ∧
        bit (s'.hdr (memPage mem_)).err Err.memCorrected.bit = true)) ∧
      Completes (.patrolScrub k a [⟨a, true⟩]) s (fun s' => s'.granBad k (a / 64 * 64) = true ∧
        s'.mem = { s.mem with bad := s'.mem.bad } ∧ s'.tiles = s.tiles ∧
        bit (s'.hdr (memPage mem_)).err Err.memUePatrol.bit = true)) ∧
    (∀ u (r : RefreshNeed), u < 20 → Completes (.refreshRateChange u r) s (fun s' =>
      s' = setHbm u { s.hbm u with refrate := min r.rate 2, temp := r.temp.toNat } s)) ∧
    (∀ u (r : RefreshNeed), 32 ≤ u → u < 48 → Completes (.refreshRateChange u r) s (fun s' =>
      s' = setDdr (u - 32) { s.ddr (u - 32) with refrate := min r.rate 2, temp := r.temp.toNat } s)) ∧
    (∀ ch : Fin 16, Completes (.failedChannel ch) s (fun s' =>
      s' = setDdr ch { s.ddr ch with failed := true } s ∧ s'.chanOn ch = false))

/-- What a CXL command leaves alone beside its links and the segment tables. -/
def CxlFrame (s s' : State) : Prop :=
  s'.tiles = s.tiles ∧ s'.mov = s.mov ∧ s'.cast = s.cast ∧ s'.pwr = s.pwr ∧ s'.mem.hbm = s.mem.hbm ∧
  s'.mem.ddr = s.mem.ddr ∧ s'.mem.bytes = s.mem.bytes ∧ s'.time = s.time

/-- A CXL link comes up, is enumerated or rejected, goes ONLINE and OFFLINE by command, and goes down;
an expander's range that a context maps keeps it ONLINE without FORCE, and when it is lost every entry
over it is no longer valid; the two links of an interleaving port go together, through half 0 (R416, R417). -/
def CxlLinksFollowTheirTable : Prop :=
  ∀ (p : Fin 4) (h : Fin 2) (l : Nat) (s : State), l = 2 * p.val + h.val →
    (∀ width, (s.cxl l).st = .empty → s.mem.wide.get p false = false →
      Completes (.cxlLinkUp p h width) s (fun s' => s' = setCxl l { st := .enumerating, width := 1 } s)) ∧
    (∀ width, (s.cxl l).st = .empty → s.mem.wide.get p false = true → h = 0 →
      Completes (.cxlLinkUp p h width) s (fun s' =>
        s' = setCxl l { st := .enumerating, width := if width = 1 then 1 else 2 } s)) ∧
    (∀ dev, (s.cxl l).st = .enumerating →
      (dev.conforms = true → dev.cap ≤ 256 → Completes (.cxlEnumerated p h dev) s (fun s' =>
        Reports (setCxl l { s.cxl l with
          st := .ready
          cap := dev.cap
          lat := dev.lat % 65536
          rate := dev.fast } s) s')) ∧
      ((dev.conforms = false ∨ 256 < dev.cap) → Completes (.cxlEnumerated p h dev) s (fun s' =>
        Reports (setCxl l { s.cxl l with st := .rejected } s) s' ∧
        bit (s'.hdr (pgCxl p)).err Err.cxlRejected.bit = true))) ∧
    (s.mgt.boot = 2 → s.mem.twoWay.get p false = false → s.canInterleave p = false → (s.cxl l).st = .ready →
      Completes (.cxlOnline p h) s (fun s' => Acted (setCxl l { s.cxl l with st := .online } s) s')) ∧
    (s.mgt.boot = 2 → s.mem.twoWay.get p false = false → s.canInterleave p = true → h = 0 →
      Completes (.cxlOnline p h) s (fun s' => CxlFrame s s' ∧ s'.mem.twoWay.get p false = true ∧
        (s'.cxl (2 * p.val)).st = .online ∧ (s'.cxl (2 * p.val + 1)).st = .online ∧ s'.ctxs = s.ctxs)) ∧
    (∀ force, s.mgt.boot = 2 → s.mem.twoWay.get p false = false → (s.cxl l).st = .online →
      (force = true ∨ s.mappedTo (s.linkRange p h).1 (s.linkRange p h).2 = [] →
        Completes (.cxlOffline p h force) s (fun s' => Acted (setCxl l { s.cxl l with st := .offlining } s) s')) ∧
      (force = false → s.mappedTo (s.linkRange p h).1 (s.linkRange p h).2 ≠ [] →
        Completes (.cxlOffline p h force) s (fun s' => Acted s s' ∧
          bit (s'.hdr (pgCxl p)).err Err.cxlBusy.bit = true))) ∧
    ((s.cxl l).st = .offlining → s.mem.twoWay.get p false = false →
      Completes (.cxlOfflineComplete p h) s (fun s' => CxlFrame s s' ∧
        s'.cxl l = { s.cxl l with st := .ready } ∧ (∀ q, q ≠ l → s'.cxl q = s.cxl q) ∧
        s'.mappedTo (s.linkRange p h).1 (s.linkRange p h).2 = [])) ∧
    (s.mem.twoWay.get p false = true →
      (∀ force, s.mgt.boot = 2 → h = 0 → (s.cxl (2 * p.val)).st = .online → (s.cxl (2 * p.val + 1)).st = .online →
        (force = true ∨ s.mappedTo (s.linkRange p h).1 (s.linkRange p h).2 = []) →
        Completes (.cxlOffline p h force) s (fun s' =>
          Acted (setCxlSt [2 * p.val, 2 * p.val + 1] .offlining s) s')) ∧
      (∀ force, s.mgt.boot = 2 → h = 1 → Completes (.cxlOffline p h force) s (fun s' => Acted s s')) ∧
      ((s.cxl l).st = .offlining → Completes (.cxlOfflineComplete p h) s (fun s' => CxlFrame s s' ∧
        (s'.cxl (2 * p.val)).st = .ready ∧ (s'.cxl (2 * p.val + 1)).st = .ready ∧
        s'.mem.twoWay.get p false = false ∧
        s'.mappedTo (s.linkRange p h).1 (s.linkRange p h).2 = [])) ∧
      (((s.cxl l).st = .online ∨ (s.cxl l).st = .offlining) →
        Completes (.cxlLinkDown p h) s (fun s' => CxlFrame s s' ∧ s'.cxl (2 * p.val) = {} ∧
          s'.cxl (2 * p.val + 1) = {} ∧ s'.mem.twoWay.get p false = false ∧
          s'.mappedTo (s.linkRange p h).1 (s.linkRange p h).2 = []))) ∧
    (s.mgt.boot = 2 → s.canInterleave p = true → h = 1 → Completes (.cxlOnline p h) s (fun s' => Acted s s')) ∧
    (((s.cxl l).st = .online ∨ (s.cxl l).st = .offlining) → s.mem.twoWay.get p false = false →
      Completes (.cxlLinkDown p h) s (fun s' => CxlFrame s s' ∧ s'.cxl l = {} ∧ (∀ q, q ≠ l → s'.cxl q = s.cxl q) ∧
        s'.mappedTo (s.linkRange p h).1 (s.linkRange p h).2 = [] ∧
        (s.mappedTo (s.linkRange p h).1 (s.linkRange p h).2 ≠ [] →
          bit (s'.hdr (pgCxl p)).err Err.expanderRemoved.bit = true)))

end Sys2Proof

/-- MOVER_PIECE, DESCRIPTOR_COMPLETE and MOVER_FROZEN_RESEND: a mover serves the piece whose turn it is, of a LOAD or a
STORE, completes descriptors, and sends again what was answered FROZEN. -/
def Obligations.MoversServeAndComplete : Prop :=
  LoadsAreServedInPieces ∧ StoresAreServedInPieces ∧ StoresKeepWhatLoadsHaveNotRead ∧ LaterStoresWait ∧
  PiecesEndWithTheirRange ∧ DescriptorsComplete

/-- MOVER_DESCRIPTOR and STORE_DATA: movers accept descriptors, and the data of STOREs. -/
def Obligations.MoversAcceptDescriptorsAndData : Prop :=
  MoversAcceptDescriptors ∧ StoreDataIsAccepted

/-- PATROL_SCRUB, REFRESH_RATE_CHANGE, FAILED_CHANNEL, and CXL_LINK_UP, CXL_ENUMERATED, CXL_ONLINE, CXL_OFFLINE,
CXL_OFFLINE_COMPLETE and CXL_LINK_DOWN: tiers are scrubbed, and CXL links follow their table. That a port's
mode of two-way interleaving is decided at ONLINE, and that commands on its half 1 then do nothing, is the model's choice
(log 65). -/
def Obligations.TiersAndExpanders : Prop :=
  TiersAreScrubbed ∧ CxlLinksFollowTheirTable

namespace Sys2Proof

/-! ### Laniem ports (chapter 14) -/

/-- The port as it stands after a change of training state at the present time. -/
def enters (q : LnmPort) (st : LState) (s : State) : LnmPort := { q with st := st, since := s.time }

/-- The port has left its state for DOWN or DISABLED with a cause (R427, R448): no role, nothing queued;
no tile and no memory has changed, and no other port but for its events. -/
def LinkGone (p cause : Nat) (st : LState) (s s' : State) : Prop :=
  (s'.port p).st = st ∧ (s'.port p).cause = cause ∧ (s'.port p).role = .none ∧ (s'.port p).since = s.time ∧
  (s'.port p).line = [] ∧
  ((s.port p).st = .up → (s'.port p).outq = [] ∧ (s'.port p).replay = [] ∧
    bit (s'.hdr (pgLnm p)).err Err.lnmLinkDown.bit = true) ∧
  s'.tiles = s.tiles ∧ s'.mem = s.mem ∧ s'.mov = s.mov ∧
  ∀ q, q ≠ p → s'.port q = { s.port q with evq := (s'.port q).evq, evseq := (s'.port q).evseq }

end Sys2Proof

/-- PORT_ENABLE, PORT_DISABLE, LIGHT_DETECT, LANE_LOCK, EQ_CONVERGED, PARTNER_ALIGNED, TRAINING_LIMIT, LOSS_OF_LIGHT,
LOSS_OF_LOCK, ALIGNMENT_LOST and RETRY_EXPIRY: a port trains from DISABLED through DARK, LOCK, EQ and ALIGN to HELLO as its events come (R426), and a
limit, a loss or EN = 0 takes it DOWN or DISABLED with its cause; DOWN tries again after the retry time
(R426, R427). The transmit swing stands at the partner's request, within its bounds, and follows it while the port
is UP (R427). -/
def Obligations.PortsTrainAndGoDown : Prop :=
  ∀ (p : Fin 8) (q : LnmPort) (s : State), s.port p = q →
    (s.mgt.boot = 2 → q.st = .disabled → Completes (.portEnable p) s (fun s' =>
      Acted (setPort p (enters q .dark s) (setEn p true s)) s')) ∧
    (s.mgt.boot = 2 → q.st ≠ .disabled → Completes (.portDisable p) s (fun s' => LinkGone p 1 .disabled s s' ∧
      bit (s'.lnmCfg p) 0 = false ∧
      (s'.port p).downReq = (q.st == .align || q.st == .hello || q.st == .up))) ∧
    (q.st = .dark → Completes (.lightDetect p) s (fun s' => s' = setPort p (enters q .lock s) s)) ∧
    (q.st = .lock → Completes (.laneLock p) s (fun s' => s' = setPort p (enters q .eq s) s)) ∧
    (∀ step, q.st = .eq → Completes (.eqConverged ⟨p, step⟩) s (fun s' =>
      s' = setPort p { enters q .align s with
        sfSeq := 0
        goodCtl := 0
        badSf := 0
        swing := s.swingIn p step.toNat } s ∧
      (fld (s.devReg (pgLnm p) 0x120) 0 4 ≤ fld (s.devReg (pgLnm p) 0x120) 4 4 →
        fld (s.devReg (pgLnm p) 0x120) 0 4 ≤ (s'.port p).swing ∧
        (s'.port p).swing ≤ fld (s.devReg (pgLnm p) 0x120) 4 4))) ∧
    (∀ step, q.st = .up → Completes (.eqConverged ⟨p, step⟩) s (fun s' =>
      s' = setPort p { q with swing := s.swingIn p step.toNat } s)) ∧
    (∀ step, q.st ≠ .eq → q.st ≠ .up → Completes (.eqConverged ⟨p, step⟩) s (· = s)) ∧
    (q.st = .align → 4 ≤ q.goodCtl → Completes (.partnerAligned p) s (fun s' =>
      s' = setPort p { enters q .hello s with partner := none, sentAgreed := 0, helloAt := none } s)) ∧
    (∀ n, trainLimit q.st = some n → q.since + n ≤ s.time →
      Completes (.trainingLimit p) s (fun s' => LinkGone p 8 .down s s')) ∧
    (q.st = .up → Completes (.lossOfLight p) s (fun s' => LinkGone p 2 .down s s') ∧
      Completes (.lossOfLock p) s (fun s' => LinkGone p 3 .down s s') ∧
      (3 ≤ q.badSf → Completes (.alignmentLost p) s (fun s' => LinkGone p 4 .down s s'))) ∧
    (q.st = .down → q.since + fld (s.devReg (pgLnm p) 0x120) 8 8 * 1000000 ≤ s.time →
      Completes (.retryExpiry p) s (fun s' => s' = setPort p (enters q .dark s) s))

namespace Sys2Proof

/-- The port is UP with the role, credit and sequence numbers of a new link (R426, R430, R433, R434). -/
def LinkUp (p : Nat) (r : HelloRec) (s s' : State) : Prop :=
  (s'.port p).st = .up ∧ (s'.port p).role = roleOf (s.lnmCfg p) r ∧ (s'.port p).pkind = r.kind ∧
  (s'.port p).lastId = r.id ∧ (s'.port p).linkups = min 65535 ((s.port p).linkups + 1) ∧
  (s'.port p).grant0 = r.buf0 ∧ (s'.port p).grant1 = r.buf1 ∧ (s'.port p).txSeq = 0 ∧ (s'.port p).rxSeq = 0 ∧
  s'.tiles = s.tiles ∧ s'.mem = s.mem ∧
  ∀ q, q ≠ p → s'.port q = { s.port q with evq := (s'.port q).evq, evseq := (s'.port q).evseq }

/-- Hello records settle version and role (R428 to R430): one with reserved bits or too small a buffer is ignored, the
first is kept, an incompatible version ends the attempt, and the link is UP once both sides have sent and received the
agreement. The port sends its own record every 10 µs. -/
def HelloRecordsBringTheLinkUp : Prop :=
  ∀ (p : Fin 8) (q : LnmPort) (s : State), s.port p = q → q.st = .hello →
    (∀ r : HelloRec, (r.res = true ∨ r.buf0 < 4096) → Completes (.hello p r) s (· = s)) ∧
    (∀ r : HelloRec, r.res = false → 4096 ≤ r.buf0 →
      (r.vmin ≤ 1 → 1 ≤ r.vmax → ¬ (r.agreed = 1 ∧ q.sentAgreed = 1) →
        Completes (.hello p r) s (fun s' => s' = setPort p { q with partner := some r } s)) ∧
      (r.vmin ≤ 1 → 1 ≤ r.vmax → r.agreed = 1 → q.sentAgreed = 1 →
        Completes (.hello p r) s (fun s' => LinkUp p r s s')) ∧
      (¬ (r.vmin ≤ 1 ∧ 1 ≤ r.vmax) → Completes (.hello p r) s (fun s' => LinkGone p 6 .down s s'))) ∧
    ((q.helloAt = none ∨ ∃ t0, q.helloAt = some t0 ∧ t0 + 10000 ≤ s.time) →
      (q.partner = none → Completes (.helloSend p) s (fun s' =>
        s' = setPort p (putLine 0x0D 0 (helloPkt p 0 s.mgt.fuses.id)
          { q with helloAt := some s.time, sentAgreed := 0 }) s)) ∧
      (∀ r, q.partner = some r → r.agreed ≠ 1 → Completes (.helloSend p) s (fun s' =>
        s' = setPort p (putLine 0x0D 0 (helloPkt p 1 s.mgt.fuses.id)
          { q with helloAt := some s.time, sentAgreed := 1 }) s)) ∧
      (∀ r, q.partner = some r → r.agreed = 1 → Completes (.helloSend p) s (fun s' => LinkUp p r s s'))) ∧
    (∀ t0, q.helloAt = some t0 → s.time < t0 + 10000 → Completes (.helloSend p) s (· = s))

/-- What the statistics of a port's page count with the codewords the FEC has seen (R451, R522). -/
def codewordsSeen (p : Nat) (fec : Codewords) (s : State) : State :=
  (s.stat (pgLnm p) 0x40 fec.corr).stat (pgLnm p) 0x48 fec.unc

/-- The state a packet finds: one of VC0 is a wake event of D-idle (R468). -/
def woken (typ : Nat) (s : State) : State := if vcOf typ = 0 then vc0Wake s else s

/-- A packet is discarded with LNM_PROTO (R432): nothing but the port has changed, and no queue of it. -/
def Discarded (p : Nat) (s s' : State) : Prop :=
  s'.tiles = s.tiles ∧ s'.mem = s.mem ∧ s'.ctxs = s.ctxs ∧ s'.pwr = s.pwr ∧ (s'.port p).st = (s.port p).st ∧
  (∀ c, (s'.port p).ctxq.get c [] = (s.port p).ctxq.get c []) ∧
  bit (s'.hdr (pgLnm p)).err Err.lnmProto.bit = true

/-- Control blocks: one goes out at the head of each superframe of 257 blocks (R424, R425); a valid one of an UP link moves the partner's
credit and acknowledgements on (R425, R433, R434), asks for a replay, or takes the link down (R427); one
that is not valid counts towards the loss of alignment (R427). A superframe's time brings the codewords the FEC has
corrected and could not correct to their statistics (R451, R522). A packet out of sequence asks the partner
for a replay (R433), and one in order of a type that no partner may send, or a HELLO with a header that breaks R431, is
discarded with LNM_PROTO (R432). -/
def ControlBlocksKeepTheLink : Prop :=
  ∀ (p : Fin 8) (q : LnmPort) (cb : CtlBlock) (fec : Codewords) (s : State), s.port p = q →
    ((q.st = .align ∨ q.st = .hello ∨ q.st = .up ∨ q.downReq = true) →
      Completes (.superframe p fec) s (fun s' =>
        s' = setPort p { q with
          frame := superframe q
          line := q.line.drop 256
          sfSeq := (q.sfSeq + 1) % 2 ^ 32
          downReq := false } (codewordsSeen p fec s) ∧
        (s'.port p).frame.length = 257 ∧ (s'.port p).frame.head? = some (ctlBlock q))) ∧
    (q.st ≠ .align → q.st ≠ .hello → q.st ≠ .up → q.downReq = false → Completes (.superframe p fec) s (· = codewordsSeen p fec s)) ∧
    (cb.valid = false → Completes (.controlBlock p cb) s (fun s' =>
      s' = setPort p { q with badSf := q.badSf + 1, goodCtl := 0 } s)) ∧
    (cb.valid = true → q.st ≠ .up → Completes (.controlBlock p cb) s (fun s' =>
      s' = setPort p { q with badSf := 0, goodCtl := q.goodCtl + 1 } s)) ∧
    (cb.valid = true → q.st = .up → cb.down = false →
      (cb.nak = false ∨ q.replayPos ≠ none ∨
        (acked cb.ackSeq q.replay).findIdx? (fun e => e.1 == cb.nakSeq) = none) →
      Completes (.controlBlock p cb) s (fun s' => s' = { s with lnm := s'.lnm } ∧
        (∀ k, k ≠ p.val → s'.port k = s.port k) ∧ (s'.port p).st = .up ∧
        (s'.port p).replay = acked cb.ackSeq q.replay ∧
        (s'.port p).grant0 = q.grant0 + (cb.cred0 + 2 ^ 32 - q.cred0) % 2 ^ 32 ∧
        (s'.port p).grant1 = q.grant1 + (cb.cred1 + 2 ^ 32 - q.cred1) % 2 ^ 32 ∧
        (s'.port p).outq = q.outq ∧ (s'.port p).rxSeq = q.rxSeq)) ∧
    (∀ i, cb.valid = true → q.st = .up → cb.down = false → cb.nak = true → q.replayPos = none →
      (acked cb.ackSeq q.replay).findIdx? (fun e => e.1 == cb.nakSeq) = some i →
      Completes (.controlBlock p cb) s (fun s' => s' = { s with lnm := s'.lnm } ∧
        (s'.port p).replayPos = some i ∧
        (s'.port p).replays = (if q.replays ≠ 0 ∧ q.replaySeq = cb.nakSeq then q.replays + 1 else 1) ∧
        (s'.port p).replaySeq = cb.nakSeq)) ∧
    (cb.valid = true → q.st = .up → cb.down = true →
      Completes (.controlBlock p cb) s (fun s' => LinkGone p 7 .down s s')) ∧
    (∀ seq (got : Arrived), q.st = .up → ¬ (got.crcOk = true ∧ seq = q.rxSeq) →
      Completes (.packetDrop p seq got) s (fun s' => s' = setPort p { q with nak := true } s)) ∧
    (∀ (typ : BitVec 8) (k : LnmPkt), q.st = .up → s.stop.fatal = false → typ ≠ 0 → typeHasRow typ.toNat = false →
      Completes (.packetDrop p q.rxSeq ⟨true, typ, k⟩) s (fun s' => Discarded p (woken typ.toNat s) s' ∧
        (s'.port p).rxSeq = (q.rxSeq + 1) % 2 ^ 32)) ∧
    (∀ k : LnmPkt, q.st = .up → s.stop.fatal = false → hdrOk 0x0D k = false →
      Completes (.packetDrop p q.rxSeq ⟨true, 0x0D, k⟩) s (fun s' => Discarded p s s' ∧
        (s'.port p).rxSeq = (q.rxSeq + 1) % 2 ^ 32)) ∧
    (∀ seq (k : LnmPkt), q.st = .hello → hdrOk 0x0D k = false →
      Completes (.packetDrop p seq ⟨true, 0x0D, k⟩) s (fun s' => Discarded p s s' ∧
        (s'.port p).rxSeq = q.rxSeq ∧ (s'.port p).partner = q.partner)) ∧
    (∀ seq (got : Arrived), q.st ≠ .up →
      (q.st ≠ .hello ∨ got.crcOk = false ∨ got.typ ≠ 0x0D ∨ hdrOk 0x0D got.pkt = true) →
      Completes (.packetDrop p seq got) s (· = s))

/-- A reference clock is lost: that of the memory is FATAL once power is enabled, and the others take
down the links that run from them (R534). -/
def LostReferenceClocks : Prop :=
  ∀ (clk : Nat) (s : State), clk < 9 →
    (clk = 8 → s.brd.pwren = true → Completes (.referenceClockLost clk) s (fun s' =>
      s'.brd.lostClk.get clk false = true ∧ bit (s'.hdr pgPwr).err Err.refclkLoss.bit = true ∧
      (s.stop.fatal = false → DeviceStopped s') ∧ s'.mem = s.mem)) ∧
    (clk = 8 → s.brd.pwren = false → Completes (.referenceClockLost clk) s (fun s' =>
      s' = { s with brd := { s.brd with lostClk := s.brd.lostClk.put clk true false } })) ∧
    (4 ≤ clk → clk < 8 → (s.port (2 * (clk - 4))).st.locked = true → (s.port (2 * (clk - 4) + 1)).st.locked = false →
      Completes (.referenceClockLost clk) s (fun s' => LinkGone (2 * (clk - 4)) 3 .down s s' ∧
        s'.brd.lostClk.get clk false = true)) ∧
    (4 ≤ clk → clk < 8 → (s.port (2 * (clk - 4))).st.locked = true → (s.port (2 * (clk - 4) + 1)).st.locked = true →
      Completes (.referenceClockLost clk) s (fun s' => s'.tiles = s.tiles ∧ s'.mem = s.mem ∧
        (∀ h, h < 2 → (s'.port (2 * (clk - 4) + h)).st = .down ∧ (s'.port (2 * (clk - 4) + h)).cause = 3) ∧
        s'.brd.lostClk.get clk false = true)) ∧
    (clk < 4 →
      Completes (.referenceClockLost clk) s (fun s' => CxlFrame s s' ∧
        (s'.cxl (2 * clk)).st = .empty ∧ (s'.cxl (2 * clk + 1)).st = .empty ∧
        s'.brd.lostClk.get clk false = true))

/-- A packet of type `typ` that the link's role and R431 admit reaches an UP port, and no FATAL stop ends admission
(R362). -/
def PacketIn (p typ : Nat) (k : LnmPkt) (s : State) : Prop :=
  (s.port p).st = .up ∧ s.stop.fatal = false ∧ roleTakes (s.port p).role typ = true ∧ hdrOk typ k = true

/-- The port after it: SEQ has moved on, its blocks are freed, and a message in assembly has ended unless
the packet is a window WRITE or of VC1 (R433, R434, R438). -/
def received (p typ : Nat) (k : LnmPkt) (s : State) : State :=
  setPort p { s.port p with
    rxSeq := ((s.port p).rxSeq + 1) % 2 ^ 32
    nak := false
    freed0 := if vcOf typ = 0 then ((s.port p).freed0 + pktBlocks k) % 2 ^ 32 else (s.port p).freed0
    freed1 := if vcOf typ = 1 then ((s.port p).freed1 + pktBlocks k) % 2 ^ 32 else (s.port p).freed1
    asm := if vcOf typ = 0 ∧ ¬ (typ = 1 ∧ k.tkind = 1) then none else (s.port p).asm } (woken typ s)

/-- The answer to the message in assembly that a packet of another kind ends (R438, R439). -/
def brokenAck (p : Nat) (s : State) : List OutPkt :=
  match (s.port p).asm with
  | some w => if w.ackreq then
      [⟨0x02, 8, { tctx := w.tctx, first := true, last := true, tag := w.tag, status := 5 }, none⟩] else []
  | none => []

/-- The answer to a packet that is discarded with LNM_PROTO (R432). -/
def protoAck (k : LnmPkt) : List OutPkt :=
  if k.ackreq then [⟨0x02, 8, { tctx := k.tctx, first := true, last := true, tag := k.tag, status := 5 }, none⟩] else []

/-- The same with an answer queued at the port. -/
def answered (p typ : Nat) (k : LnmPkt) (o : OutPkt) (s : State) : State :=
  setPort p { (received p typ k s).port p with outq := (s.port p).outq ++ brokenAck p s ++ [o] } (received p typ k s)

/-- A window WRITE that is one whole message, permitted and granted, joins its context's queue, or its hold buffer while
the port holds the context's requests; a full one answers HELD_FULL (R436, R438); one
without permission is refused as LNM_REFUSED (R438); a tier write under CONTROL joins it too (R440); a
WACK and a HELLO on an UP link only move the sequence on (R429, R439). A packet of VC0 takes the device out of D-idle,
or ends or marks its entry (R468). -/
def WritesJoinTheirContextsQueue : Prop :=
  ∀ (p : Fin 8) (k : LnmPkt) (s : State),
    (PacketIn p 0x01 k s → (s.port p).asm = none → k.tkind = 1 → pktFits k 0 = true → k.first = true →
      tgtLen k.target ≤ 1024 → s.heldAt p k.tctx = false →
      (s.permits p k.tctx = true → s.grantCovers p k.tctx k.target = true →
        queueBytes ((s.port p).ctxq.get k.tctx []) + k.payload.length ≤ 32768 →
        Completes (.lnmWrite p k) s (fun s' => s' = { vc0Wake s with lnm := s'.lnm } ∧
          (∀ q, q ≠ p.val → s'.port q = s.port q) ∧ (s'.port p).rxSeq = ((s.port p).rxSeq + 1) % 2 ^ 32 ∧
          (s'.port p).ctxq.get k.tctx [] = (s.port p).ctxq.get k.tctx [] ++
            [{ tctx := k.tctx, tag := k.tag, ackreq := k.ackreq, target := k.target, pkts := 1,
               bytes := k.payload }] ∧
          (∀ c, c ≠ k.tctx → (s'.port p).ctxq.get c [] = (s.port p).ctxq.get c []) ∧
          (s'.port p).outq = (s.port p).outq)) ∧
      (s.permits p k.tctx = false → k.ackreq = true →
        Completes (.lnmWrite p k) s (fun s' => Reports (answered p 0x01 k
            ⟨0x02, 8, { tctx := k.tctx, first := true, last := true, tag := k.tag, status := 5 }, none⟩ s) s' ∧
          bit (s'.hdr (pgLnm p)).err Err.lnmRefused.bit = true))) ∧
    (PacketIn p 0x01 k s → (s.port p).asm = none → k.tkind = 1 → pktFits k 0 = true → k.first = true →
      tgtLen k.target ≤ 1024 → s.permits p k.tctx = true →
      (s.heldAt p k.tctx = true → queueBytes ((s.port p).holdq.get k.tctx []) + k.payload.length ≤ 65536 →
        Completes (.lnmWrite p k) s (fun s' => s' = { vc0Wake s with lnm := s'.lnm } ∧
          (s'.port p).holdq.get k.tctx [] = (s.port p).holdq.get k.tctx [] ++
            [{ tctx := k.tctx, tag := k.tag, ackreq := k.ackreq, target := k.target, pkts := 1,
               bytes := k.payload }] ∧
          (s'.port p).ctxq = (s.port p).ctxq ∧ (s'.port p).outq = (s.port p).outq)) ∧
      (s.heldAt p k.tctx = true → 65536 < queueBytes ((s.port p).holdq.get k.tctx []) + k.payload.length →
        k.ackreq = true →
        Completes (.lnmWrite p k) s (fun s' => s'.tiles = s.tiles ∧ s'.mem = (vc0Wake s).mem ∧ s'.ctxs = s.ctxs ∧
          (s'.port p).holdq = (s.port p).holdq ∧ (s'.port p).ctxq = (s.port p).ctxq ∧
          (s'.port p).outq = (s.port p).outq ++
            [⟨0x02, 8, { tctx := k.tctx, first := true, last := true, tag := k.tag, status := 7 }, none⟩]))) ∧
    (PacketIn p 0x01 k s → (s.port p).asm = none → k.tkind = 1 → pktFits k 0 = true → k.first = true →
      1024 < tgtLen k.target →
      Completes (.lnmWrite p k) s (fun s' => s' = { vc0Wake s with lnm := s'.lnm } ∧
        (∀ q, q ≠ p.val → s'.port q = s.port q) ∧
        (s'.port p).asm = some { tctx := k.tctx, tag := k.tag, ackreq := k.ackreq, target := k.target, pkts := 1,
                                 bytes := k.payload } ∧
        (s'.port p).ctxq = (s.port p).ctxq)) ∧
    (PacketIn p 0x01 k s → k.tkind = 0 → (s.port p).role = .control → bit (s.lnmCfg p) 5 = true →
      (moverOf (fld k.target 0 48)).isSome = true → s.heldAt p k.tctx = false →
      queueBytes ((s.port p).ctxq.get k.tctx []) + k.payload.length ≤ 32768 →
      Completes (.lnmTierWrite p k) s (fun s' => s'.tiles = s.tiles ∧ s'.mem = (vc0Wake s).mem ∧ s'.ctxs = s.ctxs ∧
        (s'.port p).ctxq.get k.tctx [] = (s.port p).ctxq.get k.tctx [] ++
          [{ tctx := k.tctx, tag := k.tag, ackreq := k.ackreq, target := k.target, pkts := 1, bytes := k.payload,
             tier := true }])) ∧
    (PacketIn p 0x02 k s → Completes (.wack p k) s (fun s' => s' = received p 0x02 k s)) ∧
    (∀ r, (s.port p).st = .up → Completes (.hello p r) s (fun s' => s' = setPort p { s.port p with
      rxSeq := ((s.port p).rxSeq + 1) % 2 ^ 32
      nak := false
      freed1 := ((s.port p).freed1 + 4) % 2 ^ 32 } s)) ∧
    ((s.port p).st = .up → s.stop.fatal = false →
      (s.pwr.entering = none → s.pwr.dstate = 1 →
        Completes (.lnmWrite p k) s (fun s' => s'.pwr = { s.pwr with dstate := 0 } ∧
          bit (s'.devReg pgPwr 0x120) 8 = true)) ∧
      (∀ e, s.pwr.entering = some e → e.target = 1 →
        (e.commit = false → Completes (.lnmWrite p k) s (fun s' => s'.pwr = { s.pwr with entering := none })) ∧
        (e.commit = true → Completes (.lnmWrite p k) s (fun s' =>
          s'.pwr = { s.pwr with entering := some { e with latched := e.latched ||| wakeBit 8 } }))) ∧
      (s.pwr.dstate ≠ 1 → s.pwr.entering = none → vc0Wake s = s))

/-- What the configuration engine has consumed of context c's stream once n more bytes have arrived (R446). -/
def consumedBy (s : State) (c : Nat) (e : Session) (n : Nat) : Nat :=
  e.spent + n - ((s.pour c).inb.length + n - (s.pour c).unit)

/-- The credit granted with k bytes consumed: each 16 KiB gives credit again (R446). -/
def grantedFor (e : Session) (k : Nat) : Nat := max e.granted (65536 + k / 16384 * 16384)

end Sys2Proof

/-- CFG_OPEN, CFG_DATA and CFG_CLOSE: CFG_OPEN grants 64 KiB of credit, or is refused while the context is busy, or
denied without permission or in another role; CFG_DATA gives the stream its bytes within the credit, which comes back
with each 16 KiB consumed, and closes the session beyond it; CFG_CLOSE ends the session and aborts a pour that is still
POURING (R446). That CFG_OPEN in another role both raises LNM_PROTO and is answered DENIED (log 67), and that the answer to
a message in assembly which such a packet ends goes first (log 98), is the model's choice. -/
def Obligations.ConfigurationSessions : Prop :=
  ∀ (p : Fin 8) (k : LnmPkt) (c : Fin 8) (s : State), k.tctx = c.val →
    (PacketIn p 0x06 k s → bit (s.lnmCfg p) 4 = true → s.session c = none → (s.pour c).st = .idle →
      Completes (.cfgOpen p k) s (fun s' => s'.tiles = s.tiles ∧ s'.ctxs = s.ctxs ∧ s'.mem = (vc0Wake s).mem ∧
        s'.session c = some { port := p.val } ∧ s'.pour c = {} ∧
        (s'.port p).outq = (s.port p).outq ++ brokenAck p s ++ [⟨0x09, 8,
          { tctx := c.val, first := true, last := true, tag := k.tag, extra := 65536 }, none⟩])) ∧
    (PacketIn p 0x06 k s → bit (s.lnmCfg p) 4 = false →
      Completes (.cfgOpen p k) s (fun s' => Reports (answered p 0x06 k ⟨0x09, 8,
        { tctx := c.val, first := true, last := true, tag := k.tag, status := 4, extra := 0 }, none⟩ s) s')) ∧
    (PacketIn p 0x06 k s → bit (s.lnmCfg p) 4 = true → (s.session c ≠ none ∨ (s.pour c).st ≠ .idle) →
      Completes (.cfgOpen p k) s (fun s' => Reports (answered p 0x06 k ⟨0x09, 8,
        { tctx := c.val, first := true, last := true, tag := k.tag, status := 5, extra := 0 }, none⟩ s) s')) ∧
    ((s.port p).st = .up → s.stop.fatal = false → (s.port p).role ≠ .control → hdrOk 0x06 k = true →
      Completes (.cfgOpen p k) s (fun s' => s'.tiles = s.tiles ∧ s'.ctxs = s.ctxs ∧ s'.mem = (vc0Wake s).mem ∧
        s'.cast = s.cast ∧ bit (s'.hdr (pgLnm p)).err Err.lnmProto.bit = true ∧
        (s'.port p).outq = (s.port p).outq ++ brokenAck p s ++
          protoAck k ++ [⟨0x09, 8, { tctx := c.val, first := true, last := true, tag := k.tag, status := 4 }, none⟩])) ∧
    (∀ e, PacketIn p 0x07 k s → s.session c = some e → e.port = p.val →
      (e.ended = false → e.spent + k.bytes ≤ e.granted →
        Completes (.cfgData p k) s (fun s' => s'.tiles = s.tiles ∧ s'.ctxs = s.ctxs ∧ s'.mem = (vc0Wake s).mem ∧
          s'.session c = some { e with
            spent := e.spent + k.bytes
            consumed := consumedBy s c e k.bytes
            granted := grantedFor e (consumedBy s c e k.bytes) } ∧
          s'.pour c = { s.pour c with inb := (s.pour c).inb ++ k.payload, lastByteAt := s.time } ∧
          (∀ j, j ≠ c.val → s'.pour j = s.pour j) ∧
          (s'.port p).outq = (s.port p).outq ++ brokenAck p s ++
            (if e.granted < grantedFor e (consumedBy s c e k.bytes) then
              [⟨0x09, 8, { tctx := c.val, first := true, last := true,
                           extra := grantedFor e (consumedBy s c e k.bytes) % 2 ^ 32 }, none⟩] else []))) ∧
      (e.ended = true → e.spent + k.bytes ≤ e.granted →
        Completes (.cfgData p k) s (fun s' => s'.tiles = s.tiles ∧ s'.ctxs = s.ctxs ∧ s'.mem = (vc0Wake s).mem ∧
          s'.session c = some { e with spent := e.spent + k.bytes } ∧ ∀ j, s'.pour j = s.pour j)) ∧
      (e.granted < e.spent + k.bytes →
        Completes (.cfgData p k) s (fun s' => s'.tiles = s.tiles ∧ s'.mem = (vc0Wake s).mem ∧ s'.session c = none ∧
          bit (s'.hdr (pgLnm p)).err Err.lnmProto.bit = true))) ∧
    (∀ e, PacketIn p 0x08 k s → s.session c = some e → e.port = p.val →
      Completes (.cfgClose p k) s (fun s' => s'.tiles = s.tiles ∧ s'.mem = (vc0Wake s).mem ∧ s'.session c = none ∧
        ((s.pour c).st = .pouring → s'.pour c = {} ∧ bit (s'.hdr pgCfg).err Err.castAborted.bit = true) ∧
        ((s.pour c).st ≠ .pouring → s'.pour c = { s.pour c with inb := [] })))

namespace Sys2Proof

/-- The contexts whose turn it may be at a port, and the one that has it (R438). -/
def turnOf (s : State) (p : Nat) : Option Nat :=
  after (s.port p).rrCtx ((List.range 8).filter (s.portTurn p))

/-- Packet k has entered the network where its sender stands. -/
def PacketSent (k : Packet) (s s' : State) : Prop :=
  s'.routers = (enqueue (entryPoint k.msg).1 (entryPoint k.msg).2 [k] s).routers

/-- The message a port makes of a window write, and the descriptor message of a tier write (R438, R440). -/
def windowMsg (s : State) (p c : Nat) (w : InWrite) : Msg :=
  { op := 0x01, src := lnmUnit p, dest := tgtTid w.target, sctx := c, priv := true, tctx := c,
    w1 := winW1 (tgtWin w.target) (tgtOff w.target) w.bytes.length, tag := (s.port p).nextTag, payload := w.bytes }

def tierMsg (s : State) (p c k : Nat) (w : InWrite) : Msg :=
  { op := 0x01, src := lnmUnit p, dest := movUnit k, sctx := c, priv := true, tctx := c, w1 := winW1 0 0 64,
    tag := (s.port p).nextTag, payload := storeDesc (fld w.target 0 48) (pad64 w.bytes).length }

/-- Message m of context c has begun: its write has left the queue or the hold buffer, its bytes are counted, it is kept
until it is answered, and the first of its packets has entered the network (R333, R436, R438). -/
def Began (p c : Nat) (w : InWrite) (hold : Bool) (m : Msg) (s s' : State) : Prop :=
  s' = { s with lnm := s'.lnm, ctxs := s'.ctxs, routers := s'.routers } ∧
  (s'.port p).rrCtx = c ∧ (s'.port p).cur.get c [] = (packets m).tail ∧
  (∀ k, (packets m).head? = some k → PacketSent k s s') ∧
  (s'.port p).ctxq.get c [] = (if hold then (s.port p).ctxq.get c [] else ((s.port p).ctxq.get c []).tail) ∧
  (s'.port p).holdq.get c [] = (if hold then ((s.port p).holdq.get c []).tail else (s.port p).holdq.get c []) ∧
  (s'.port p).issued.length = (s.port p).issued.length + 1 ∧
  (s'.ctx c).acct.get (3 + p) 0 = (s.ctx c).acct.get (3 + p) 0 + w.bytes.length ∧
  ∀ q, q ≠ p → s'.port q = s.port q

/-- The contexts take turns, one message packet at a time: the next packet of a message goes on, or the next message of
the context begins, as a WRITE to its window or as a STORE to its mover with the port's TAG; a write whose grant has
gone is refused; and one answered FROZEN goes out again after 1 µs (R436, R438, R440). -/
def PortEnginesIssueWrites : Prop :=
  ∀ (p : Fin 8) (s : State),
    (∀ c, s.stop.fatal = false → turnOf s p = some c →
      (∀ k ks, (s.port p).cur.get c [] = k :: ks →
        Completes (.ingressIssue p) s (fun s' => s' = { s with lnm := s'.lnm, routers := s'.routers } ∧
          PacketSent k s s' ∧ (s'.port p).cur.get c [] = ks ∧ (s'.port p).rrCtx = c ∧
          (s'.port p).issued = (s.port p).issued ∧ (s'.port p).ctxq = (s.port p).ctxq ∧
          ∀ q, q ≠ p.val → s'.port q = s.port q)) ∧
      (∀ w hold, (s.port p).cur.get c [] = [] → s.nextWrite p c = some (w, hold) → w.tctx = c →
        (w.tier = false → s.grantCovers p c w.target = true →
          Completes (.ingressIssue p) s (Began p c w hold (windowMsg s p c w) s)) ∧
        (∀ k, w.tier = true → moverOf (fld w.target 0 48) = some k →
          Completes (.ingressIssue p) s (Began p c w hold (tierMsg s p c k w) s)) ∧
        (w.tier = false → s.grantCovers p c w.target = false →
          Completes (.ingressIssue p) s (fun s' => s'.tiles = s.tiles ∧ s'.mem = s.mem ∧ s'.ctxs = s.ctxs ∧
            s'.routers = s.routers ∧ (s'.port p).issued = (s.port p).issued ∧
            bit (s'.hdr (pgLnm p)).err Err.lnmRefused.bit = true)))) ∧
    ((s.stop.fatal = true ∨ turnOf s p = none) → Completes (.ingressIssue p) s (· = s)) ∧
    (∀ i, (s.port p).issued.find? (fun i => match i.frozenAt with
        | some t => decide (t + 1000 ≤ s.time)
        | none => false) = some i →
      Completes (.ingressFrozenResend p) s (fun s' => s' = { s with lnm := s'.lnm } ∧
        (s'.port p).cur.get i.msg.sctx [] = (s.port p).cur.get i.msg.sctx [] ++ packets i.msg ∧
        (s'.port p).issued.length = (s.port p).issued.length ∧
        ∀ q, q ≠ p.val → s'.port q = s.port q))

/-- What a message to an egress window leaves alone beside RimFrame, and its place in the inbox. -/
def EgressFrame (p : Nat) (rest : List InMsg) (s s' : State) : Prop :=
  RimFrame s s' ∧ s'.inbox.get (lnmUnit p) [] = rest ∧ s'.mem = s.mem

/-- The bytes of the message count for the window's context (R333). -/
def EgressCounted (p c n : Nat) (s s' : State) : Prop :=
  (s'.ctx c).acct.get (3 + p) 0 = (s.ctx c).acct.get (3 + p) 0 + n

/-- A tile's write to an egress window that admits it becomes packets at an UP port; while no link takes it, it is held
or dropped with its acknowledgement, as the window says; one that the window does not admit is refused, and one out of
place or with a bad payload takes no effect (R215, R216, R442, R448). -/
def EgressWritesBecomePackets : Prop :=
  ∀ (p : Fin 8) (s : State),
    (∀ (m : Msg) (rest : List InMsg) (w : Word), RimReady (lnmUnit p) (fun m => m.op == 0x01) m rest s →
      s.devReg (pgLnm p) (0x200 + 16 * m.win) = w →
      (egressOk w m = true → (s.port p).takes = true →
        Completes (.egressWrite p) s (fun s' => EgressFrame p rest s s' ∧ s'.routers = s.routers ∧
          (∀ q, q ≠ p.val → s'.port q = s.port q) ∧ EgressCounted p (fld w 1 3) m.mlen s s' ∧
          s'.port p = { s.port p with outq := (s.port p).outq ++ (egressPkts s p m).map (fun k =>
            ⟨0x01, fld w 1 3, k, if k.last = true then some m else none⟩) })) ∧
      (egressOk w m = true → (s.port p).takes = false → bit w 5 = true →
        Completes (.egressWrite p) s (fun s' => EgressFrame p rest s s' ∧ s'.routers = s.routers ∧
          (∀ q, q ≠ p.val → s'.port q = s.port q) ∧ EgressCounted p (fld w 1 3) m.mlen s s' ∧
          s'.port p = { s.port p with held := (s.port p).held ++ [m] })) ∧
      (egressOk w m = true → (s.port p).takes = false → bit w 5 = false → s.unitExists m.src = true →
        Completes (.egressWrite p) s (fun s' => EgressFrame p rest s s' ∧ s'.lnm = s.lnm ∧
          Sent (answer m 0x04 0 0) s')) ∧
      (egressOk w m = false → s.unitExists m.src = true →
        Completes (.egressWrite p) s (fun s' => EgressFrame p rest s s' ∧
          bit (s'.hdr (pgLnm p)).err Err.lnmEgress.bit = true ∧ Sent (answer m 0x04 6 0) s'))) ∧
    (∀ im rest e, RimHolds (lnmUnit p) (fun m => m.op == 0x01) im rest s → msgFault im = some e →
      s.unitExists im.msg.src = true →
      Completes (.egressWrite p) s (fun s' => EgressFrame p rest s s' ∧ Sent (answer im.msg 0x04 6 0) s'))

/-- A packet that leaves a port: it takes the next SEQ, spends credit, is kept for replay and stands in blocks on the line
(R431, R433, R434, R443). -/
def Left (p k : Nat) (o : OutPkt) (s s' : State) : Prop :=
  (∀ q, q ≠ p → s'.port q = s.port q) ∧ s'.tiles = s.tiles ∧ s'.mem = s.mem ∧ s'.ctxs = s.ctxs ∧
  (s'.port p).replay = (s.port p).replay ++ [((s.port p).txSeq, o)] ∧
  (s'.port p).line = (s.port p).line ++ pktLine o.typ (s.port p).txSeq o.pk ∧
  (s'.port p).txSeq = ((s.port p).txSeq + 1) % 2 ^ 32 ∧ (s'.port p).rrSrc = k ∧
  (s'.port p).used0 = (s.port p).used0 + (if vcOf o.typ = 0 then pktBlocks o.pk else 0) ∧
  (s'.port p).rxSeq = (s.port p).rxSeq

/-- LNM_TRANSMIT: the source whose turn it is sends a packet, which acknowledges the tile's message that it ends; events
go in their order; a replay goes on from its place with the SEQ each packet had, and its eighth run ends the link (R427,
R433, R442, R443, R445). -/
def PortsTransmit : Prop :=
  ∀ (p : Fin 8) (q : LnmPort) (s : State), s.port p = q → q.st = .up →
    (∀ k o, q.replayPos = none →
      after q.rrSrc ((List.range 9).filter (fun k => match s.sourcePkt p k with
        | some (o, _) => q.maySend o
        | none => false)) = some k →
      (∀ i, s.sourcePkt p k = some (o, .inl i) → (∀ m, o.ackOf = some m → s.unitExists m.src = true) →
        Completes (.lnmTransmit p) s (fun s' => Left p k o s s' ∧ (s'.port p).outq = q.outq.eraseIdx i ∧
          (s'.port p).evq = q.evq ∧ (o.ackOf = none → s'.routers = s.routers) ∧
          (∀ m, o.ackOf = some m → m.op = 0x01 → Sent (answer m 0x04 0 0) s'))) ∧
      (∀ n, s.sourcePkt p k = some (o, .inr n) → o.ackOf = none →
        Completes (.lnmTransmit p) s (fun s' => Left p k o s s' ∧ (s'.port p).evq = q.evq.drop n ∧
          (s'.port p).outq = q.outq))) ∧
    (∀ i n o, q.replayPos = some i → q.replay[i]? = some (n, o) →
      (¬ (n = q.replaySeq ∧ 8 ≤ q.replays) →
        Completes (.lnmTransmit p) s (fun s' => s'.tiles = s.tiles ∧ s'.mem = s.mem ∧
          (s'.port p).line = q.line ++ pktLine o.typ n o.pk ∧ (s'.port p).replay = q.replay ∧
          (s'.port p).txSeq = q.txSeq ∧
          (s'.port p).replayPos = (if i + 1 < q.replay.length then some (i + 1) else none))) ∧
      (n = q.replaySeq → 8 ≤ q.replays → Completes (.lnmTransmit p) s (fun s' => LinkGone p 5 .down s s')))

end Sys2Proof

/-- EGRESS_WRITE, EGRESS_WINDOW_WRITE and LNM_TRANSMIT: a tile's writes become packets, a window's configuration is
stored when it may stand (R451), and packets leave. -/
def Obligations.PortsSendForTheTiles : Prop :=
  EgressWritesBecomePackets ∧ PortsTransmit ∧
  ∀ (p : Fin 8) (s : State),
    ∀ (i : Fin 16) (v : Word), s.mgt.boot = 2 →
      Completes (.egressWindowWrite p i true v) s (fun s' =>
        Acted (s.setDevReg (pgLnm p) (0x208 + 16 * i.val) v) s') ∧
      ((bit v 0 = false ∨ egressSetupOk v (s.devReg (pgLnm p) (0x208 + 16 * i.val)) = true) →
        Completes (.egressWindowWrite p i false v) s (fun s' =>
          Acted (s.setDevReg (pgLnm p) (0x200 + 16 * i.val) (setFld v 23 41 0)) s')) ∧
      (bit v 0 = true → egressSetupOk v (s.devReg (pgLnm p) (0x208 + 16 * i.val)) = false →
        Completes (.egressWindowWrite p i false v) s (fun s' => Acted s s' ∧
          bit (s'.hdr (pgLnm p)).err Err.lnmSetup.bit = true))

/-- HELLO, HELLO_SEND, SUPERFRAME, CONTROL_BLOCK and PACKET_DROP: hello records bring a link up and control blocks keep
it. What a HELLO with SEQ 0 does before the link is UP is the model's choice (log 111). -/
def Obligations.LinksComeUpAndAreKept : Prop :=
  HelloRecordsBringTheLinkUp ∧ ControlBlocksKeepTheLink

/-- LNM_WRITE, LNM_TIER_WRITE, WACK, HELLO on an UP link, INGRESS_ISSUE and INGRESS_FROZEN_RESEND: a partner's writes join their queue, and
the port engines issue them. -/
def Obligations.PartnerWritesArriveAndIssue : Prop :=
  WritesJoinTheirContextsQueue ∧ PortEnginesIssueWrites

namespace Sys2Proof

/-! ### Power (chapter 15) -/

/-- Half h takes the values x, and nothing else of the device changes. -/
def HalfIs (h : Nat) (x : Half) (s s' : State) : Prop :=
  s' = { s with pwr := { s.pwr with halves := s'.pwr.halves } } ∧ s'.half h = x ∧
  ∀ k, k ≠ h → s'.half k = s.half k

/-- Half h runs at f from now on: its tiles that are not OFF have the period ⌈65,536,000 / f⌉ · 2^-16 ns
(R454, R456), every other half and tile is as before. -/
def RunsAt (h f : Nat) (s s' : State) : Prop :=
  (s'.half h).freq = f ∧ (∀ k, k ≠ h → (s'.half k).freq = (s.half k).freq) ∧
  (∀ t, halfOf t = h → (s.tile t).clk.pstate ≠ .off → (s'.tile t).clk.per = (65536000 + f - 1) / f) ∧
  (∀ t, halfOf t ≠ h → s'.tile t = s.tile t)

/-- The loops never report more than a conflict of bounds: memory, contexts and the board stay. -/
def PowerFrame (s s' : State) : Prop :=
  s'.ctxs = s.ctxs ∧ s'.mem = s.mem ∧ s'.brd = s.brd ∧ s'.mgt = s.mgt ∧ s'.time = s.time ∧ s'.pending = s.pending

/-- The period of a tile's clock: P of the tile where it is not OFF, else that of its half's F or, with the rail off, of
400 MHz (R454, R460). -/
def ClockOf (t : Nat) (s : State) : Prop :=
  s.perNow t = if (s.tile t).clk.pstate ≠ .off then (s.tile t).clk.per
    else if (s.half (halfOf t)).on = true then (65536000 + (s.half (halfOf t)).freq - 1) / (s.half (halfOf t)).freq
    else 163840

/-- A calibration window longer than 64 periods of the tile raises CLK_GUARD, and any other changes
nothing (R455). -/
def GuardsTheClock : Prop :=
  ∀ (t : Nat) (len : Nat) (s : State), s.present t = true → ClockOf t s ∧
    (64 * s.perNow t < len → Completes (.calibrationWindow t len) s
      (fun s' => Kept s s' ∧ bit (s'.hdr (pgTile t 0)).err Err.clkGuard.bit = true)) ∧
    (len ≤ 64 * s.perNow t → Completes (.calibrationWindow t len) s (· = s))

/-- The frequency loop moves F of a half one step of 25 MHz towards what floor, ceiling, cap and thermal
loop allow (R456, R471); a floor above the ceiling is told once (R458), and an override suspends it
(R472). -/
def FrequencyFollows : Prop :=
  ∀ (h : Fin 40) (s : State), (s.half h).on = true →
    (s.overridden h = false → s.floorOf h ≤ s.ceilOf h →
      ((s.half h).freq < s.wantF h → Completes (.frequencyLoop h) s (fun s' => PowerFrame s s' ∧
        RunsAt h (min (s.wantF h) ((s.half h).freq + 25)) s s')) ∧
      (s.wantF h < (s.half h).freq → Completes (.frequencyLoop h) s (fun s' => PowerFrame s s' ∧
        RunsAt h (max (s.wantF h) ((s.half h).freq - 25)) s s')) ∧
      ((s.half h).freq = s.wantF h → Completes (.frequencyLoop h) s
        (HalfIs h { s.half h with floorTold := false } s))) ∧
    (s.overridden h = true → s.floorOf h ≤ s.ceilOf h → Completes (.frequencyLoop h) s
      (HalfIs h { s.half h with floorTold := false } s)) ∧
    (s.ceilOf h < s.floorOf h → (s.half h).floorTold = false → Completes (.frequencyLoop h) s (fun s' =>
      PowerFrame s s' ∧ bit (s'.hdr pgPwr).err Err.boundConflict.bit = true ∧ (s'.half h).floorTold = true))

/-- Every half keeps its F, and every tile. -/
def SameF (s s' : State) : Prop := s'.tiles = s.tiles ∧ ∀ k, (s'.half k).freq = (s.half k).freq

/-- The power cap loop lowers the cap of one half by 25 MHz while the average is above the limit, and
or the average current above 110 A, and raises the lowest again when neither is; a limit that has been missed for 1 ms is
a conflict of bounds, each of the two for itself, and one that is met starts anew (R471, R536). -/
def CapFollows : Prop :=
  ∀ (m : PowerSample) (s : State),
    (∀ h, s.capMissed m = true → (s.overCap m = true → s.pwr.capFrom = none) →
      (1100 < m.iavg → s.pwr.ampFrom = none) → s.capPick = some h →
      Completes (.powerCapLoop m) s (fun s' => PowerFrame s s' ∧ SameF s s' ∧ s'.hdrs = s.hdrs ∧
        s'.pwr.capFrom = (if s.overCap m = true then some s.time else none) ∧
        s'.pwr.ampFrom = (if 1100 < m.iavg then some s.time else none) ∧
        (s'.half h).capF = max (s.floorOf h) ((s.half h).freq - 25) ∧
        ∀ k, k ≠ h → (s'.half k).capF = (s.half k).capF)) ∧
    (∀ f, s.overCap m = true → s.pwr.capFrom = some f → f + 1000000 ≤ s.time → s.pwr.capTold = false →
      Completes (.powerCapLoop m) s (fun s' => PowerFrame s s' ∧ SameF s s' ∧
        bit (s'.hdr pgPwr).err Err.boundConflict.bit = true ∧ s'.pwr.capTold = true ∧ s'.pwr.capFrom = some f)) ∧
    (∀ f, 1100 < m.iavg → s.pwr.ampFrom = some f → f + 1000000 ≤ s.time → s.pwr.ampTold = false →
      Completes (.powerCapLoop m) s (fun s' => PowerFrame s s' ∧ SameF s s' ∧
        bit (s'.hdr pgPwr).err Err.boundConflict.bit = true ∧ s'.pwr.ampTold = true ∧ s'.pwr.ampFrom = some f)) ∧
    ((s.overCap m = true → ∃ f, s.pwr.capFrom = some f ∧ s.time < f + 1000000) →
      (1100 < m.iavg → ∃ f, s.pwr.ampFrom = some f ∧ s.time < f + 1000000) →
      Completes (.powerCapLoop m) s (fun s' => PowerFrame s s' ∧ SameF s s' ∧ s'.hdrs = s.hdrs ∧
        s'.pwr.capFrom = (if s.overCap m = true then s.pwr.capFrom else none) ∧
        s'.pwr.ampFrom = if 1100 < m.iavg then s.pwr.ampFrom else none)) ∧
    (∀ h, s.capMissed m = false → s.capRaise = some h →
      Completes (.powerCapLoop m) s (fun s' => PowerFrame s s' ∧ SameF s s' ∧ s'.hdrs = s.hdrs ∧
        s'.pwr.capFrom = none ∧ s'.pwr.ampFrom = none ∧ (s'.half h).capF = (s.half h).capF + 25 ∧
        ∀ k, k ≠ h → (s'.half k).capF = (s.half k).capF))

/-- The thermal loop lowers F of a half from its target on and raises it below (R471). -/
def HeatFollows : Prop :=
  ∀ (h : Fin 40) (temp : Nat) (s : State),
    (temp < s.target → Completes (.thermalLoop h temp) s (HalfIs h
      { s.half h with tj := temp, thF := min 700 ((s.half h).thF + 25), missFrom := none, missTold := false } s)) ∧
    (s.target ≤ temp → s.floorOf h < (s.half h).freq → Completes (.thermalLoop h temp) s (HalfIs h
      { s.half h with tj := temp, thF := max (s.floorOf h) (min (s.half h).thF ((s.half h).freq - 25))
                      missFrom := none, missTold := false } s)) ∧
    (∀ f, s.target < temp → (s.half h).on = true → (s.half h).freq ≤ s.floorOf h →
      (s.half h).missFrom = some f → f + 1000000 ≤ s.time → (s.half h).missTold = false →
      Completes (.thermalLoop h temp) s (fun s' => PowerFrame s s' ∧ SameF s s' ∧
        bit (s'.hdr pgPwr).err Err.boundConflict.bit = true ∧ (s'.half h).missTold = true))

/-- The loops of the power manager and the clock guard (R454 to R458, R471, R536). -/
def PowerLoopsFollowTheirTargets : Prop :=
  GuardsTheClock ∧ FrequencyFollows ∧ CapFollows ∧ HeatFollows

/-- PWR_OVERRIDE stands in the page header. -/
def OverrideTold (s' : State) : Prop := bit (s'.hdr pgPwr).err Err.pwrOverride.bit = true

end Sys2Proof

/-- JUNCTION_OVERRIDE, CURRENT_OVERRIDE, VOLTAGE_OVERRIDE and OVERRIDE_STEP, the safety overrides: a junction at 95 °C takes its half, 100 µs above 115 A and 10 µs outside 35 to
45 V every half, F falling to 100 MHz in steps of 25 MHz, one every 10 µs or, for the voltage, one with each
OVERRIDE_STEP (R456; that the first comes with VOLTAGE_OVERRIDE is the model's choice, log 72); it rises 25 MHz every
100 µs when the cause is gone, until the override ends (R472). -/
def Obligations.OverridesLowerAndReturn : Prop :=
  ∀ (h : Fin 40) (temp : Nat) (m : PowerSample) (s : State), (s.half h).on = true →
    (950 ≤ temp → (s.half h).hot = 0 → Completes (.junctionOverride h temp) s (fun s' => PowerFrame s s' ∧
      s'.half h = { s.half h with tj := temp, hot := 1, stepAt := s.time } ∧
      (∀ k, k ≠ h.val → s'.half k = s.half k) ∧ s'.tiles = s.tiles ∧ OverrideTold s')) ∧
    (temp < 950 → Completes (.junctionOverride h temp) s (HalfIs h { s.half h with tj := temp } s)) ∧
    (∀ f, 1150 < m.iin → s.pwr.curFrom = some f → f + 100000 ≤ s.time → s.pwr.cur = 0 →
      Completes (.currentOverride m) s (fun s' => PowerFrame s s' ∧ SameF s s' ∧ s'.pwr.cur = 1 ∧
        OverrideTold s')) ∧
    (m.iin ≤ 1150 → Completes (.currentOverride m) s (fun s' => s' = { s with pwr := s'.pwr } ∧ SameF s s' ∧
      s'.pwr.cur = s.pwr.cur ∧ s'.pwr.curFrom = none)) ∧
    (∀ f, (m.vin < 3500 ∨ 4500 < m.vin) → s.pwr.vltFrom = some f → f + 10000 ≤ s.time → s.pwr.vlt = 0 →
      Completes (.voltageOverride m) s (fun s' => PowerFrame s s' ∧ s'.pwr.vlt = 1 ∧ OverrideTold s' ∧
        (∀ k, k < 40 → (s.half k).on = true → (s'.half k).freq = max 100 ((s.half k).freq - 25)) ∧
        (∀ t, s.present t = true → (s.half (halfOf t)).on = true → (s.tile t).clk.pstate ≠ .off →
          (s'.tile t).clk.per = (65536000 + max 100 ((s.half (halfOf t)).freq - 25) - 1) /
            max 100 ((s.half (halfOf t)).freq - 25)))) ∧
    (s.pwr.vlt = 1 → (m.vin < 3600 ∨ 4400 < m.vin) →
      Completes (.overrideStep h temp m) s (fun s' => PowerFrame s s' ∧
        RunsAt h (max 100 ((s.half h).freq - 25)) s s' ∧ s'.pwr.vlt = 1)) ∧
    (s.pwr.cur = 0 → s.pwr.vlt = 0 → (s.half h).hot = 1 → 930 < temp → (s.half h).stepAt + 10000 ≤ s.time →
      Completes (.overrideStep h temp m) s (fun s' => PowerFrame s s' ∧
        RunsAt h (max 100 ((s.half h).freq - 25)) s s' ∧ (s'.half h).hot = 1 ∧ (s'.half h).stepAt = s.time)) ∧
    (s.pwr.cur = 0 → s.pwr.vlt = 0 → (s.half h).hot = 2 → temp ≤ 930 → (s.half h).stepAt + 100000 ≤ s.time →
      (s.half h).freq < s.wantF h →
      Completes (.overrideStep h temp m) s (fun s' => PowerFrame s s' ∧
        RunsAt h (min (s.wantF h) ((s.half h).freq + 25)) s s' ∧
        (s'.half h).hot = if (s.half h).freq + 25 < s.wantF h then 2 else 0))

namespace Sys2Proof

/-- THERM_TRIP at 105 °C of any junction, that of a compute half (0 to 39), of an edge or the management die (40 to 44) or
of an HBM stack (45 to 64), and VIN_FAULT below 33 V or above 47 V are FATAL: the device stops; any other sample is noted
(R362, R472). -/
def TripsStopTheDevice : Prop :=
  ∀ (j : Fin 65) (temp : Nat) (m : PowerSample) (s : State), s.stop.fatal = false →
    (1050 ≤ temp → Completes (.thermTrip j temp) s (fun s' => DeviceStopped s' ∧
      bit (s'.hdr pgPwr).err Err.thermTrip.bit = true ∧ (j.val < 40 → (s'.half j).tj = temp) ∧
      (j.val < 45 → s'.mem = s.mem))) ∧
    (temp < 1050 → j.val < 40 → Completes (.thermTrip j temp) s (HalfIs j { s.half j with tj := temp } s)) ∧
    (temp < 1050 → 40 ≤ j.val → j.val < 45 → Completes (.thermTrip j temp) s (· = s)) ∧
    (temp < 1050 → 45 ≤ j.val → Completes (.thermTrip j temp) s
      (· = setHbm (j.val - 45) { s.hbm (j.val - 45) with temp := temp / 10 } s)) ∧
    ((m.vin < 3300 ∨ 4700 < m.vin) → Completes (.vinFault m) s (fun s' => DeviceStopped s' ∧
      bit (s'.hdr pgPwr).err Err.vinFault.bit = true ∧ s'.pwr.vin = m.vin ∧ s'.mem = s.mem)) ∧
    (3300 ≤ m.vin → m.vin ≤ 4700 → Completes (.vinFault m) s (fun s' => s' = { s with pwr := s'.pwr } ∧
      SameF s s' ∧ s'.pwr.vin = m.vin))

/-- `PWR_HALFCFGh` holds legal bounds (R458). -/
def BoundsOk (v : Word) : Prop :=
  fld v 0 10 % 25 = 0 ∧ 100 ≤ fld v 0 10 ∧ fld v 0 10 ≤ fld v 10 10 ∧ fld v 10 10 % 25 = 0 ∧ fld v 10 10 ≤ 700

/-- A half whose rail goes off loses every tile; one that a context keeps on is refused; a half that
comes on starts at its floor with its tiles in OFF (R461). -/
def HalvesPowerOffAndOn : Prop :=
  ∀ (h : Fin 40) (s : State), s.mgt.boot = 2 → BoundsOk (s.halfCfg h) →
    ((s.half h).on = true → s.halfRefuser h = none → Completes (.halfPowerOff h) s (fun s' =>
      (s'.half h).on = false ∧ (s'.half h).freq = 0 ∧ bit (s'.halfCfg h) 52 = false ∧
      (∀ k, k ≠ h.val → s'.half k = s.half k) ∧ (∀ t, halfOf t = h.val → s'.tile t = Tile.cold) ∧
      (∀ t, halfOf t ≠ h.val → s'.tile t = s.tile t) ∧ s'.ctxs = s.ctxs ∧ s'.mem = s.mem)) ∧
    (∀ id, (s.half h).on = true → s.halfRefuser h = some id → Completes (.halfPowerOff h) s (fun s' =>
      s'.half h = { s.half h with offReq := true } ∧ s'.tiles = s.tiles ∧
      bit (s'.hdr pgPwr).err Err.pwrRefused.bit = true ∧ s'.ctxs = s.ctxs ∧ s'.mem = s.mem)) ∧
    ((s.half h).on = false → Completes (.halfPowerOn h) s (fun s' =>
      s'.half h = { s.half h with on := true, offReq := false, freq := if s.pwr.vlt = 1 then 100 else s.floorOf h } ∧
      bit (s'.halfCfg h) 52 = true ∧ (∀ k, k ≠ h.val → s'.half k = s.half k) ∧ s'.tiles = s.tiles ∧
      s'.ctxs = s.ctxs ∧ s'.mem = s.mem))

end Sys2Proof

/-- TILE_IDLE_ENTRY, TILE_NAP_ENTRY, NAP_COMMIT and TILE_WAKE: a tile with nothing to do for IDLE_T cycles goes IDLE; idle for NAP_T · 1,024 cycles it enters the
check phase of NAP, unless its context's floor binds, and commits 16 cycles later; an arrival aborts the
entry (R462, R463, R465). It wakes from IDLE in 2 cycles, from NAP with 1,000 ns charged to every token
in its inputs (R464). -/
def Obligations.TilesSleepAndWake : Prop :=
  ∀ (t : Nat) (x : Tile) (s : State), s.present t = true → s.tile t = x →
    (x.clk.pstate = .active → s.idleTile t = true → fld (s.halfCfg (halfOf t)) 20 16 ≤ x.clk.idleCnt →
      Completes (.tileIdleEntry t) s (fun s' => OnlyTile t s s' ∧ s'.tile t =
        { x with clk := { x.clk with pstate := .idle, idleCnt := 0, napCnt := 0, refused := false } })) ∧
    (x.clk.pstate = .active → s.idleTile t = false → Completes (.tileIdleEntry t) s (· = s)) ∧
    (x.clk.pstate = .idle → x.clk.napCheck = false → fld (s.halfCfg (halfOf t)) 36 16 ≠ 0 →
      fld (s.halfCfg (halfOf t)) 36 16 * 1024 ≤ x.clk.napCnt → s.noNap t = false →
      Completes (.tileNapEntry t) s (fun s' => OnlyTile t s s' ∧ s'.tile t =
        { x with clk := { x.clk with napCheck := true, napAt := x.clk.napCnt } })) ∧
    (x.clk.pstate = .idle → x.clk.napCheck = false → fld (s.halfCfg (halfOf t)) 36 16 ≠ 0 →
      fld (s.halfCfg (halfOf t)) 36 16 * 1024 ≤ x.clk.napCnt → s.noNap t = true → x.clk.refused = false →
      Completes (.tileNapEntry t) s (fun s' =>
        s' = { s with tiles := s'.tiles, dev := s'.dev } ∧ (∀ u, u ≠ t → s'.tile u = s.tile u) ∧
        s'.tile t = { x with clk := { x.clk with refused := true } } ∧
        fld (s'.devReg pgPwr 0x160) 0 24 = min 0xFFFFFF (fld (s.devReg pgPwr 0x160) 0 24 + 1) ∧
        fld (s'.devReg pgPwr 0x160) 48 16 = (4096 + x.cfg.ctx) % 65536)) ∧
    (fld (s.halfCfg (halfOf t)) 36 16 = 0 ∨ (s.noNap t = true ∧ x.clk.refused = true) →
      Completes (.tileNapEntry t) s (· = s)) ∧
    (x.clk.pstate = .idle → x.clk.napCheck = true → s.arrival t = false → x.clk.napAt + 16 ≤ x.clk.napCnt →
      Completes (.napCommit t) s (fun s' => OnlyTile t s s' ∧ s'.tile t =
        { x with clk := { x.clk with pstate := .nap, napCheck := false } })) ∧
    (x.clk.pstate = .idle → x.clk.napCheck = true → s.arrival t = true →
      Completes (.napCommit t) s (fun s' => s' = { s with tiles := s'.tiles, dev := s'.dev } ∧
        (∀ u, u ≠ t → s'.tile u = s.tile u) ∧
        s'.tile t = { x with clk := { x.clk with napCheck := false, napCnt := 0 } } ∧
        fld (s'.devReg pgPwr 0x160) 24 24 = min 0xFFFFFF (fld (s.devReg pgPwr 0x160) 24 24 + 1))) ∧
    (x.clk.pstate = .idle → x.clk.napCheck = false → s.arrival t = true →
      Completes (.tileWake t) s (fun s' => OnlyTile t s s' ∧ s'.tile t =
        { x with clk := { x.clk with pstate := .active, cyc := x.clk.cyc + 2, idleCnt := 0, napCnt := 0 } })) ∧
    (s.arrival t = false → Completes (.tileWake t) s (· = s)) ∧
    (x.clk.pstate = .idle → x.clk.napCheck = true → s.arrival t = true →
      Completes (.tileWake t) s (fun s' => s' = { s with tiles := s'.tiles, dev := s'.dev } ∧
        (∀ u, u ≠ t → s'.tile u = s.tile u) ∧
        s'.tile t = { x with clk := { x.clk with napCheck := false, napCnt := 0 } })) ∧
    (x.clk.pstate = .nap → s.arrival t = true → Completes (.tileWake t) s (fun s' => OnlyTile t s s' ∧
      (s'.tile t).clk = { x.clk with pstate := .active, idleCnt := 0, napCnt := 0, napCheck := false } ∧
      s'.tile t = { x with clk := (s'.tile t).clk, fab := { x.fab with ports := (s'.tile t).fab.ports } } ∧
      (s'.tile t).fab.ports = x.fab.ports.map (fun (p, q) => (p, { q with
        fifo := q.fifo.map (fun k => { k with cands := k.cands.map (fun (b, c, w) => (b, c, w + 1000)) })
        queue := q.queue.map (fun k => { k with cands := k.cands.map (fun (b, c, w) => (b, c, w + 1000)) }) }))))

namespace Sys2Proof

/-- Every die has stopped and lost its state: what is left is the nightwatch's, the board's with the sampled straps, and
what the fuses, the retained store and the boot flash hold (R483, R529, R537, R538). -/
def DiesStopped (s s' : State) : Prop :=
  s' = { ({} : State) with
    pending := s.pending, time := s.time, freeCtr := s'.freeCtr, dev := [], pwr := s'.pwr, mgt := s'.mgt
    brd := s'.brd } ∧
  s'.mgt = { ({} : Mgt) with
    fuses := s.mgt.fuses, copyA := s.mgt.copyA, copyB := s.mgt.copyB, flash := s.mgt.flash
    flashNew := s.mgt.flashNew, certs := s.mgt.certs, fwData := s.mgt.fwData, challenges := s.mgt.challenges } ∧
  s'.brd = { ({} : Board) with
    v40 := s'.brd.v40, pwren := s'.brd.pwren, rstn := s'.brd.rstn, lostClk := s.brd.lostClk
    sbsel := s.brd.sbsel, sbaddr := s.brd.sbaddr }

/-- The device has booted and serves (R482): power-good, its key pair derived from the seed (R493), no context bound, no
tile out of OFF. -/
def Serves (s s' : State) : Prop :=
  s'.mgt.boot = 2 ∧ s'.mgt.idKey = idKeyOf s.mgt.fuses.seed ∧ s'.brd.pwrgd = true ∧ s'.brd.v40 = true ∧ s'.brd.pwren = true ∧ s'.brd.rstn = true ∧
  s'.tiles = [] ∧ (∀ c, (s'.ctx c).st = .free) ∧ s'.mgt.fuses = s.mgt.fuses ∧ s'.time = s.time ∧
  s'.pending = s.pending

/-- The image at the front of the boot flash keeps its format (R484). -/
def GoodImage (w : BootWorld) (s : State) : Prop :=
  s.mgt.flash = [] ∧ s.mgt.flashNew = [] ∧ imageOk (flashSpan w.image 0 64) = true

/-- Nothing has booted the device yet, and it is not in D-standby: step 2 of R482 is still to come. -/
def NotBooted (s : State) : Prop := s.mgt.boot = 0 ∧ s.pwr.dstate = 0

/-- The device has booted with every reference clock there (R533, R537). -/
def ServesNow (s s' : State) : Prop := Serves s s' ∧ s'.brd.lostClk = []

end Sys2Proof

/-- PWR_DIDLE, PWR_DSTANDBY, DIDLE_AUTO, DEVICE_STATE_COMMIT, PWR_D0, DEVICE_WAKE and COMPARATOR_FIRE: D-idle (1) and
D-standby (2) are asked for in D0 and refused by the first refuser of their list; the
entry commits and a wake latched meanwhile is replayed (R466 to R468). A wake event aborts an entry that
is still checked and ends D-idle, or boots the device from D-standby; a member whose self-refresh exit fails is no
longer usable (R410). -/
def Obligations.DeviceStatesAreEnteredAndLeft : Prop :=
  ∀ (w : BootWorld) (s : State),
    (s.mgt.boot = 2 → s.stop.fatal = false → s.pwr.dstate = 0 → s.pwr.entering = none → s.idleRefuser = none →
      Completes .pwrDidle s (fun s' => Acted { s with pwr := { s.pwr with entering := some { target := 1 } } } s') ∧
      (∀ f, bit (s.devReg pgPwr 0x108) 0 = true → s.pwr.didleFrom = some f →
        f + fld (s.devReg pgPwr 0x108) 1 16 * 1000000 ≤ s.time →
        Completes .didleAuto s (· = { s with pwr := { s.pwr with entering := some { target := 1 } } }))) ∧
    (s.mgt.boot = 2 → s.stop.fatal = false → s.pwr.dstate = 0 → s.pwr.entering = none → s.standbyRefuser = none →
      Completes .pwrDstandby s (fun s' => Acted { s with pwr := { s.pwr with entering := some { target := 2 } } } s')) ∧
    (s.mgt.boot = 2 → s.stop.fatal = true → s.pwr.entering = none →
      Completes .pwrDidle s (Acted s) ∧ Completes .pwrDstandby s (Acted s)) ∧
    (∀ id, s.mgt.boot = 2 → s.stop.fatal = false → s.pwr.dstate = 0 → s.pwr.entering = none → s.idleRefuser = some id →
      Completes .pwrDidle s (fun s' => s'.pwr = s.pwr ∧ s'.tiles = s.tiles ∧
        bit (s'.hdr pgPwr).err Err.pwrRefused.bit = true)) ∧
    (∀ id, s.mgt.boot = 2 → s.stop.fatal = false → s.pwr.dstate = 0 → s.pwr.entering = none → s.standbyRefuser = some id →
      Completes .pwrDstandby s (fun s' => s'.pwr = s.pwr ∧ s'.tiles = s.tiles ∧
        bit (s'.hdr pgPwr).err Err.pwrRefused.bit = true)) ∧
    (s.stop.fatal = false → s.pwr.entering = some { target := 1, commit := true } → Completes (.deviceStateCommit w) s
      (· = { s with pwr := { s.pwr with entering := none, dstate := 1 } })) ∧
    (s.stop.fatal = false → s.pwr.entering = some { target := 2, commit := true } → s.mgt.saving = none →
      Completes (.deviceStateCommit w) s (fun s' => s'.pwr.dstate = 2 ∧ s'.pwr.entering = none ∧
        s'.tiles = [] ∧ s'.ctxs = [] ∧ s'.mem = {} ∧ s'.pwr.nwNs = s.pwr.nwNs ∧
        s'.mgt.fuses = s.mgt.fuses ∧ s'.mgt.copyA = s.mgt.copyA ∧ s'.mgt.copyB = s.mgt.copyB ∧
        s'.brd.sbsel = s.brd.sbsel ∧ s'.brd.sbaddr = s.brd.sbaddr ∧ s'.brd.da = s.brd.da)) ∧
    (∀ e, s.pwr.entering = some e → (e.commit = false ∨ s.stop.fatal = true ∨ (e.target = 2 ∧ s.mgt.saving ≠ none)) →
      Completes (.deviceStateCommit w) s (· = s)) ∧
    (∀ l, l ≠ 0 → s.stop.fatal = false → s.pwr.entering = some { target := 1, commit := true, latched := l } →
      Completes (.deviceStateCommit w) s (fun s' => s'.pwr.dstate = 0 ∧ s'.pwr.entering = none ∧
        s'.tiles = s.tiles ∧ bit (s'.devReg pgPwr 0x120) 10 = true ∧
        (∀ i ∈ w.srFail, (i.val < 20 → s'.stackOn i = false) ∧ (20 ≤ i.val → s'.chanOn (i.val - 20) = false)))) ∧
    (∀ e, s.mgt.boot = 2 → s.pwr.entering = some e → e.commit = false →
      Completes .pwrD0 s (fun s' =>
        Acted (acctAbort (e.target + 1) { s with pwr := { s.pwr with entering := none } }) s')) ∧
    (∀ e, s.pwr.entering = some e → e.commit = true →
      Completes (.deviceWake 9 w) s (fun s' =>
        s' = { s with pwr := { s.pwr with entering := some { e with latched := e.latched ||| wakeBit 9 } }
                      dev := s'.dev, fresh := s'.fresh } ∧
        bit (s'.devReg pgPwr 0x120) 9 = true)) ∧
    (s.mgt.boot = 2 → s.stop.fatal = false → s.pwr.entering = none → s.pwr.dstate = 1 →
      Completes .pwrD0 s (fun s' => s'.pwr = { s.pwr with dstate := 0 } ∧ s'.tiles = s.tiles ∧
        bit (s'.devReg pgPwr 0x120) 9 = true ∧ (∀ l, (s'.cxl l).l1 = false) ∧
        ∀ n, n < 20 → (s.hbm n).trained = true → (s'.hbm n).sr = false)) ∧
    (∀ k : Fin 10, k.val < 8 → bit (s.devReg pgPwr 0x140) (8 + k.val) = true →
      bit (s.devReg pgPwr 0x120) k.val = true → s.stop.fatal = false → s.pwr.entering = none → s.pwr.dstate = 1 →
      Completes (.deviceWake k w) s (fun s' => s'.pwr = { s.pwr with dstate := 0 } ∧ s'.tiles = s.tiles ∧
        s'.dev = s.dev)) ∧
    (∀ k : Fin 10, k.val < 8 → bit (s.devReg pgPwr 0x140) (8 + k.val) = true →
      bit (s.devReg pgPwr 0x120) k.val = true → s.stop.fatal = false → s.pwr.entering = none → s.pwr.dstate = 2 →
      s.brd.v40 = true → s.brd.pwren = true → s.brd.rstn = true → GoodImage w s →
      Completes (.deviceWake k w) s (Serves s)) ∧
    (∀ (k : Fin 8) v, s.brd.v40 = true → bit (s.devReg pgPwr 0x140) k.val = true → s.cmpFires k v = true →
      bit (s.devReg pgPwr 0x140) (8 + k.val) = false →
      Completes (.comparatorFire k v w) s (fun s' => s' = { s with dev := s'.dev, fresh := s'.fresh, pwr := s'.pwr } ∧
        s'.pwr = { s.pwr with alarm0 := s.pwr.alarm0 || k == 6, alarm1 := s.pwr.alarm1 || k == 7 } ∧
        bit (s'.devReg pgPwr 0x120) k.val = true ∧
        ∀ pg off, rkey pg off ≠ rkey pgPwr 0x120 → s'.devReg pg off = s.devReg pg off)) ∧
    (∀ (k : Fin 8) v, bit (s.devReg pgPwr 0x140) k.val = false → Completes (.comparatorFire k v w) s (· = s))

/-- POWER_APPLIED, POWER_REMOVED, POWER_ENABLE, POWER_DISABLE, RESET_ASSERT and RESET_DEASSERT: 40 V starts the nightwatch from 0 and its loss ends it (R466, R474). With 40 V, PWREN high and RST_N high for 1 ms, in
whatever order they came, the device boots; the end of PWREN stops the dies, and so does RST_N low for 10 µs, while a low
of up to 1 µs has no effect (R482, R483, R531, R537 to R539). That the boot is one command, and that the two alarms stay
beside the nightwatch count, is the model's choice (logs 27 and 77). -/
def Obligations.PowerAndResetSequenceTheDevice : Prop :=
  ∀ (w : BootWorld) (s : State),
    (s.brd.v40 = false → (s.brd.pwren = false ∨ s.brd.rstn = false ∨ w.steady < 1000000) →
      Completes (.powerApplied w) s (fun s' => DiesStopped s s' ∧ s'.pwr = {} ∧
        s'.brd.v40 = true ∧ s'.brd.pwren = s.brd.pwren ∧ s'.brd.rstn = s.brd.rstn)) ∧
    (s.brd.v40 = false → s.brd.pwren = true → s.brd.rstn = true → 1000000 ≤ w.steady → GoodImage w s →
      Completes (.powerApplied w) s (ServesNow s)) ∧
    Completes .powerRemoved s (fun s' => DiesStopped s s' ∧ s'.pwr = {} ∧ s'.brd.v40 = false ∧
      s'.brd.pwren = s.brd.pwren ∧ s'.brd.rstn = s.brd.rstn) ∧
    ((s.brd.v40 = false ∨ s.brd.rstn = false ∨ w.steady < 1000000 ∨ s.mgt.boot ≠ 0) → Completes (.powerEnable w) s
      (· = { s with brd := { s.brd with pwren := true } })) ∧
    (s.brd.v40 = true → s.brd.rstn = true → 1000000 ≤ w.steady → NotBooted s → GoodImage w s →
      Completes (.powerEnable w) s (ServesNow s)) ∧
    (s.brd.v40 = true → s.brd.rstn = true → 1000000 ≤ w.steady → NotBooted s → s.mgt.flash = [] → s.mgt.flashNew = [] →
      imageOk (flashSpan w.image 0 64) = false → Completes (.powerEnable w) s (fun s' =>
        s'.mgt.boot = 3 ∧ s'.brd.pwrgd = false ∧ s'.tiles = [] ∧ s'.mgt.fuses = s.mgt.fuses)) ∧
    (s.brd.pwren = true → Completes .powerDisable s (fun s' => DiesStopped s s' ∧
      s'.pwr = { ({} : Power) with nwNs := s.pwr.nwNs, alarm0 := s.pwr.alarm0, alarm1 := s.pwr.alarm1 } ∧
      s'.brd.v40 = s.brd.v40 ∧ s'.brd.pwren = false ∧ s'.brd.rstn = s.brd.rstn)) ∧
    (∀ low, 10000 ≤ low → s.brd.pwren = true → Completes (.resetAssert low) s (fun s' => DiesStopped s s' ∧
      s'.pwr = { ({} : Power) with nwNs := s.pwr.nwNs, alarm0 := s.pwr.alarm0, alarm1 := s.pwr.alarm1 } ∧
      s'.brd.v40 = s.brd.v40 ∧ s'.brd.pwren = true ∧ s'.brd.rstn = false)) ∧
    (∀ low, 10000 ≤ low → s.brd.pwren = false → Completes (.resetAssert low) s
      (fun s' => s' = { s with brd := { s.brd with rstn := false }, freeCtr := s'.freeCtr })) ∧
    (∀ low, low ≤ 1000 → Completes (.resetAssert low) s (fun s' => s' = { s with freeCtr := s'.freeCtr })) ∧
    (s.brd.v40 = true → s.brd.pwren = true → s.brd.rstn = false → 1000000 ≤ w.steady → NotBooted s → GoodImage w s →
      Completes (.resetDeassert w) s (ServesNow s)) ∧
    ((s.brd.v40 = false ∨ s.brd.pwren = false ∨ w.steady < 1000000) → s.brd.rstn = false →
      Completes (.resetDeassert w) s
      (· = { s with brd := { s.brd with rstn := true } }))

/-- THERM_TRIP, VIN_FAULT and REFERENCE_CLOCK_LOST: trips and a lost memory clock stop the device, other lost clocks end their links. -/
def Obligations.TripsAndLostClocks : Prop :=
  TripsStopTheDevice ∧ LostReferenceClocks

/-- CALIBRATION_WINDOW, FREQUENCY_LOOP, POWER_CAP_LOOP, THERMAL_LOOP, HALF_POWER_OFF and HALF_POWER_ON: the power loops
follow their targets, and halves power off and on. That the cap moves one half a run and the thermal loop lowers F from
its target on, and the F at which a half comes on, are the model's choice (logs 71 and 73). -/
def Obligations.PowerFollowsLoopsAndRails : Prop :=
  PowerLoopsFollowTheirTargets ∧ HalvesPowerOffAndOn

namespace Sys2Proof

/-! ### Root of trust (chapter 16) -/

/-- Nothing of the chip's work changes: tiles, contexts, castings, memory, movers, gradients, power. -/
def WorkStands (s s' : State) : Prop :=
  s'.tiles = s.tiles ∧ s'.ctxs = s.ctxs ∧ s'.cast = s.cast ∧ s'.mem = s.mem ∧ s'.mov = s.mov ∧ s'.gx = s.gx ∧
  s'.pwr = s.pwr ∧ s'.time = s.time ∧ s'.pending = s.pending

/-- The generation number of the next image: one above the selected one's (R487); that of the first is 0, the model's
choice (log 79). -/
def nextGen (s : State) : Nat :=
  match s.mgt.selected with
  | some i => (i.gen + 1) % 2 ^ 32
  | none => 0

/-- A save takes the Kept fields as they stand, one asked for meanwhile follows it, and its end writes and
selects the copy that is not selected, or raises RET_SAVE_FAIL and keeps both (R487 to R489). That the first image has
GEN 0 and the first save writes copy B is the model's choice (log 79). -/
def SavesWriteTheOtherCopy : Prop :=
  ∀ s : State,
    (s.sideband = true → ∀ c ∈ [Instr.save, Instr.shutdown],
      (s.mgt.saving = none → Completes c s
        (· = { s with mgt := { s.mgt with saving := some (s.image (nextGen s)) } })) ∧
      (s.mgt.saving ≠ none → Completes c s (· = { s with mgt := { s.mgt with saveAgain := true } }))) ∧
    (∀ i, s.mgt.saving = some i → s.mgt.saveAgain = false →
      Completes (.saveComplete true) s (fun s' => s' = { s with mgt := s'.mgt } ∧ s'.mgt.saving = none ∧
        s'.mgt.selected = some i ∧ s'.mgt.selB = !s.mgt.selB ∧
        (if s.mgt.selB = true then s'.mgt.copyB = s.mgt.copyB else s'.mgt.copyA = s.mgt.copyA) ∧
        s'.mgt.saves = (s.mgt.saves + 1) % 2 ^ 32 ∧ s'.mgt.fuses = s.mgt.fuses) ∧
      Completes (.saveComplete false) s (fun s' => Reports { s with mgt := { s.mgt with saving := none } } s' ∧
        bit (s'.hdr pgMgt).err Err.retSaveFail.bit = true)) ∧
    (∀ i, s.mgt.saving = some i → s.mgt.saveAgain = true →
      Completes (.saveComplete true) s (fun s' => s'.mgt.saveAgain = false ∧
        s'.mgt.saving = some (s.image ((i.gen + 1) % 2 ^ 32)) ∧ s'.mgt.selected = some i))

/-- The operations of `FUS_PROG` with their KIND (R492). -/
def fuseCommands : List (Instr × Nat) :=
  [(.fuseKeySlot, 0), (.fuseRevoke, 1), (.fusePolicyBit, 2), (.fuseFieldRepair, 3), (.fuseDebugKeyHash, 4)]

/-- Every bit that is blown stays blown (R491). -/
def StaysBlown (f f' : Fuses) : Prop :=
  (∀ i, f.repairs.get i 0 &&& f'.repairs.get i 0 = f.repairs.get i 0) ∧
  (∀ i, f.keys.get i 0 &&& f'.keys.get i 0 = f.keys.get i 0) ∧ f.prog &&& f'.prog = f.prog ∧
  f.revoked &&& f'.revoked = f.revoked ∧ f.policy &&& f'.policy = f.policy ∧ f.dbgHash &&& f'.dbgHash = f.dbgHash

/-- A fuse operation starts as `FUS_PROGSEL` and `FUS_KEYDATA` select it, or is refused with FUS_REFUSED
and blows nothing; its end blows the selected bits, or some of them with FUS_PROG_FAIL, and no blown bit
is ever cleared (R491, R492). -/
def FusesAreProgrammed : Prop :=
  ∀ s : State,
    (s.sideband = true → s.mgt.fuseOp = none → ∀ e ∈ fuseCommands, s.fuseSel.kind = e.2 →
      (s.fuseRefused s.fuseSel = false → Completes e.1 s
        (· = { s with mgt := { s.mgt with fuseOp := some s.fuseSel, fuseResult := 0 } })) ∧
      (s.fuseRefused s.fuseSel = true → Completes e.1 s (fun s' =>
        Reports { s with mgt := { s.mgt with fuseResult := 2 } } s' ∧
        bit (s'.hdr pgFus).err Err.fusRefused.bit = true))) ∧
    (∀ o, s.mgt.fuseOp = some o →
      Completes (.fuseProgramDone true) s (fun s' =>
        s' = { s with mgt := { s.mgt with fuses := s'.mgt.fuses, fuseOp := none, fuseResult := 1 } } ∧
        StaysBlown s.mgt.fuses s'.mgt.fuses ∧
        (o.kind = 0 → s'.mgt.fuses.keys.get o.index 0 = s.mgt.fuses.keys.get o.index 0 ||| o.data ∧
          s'.mgt.fuses.prog = s.mgt.fuses.prog ||| BitVec.ofNat 8 (2 ^ o.index) ∧
          ∀ i, i ≠ o.index → s'.mgt.fuses.keys.get i 0 = s.mgt.fuses.keys.get i 0) ∧
        (o.kind = 1 → s'.mgt.fuses = { s.mgt.fuses with
          revoked := s.mgt.fuses.revoked ||| BitVec.ofNat 8 (2 ^ o.index) }) ∧
        (o.kind = 2 → s'.mgt.fuses = { s.mgt.fuses with
          policy := s.mgt.fuses.policy ||| BitVec.ofNat 8 (2 ^ o.index) }) ∧
        (o.kind = 4 → s'.mgt.fuses = { s.mgt.fuses with dbgHash := s.mgt.fuses.dbgHash ||| o.data })) ∧
      Completes (.fuseProgramDone false) s (fun s' => WorkStands s s' ∧
        bit (s'.hdr pgFus).err Err.fusProgFail.bit = true ∧ s'.mgt.fuseOp = none ∧ s'.mgt.fuseResult = 3 ∧
        StaysBlown s.mgt.fuses s'.mgt.fuses))

/-- The digest that `ATT_EXTDATA` holds, least significant byte first (R486, R503). -/
def extData (s : State) : List Byte :=
  (List.range 4).flatMap (fun w => leBytes 8 (s.devReg pgAtt (0x110 + 8 * w)).toNat)

/-- `ATT_EXTCMD` extends slots 12 to 15 only (R486). A request for a report takes the nonce of `ATT_NONCE`
and is busy until it is signed with the device's key; the report is then the one that waits on the register path, and the
next request starts (R493 to R496). Its sequence number, the count of reports signed before, is the model's choice
(log 82). -/
def MeasuresAndReports : Prop :=
  ∀ (v : Word) (s : State),
    (s.sideband = true → bit v 4 = true → 12 ≤ fld v 0 4 → Completes (.attExtend v) s (fun s' =>
      s' = { s with mgt := { s.mgt with slots := s'.mgt.slots } } ∧
      s'.mgt.slots.get (fld v 0 4) 0 =
        BitVec.ofNat 256 (leNat (sha256 (leBytes 32 (s.mgt.slots.get (fld v 0 4) 0).toNat ++ extData s))) ∧
      ∀ i, i ≠ fld v 0 4 → s'.mgt.slots.get i 0 = s.mgt.slots.get i 0)) ∧
    (s.sideband = true → bit v 4 = true → fld v 0 4 < 12 → Completes (.attExtend v) s (fun s' =>
      Reports s s' ∧ bit (s'.hdr pgAtt).err Err.attSlot.bit = true)) ∧
    (s.sideband = true → s.mgt.signing = none → s.mgt.attQ = [] → Completes .attestationRequest s (fun s' =>
      s' = { s with mgt := { s.mgt with signing := s'.mgt.signing, report := none } } ∧
      ∃ r, s'.mgt.signing = some r ∧ r.req.src = 8 ∧ r.seq = s.mgt.reportSeq ∧ r.sig = [] ∧
        r.req.nonce.toNat = (s.devReg pgAtt 0x140).toNat + 2 ^ 64 * ((s.devReg pgAtt 0x148).toNat +
          2 ^ 64 * ((s.devReg pgAtt 0x150).toNat + 2 ^ 64 * (s.devReg pgAtt 0x158).toNat)))) ∧
    (∀ r, s.sideband = true → s.mgt.signing = some r → r.req.src = 8 → Completes .attestationRequest s (fun s' =>
      Reports s s' ∧ bit (s'.hdr pgAtt).err Err.attBusy.bit = true)) ∧
    (∀ r, s.mgt.signing = some r → r.req.src = 8 → s.mgt.attQ = [] → Completes .reportSigned s (fun s' =>
      s' = { s with
        freeCtr := s'.freeCtr
        mgt := { s.mgt with
          signing := none, reportSeq := (s.mgt.reportSeq + 1) % 2 ^ 64, report := s'.mgt.report } } ∧
      ∃ (rnd : BitVec 128) (sg : List Byte), sg = s.mgt.idKey.sign rnd r.body ∧ sg.length = 17088 ∧
        s'.mgt.report = some { r with sig := sg })) ∧
    (∀ r q rest, s.mgt.signing = some r → s.mgt.attQ = q :: rest → Completes .reportSigned s (fun s' =>
      s'.mgt.attQ = rest ∧ (∃ x, s'.mgt.signing = some x ∧ x.req = q ∧
        x.seq = (s.mgt.reportSeq + 1) % 2 ^ 64) ∧ WorkStands s s'))

/-- A request of a partner: with a nonce it joins the queue, without payload the certificate chain goes
out, and while one is unanswered the next is REFUSED (R447, R494); that the chain goes out at once, ahead of a report that
is being signed, is the model's choice (log 82). A packet of VC0 also wakes the device from D-idle (R468). -/
def PartnersAskForReports : Prop :=
  ∀ (p : Fin 8) (k : LnmPkt) (s : State), PacketIn p 0x0A k s → (s.port p).asm = none →
    (k.payload.length = 32 → (s.port p).attBusy = false → s.mgt.signing = none → s.mgt.attQ = [] →
      Completes (.attReq p k) s (fun s' => WorkStands (woken 0x0A s) s' ∧ (s'.port p).attBusy = true ∧
        ∃ r, s'.mgt.signing = some r ∧ r.req.src = p.val ∧ r.req.tctx = k.tctx ∧ r.req.tag = k.tag)) ∧
    (k.payload = [] → (s.port p).attBusy = false → s.mgt.certs = [] →
      Completes (.certChainRequest p k) s (fun s' => s' = { woken 0x0A s with lnm := s'.lnm } ∧
        (∀ q, q ≠ p.val → s'.port q = s.port q) ∧ (s'.port p).attBusy = true ∧
        (s'.port p).outq = (s.port p).outq ++ [⟨0x0B, 8,
          { tctx := k.tctx, first := true, last := true, tag := k.tag }, none⟩])) ∧
    ((k.payload.length = 32 ∨ k.payload = []) → (s.port p).attBusy = true →
      Completes (.attReq p k) s (fun s' => s' = { woken 0x0A s with lnm := s'.lnm, stats := s'.stats } ∧
        (s'.port p).outq = (s.port p).outq ++ [⟨0x0B, 8,
          { tctx := k.tctx, first := true, last := true, tag := k.tag, status := 5 }, none⟩]))

/-- The instruction register holds i and TDO has shifted out `out`; EXTEST drives the contacts only while
it is loaded (R499). -/
def Shifted (i : Nat) (out : List Bool) (s : State) : State :=
  { s with mgt := { s.mgt with ir := i }, brd := { s.brd with tdo := out, extest := i == 3 } }

/-- The JTAG instructions that reach no register (R499, R500): BYPASS delays by one bit, IDCODE shifts out
0x1A250E4F and is the instruction that TRST_N leaves (R529), SAMPLE/PRELOAD and EXTEST shift out the levels of the contacts and hold new cells, DBGUNLOCK
unlocks the port with a key and a signature that hold, and is denied for 1 s otherwise. -/
def JtagInstructions : Prop :=
  ∀ s : State,
    (∀ b bits, Completes (.bypass (bits ++ [b])) s (· = Shifted 0xFF (false :: bits) s)) ∧
    Completes (.idcode false) s (fun s' => ∃ out, s' = Shifted 1 out s ∧ out.length = 32 ∧
      ∀ i, i < 32 → out.getD i false = (0x1A250E4F : Nat).testBit i) ∧
    Completes (.idcode true) s (· = Shifted 1 s.brd.tdo s) ∧
    (∀ pins cells, Completes (.samplePreload pins cells) s (fun s' =>
      s' = { Shifted 2 pins s with brd := { (Shifted 2 pins s).brd with preload := cells } })) ∧
    (∀ pins cells, cells ≠ [] → Completes (.extest pins cells) s (fun s' =>
      s' = { Shifted 3 pins s with brd := { (Shifted 3 pins s).brd with preload := cells } })) ∧
    (∀ key sig, s.sideband = true → s.jtagMode = 1 → s.mgt.unlockAt ≤ s.time →
      (leNat (sha256 key) = s.mgt.fuses.dbgHash.toNat → Completes (.dbgunlock key sig) s (fun s' =>
        WorkStands s s' ∧ s'.mgt.challenges = s.mgt.challenges + 1 ∧
        if slhVerify key (leBytes 16 (Config.challenge s.mgt.challenges).toNat ++
            leBytes 16 s.mgt.fuses.id.toNat) sig = true then
          s'.mgt.unlocked = true ∧ s'.hdrs = s.hdrs
        else s'.mgt.unlocked = s.mgt.unlocked ∧ s'.mgt.unlockAt = s.time + 1000000000 ∧
          bit (s'.hdr pgMgt).err Err.dbgDenied.bit = true)) ∧
      (leNat (sha256 key) ≠ s.mgt.fuses.dbgHash.toNat →
        Completes (.dbgunlock key sig) s (fun s' => s'.mgt.unlocked = s.mgt.unlocked ∧ WorkStands s s' ∧
          s'.mgt.unlockAt = s.time + 1000000000 ∧ bit (s'.hdr pgMgt).err Err.dbgDenied.bit = true))) ∧
    (∀ key sig, s.jtagMode ≠ 1 → Completes (.dbgunlock key sig) s (· = s))

/-- The watchdog of the management processor stops the device (R362, R502); in BOOT_FAIL the new boot image is
taken eight bytes at a time (R485, R503); the sideband's dynamic address is assigned at its static one or
by arbitration, in I3C mode only (R530). -/
def ManagementDieEvents : Prop :=
  ∀ (v : Word) (sa da : Nat) (s : State),
    (s.mgt.boot = 2 → s.stop.fatal = false → Completes .mgtWatchdog s (fun s' => DeviceStopped s' ∧
      bit (s'.hdr pgMgt).err Err.mgtWatchdogErr.bit = true ∧ s'.mem = s.mem)) ∧
    (s.mgt.boot = 3 → s.mgt.flashNew.length < 64 → Completes (.mgtFlashWrite v) s
      (· = { s with mgt := { s.mgt with flashNew := s.mgt.flashNew ++ leBytes 8 v.toNat } })) ∧
    (s.mgt.boot ≠ 3 → Completes (.mgtFlashWrite v) s (· = s)) ∧
    (s.mgt.boot = 2 → s.brd.sbsel = true → da < 128 →
      Completes (.setdasa (0x4C + s.brd.sbaddr) da) s (· = { s with brd := { s.brd with da := some da } }) ∧
      (s.brd.da = none → Completes (.entdaa da) s (· = { s with brd := { s.brd with da := some da } }))) ∧
    (s.brd.sbsel = false → Completes (.setdasa sa da) s (· = s) ∧ Completes (.entdaa da) s (· = s))

/-! ### Register accesses (chapters 16 and 17) -/

/-- No other path than this one holds an access that could be served at once (R508). -/
def OthersServed (path : Nat) (s : State) : Prop :=
  ∀ p, p < 10 → p ≠ path → s.mgt.accQ.get p [] = [] ∨ s.mgt.flying.get p none ≠ none

/-- Nothing waits on the path and no answer is awaited. -/
def PathFree (path : Nat) (s : State) : Prop :=
  s.mgt.boot = 2 ∧ s.mgt.accQ.get path [] = [] ∧ s.mgt.flying.get path none = none ∧ OthersServed path s

/-- The sideband's path is free, 40 V is there, and comparator 5 does not watch the address. -/
def SidebandFree (s : State) : Prop := PathFree 0 s ∧ s.brd.v40 = true ∧ bit (s.devReg pgPwr 0x140) 5 = false

/-- A device page. -/
def DevicePage (pg : Nat) (s : State) : Prop := pg < 0x8000 ∧ (s.pageKind pg).isSome = true

/-- `PG_ERRMASK` of a page holds v and every other page's is as before. -/
def MaskIs (pg : Nat) (v : Word) (s s' : State) : Prop :=
  WorkStands s s' ∧ (s'.hdr pg).mask = v ∧ ∀ q, q ≠ pg → (s'.hdr q).mask = (s.hdr q).mask

/-- The access a sideband command brings. -/
def sideAccess (write dbg : Bool) (addr : Nat) (v : Word) : Access :=
  { path := 0, write := write, addr := addr, v := v, dbg := dbg }

/-- The transfer is command `code` with these bytes; in SMBus mode its PEC covers the address byte, the code, the count
and the bytes (R524, R530). -/
def Carries (code : Nat) (bs : List Byte) (x : SbXfer) (pec : Byte) (s : State) : Prop :=
  x.code = code ∧ x.data = bs ∧
  (s.brd.sbsel = false → pec = pecOf (BitVec.ofNat 8 (2 * (0x4C + s.brd.sbaddr)) :: BitVec.ofNat 8 code ::
    BitVec.ofNat 8 bs.length :: bs))

/-- The bytes of an address, and of an address and a value, the lowest first (R524). -/
def addrBytes (a : Nat) : List Byte := leBytes 6 a
def addrDataBytes (a : Nat) (v : Word) : List Byte := leBytes 6 a ++ leBytes 8 v.toNat

/-- The four sideband commands that start an access, with their code and the bytes they carry for an address and a value
(R524). -/
def SideCommand (x : SbXfer) (pec : Byte) (a : Nat) (v : Word) (c : Instr) (code : Nat) (bs : List Byte) : Prop :=
  (c = .regWrite x pec ∧ code = 0x10 ∧ bs = addrDataBytes a v) ∨ (c = .regRead x pec ∧ code = 0x11 ∧ bs = addrBytes a) ∨
  (c = .dbgWrite x pec ∧ code = 0x13 ∧ bs = addrDataBytes a v) ∨ (c = .dbgRead x pec ∧ code = 0x14 ∧ bs = addrBytes a)

/-- Register accesses by the sideband (R507, R513, R519, R521, R524, R547): a device page's `PG_ERRMASK` takes the value
written and answers it, and a statistic answers its count; an address that is not aligned or that no page has is refused
with REG_ACCESS; an access to a tile page goes to the tile as a message (R480) and the status is BUSY. REG_RESULT gives the
status and eight bytes of data. -/
def SidebandReachesRegisters : Prop :=
  ∀ (pg : Nat) (v : Word) (x : SbXfer) (pec : Byte) (s : State), SidebandFree s →
    (DevicePage pg s →
      (Carries 0x10 (addrDataBytes (pg * 4096 + 0x030) v) x pec s →
        Completes (.regWrite x pec) s (fun s' => MaskIs pg v s s' ∧ s'.mgt.sbStatus = 0 ∧ s'.mgt.sbData = 0)) ∧
      (Carries 0x11 (addrBytes (pg * 4096 + 0x030)) x pec s →
        Completes (.regRead x pec) s (fun s' => MaskIs pg (s.hdr pg).mask s s' ∧
          s'.hdrs = s.hdrs ∧ s'.mgt.sbStatus = 0 ∧ s'.mgt.sbData = (s.hdr pg).mask)) ∧
      (∀ off, 0x040 ≤ off → off < 0x100 → off % 8 = 0 → Carries 0x11 (addrBytes (pg * 4096 + off)) x pec s →
        Completes (.regRead x pec) s (fun s' => WorkStands s s' ∧ s'.hdrs = s.hdrs ∧ s'.stats = s.stats ∧
          s'.mgt.sbStatus = 0 ∧ s'.mgt.sbData = BitVec.ofNat 64 (s.stats.get (rkey pg off) 0)))) ∧
    (∀ a, a < 2 ^ 48 → (a % 8 ≠ 0 ∨ (a < 0x10000000 ∧ s.pageKind (a / 4096) = none)) →
      ∀ c code bs, SideCommand x pec a v c code bs → Carries code bs x pec s →
        Completes c s (fun s' => MaskIs pg (s.hdr pg).mask s s' ∧ s'.mgt.sbStatus = 5 ∧
          bit (s'.hdr pgMgt).err Err.regAccess.bit = true)) ∧
    (∀ t k off, s.present t = true → k < 4 → off < 4096 → off % 8 = 0 →
      (Carries 0x10 (addrDataBytes (pgTile t k * 4096 + off) v) x pec s →
        Completes (.regWrite x pec) s (fun s' => WorkStands s s' ∧ s'.mgt.sbStatus = 1 ∧
          s'.mgt.flying.get 0 none = some (sideAccess true false (pgTile t k * 4096 + off) v) ∧
          MgtQueued [mgtMsg 0x31 0 t (packW [(2, k), (12, off)]) 0 0 (leBytes 8 v.toNat)] s s')) ∧
      (Carries 0x11 (addrBytes (pgTile t k * 4096 + off)) x pec s →
        Completes (.regRead x pec) s (fun s' => WorkStands s s' ∧ s'.mgt.sbStatus = 1 ∧
          s'.mgt.flying.get 0 none = some (sideAccess false false (pgTile t k * 4096 + off) 0) ∧
          MgtQueued [mgtMsg 0x30 0 t (packW [(2, k), (12, off)]) 0 0 []] s s')))

/-- What REG_RESULT gives: the status, eight bytes of data, and the PEC in SMBus mode (R524). -/
def ResultRead (s s' : State) : Prop :=
  ∃ pec : List Byte, s'.brd.sbOut = BitVec.ofNat 8 s.mgt.sbStatus :: (leBytes 8 s.mgt.sbData.toNat ++ pec) ∧
    pec.length = if s.brd.sbsel then 0 else 1

/-- The transfers themselves (R475, R524, R530): a command is ignored while an access is BUSY and, in SMBus mode, where its
PEC fails; one that meets the device out of service is acknowledged at its address and refused after it; without 40 V
nothing answers. The address match fires comparator 5, which wakes the device from D-idle where it may. -/
def SidebandTransfers : Prop :=
  ∀ (a : Nat) (v : Word) (x : SbXfer) (pec : Byte) (c : Instr) (code : Nat) (bs : List Byte) (s : State),
    SideCommand x pec a v c code bs →
    (s.brd.v40 = true → bit (s.devReg pgPwr 0x140) 5 = false →
      (s.sideband = true →
        Completes .regResult s (fun s' => s' = { s with brd := { s.brd with sbOut := s'.brd.sbOut, sbNack := false } } ∧
          ResultRead s s') ∧
        (∀ b, s.mgt.flying.get 0 none = some b →
          Completes c s (· = { s with brd := { s.brd with sbNack := false } })) ∧
        (x.code = code → x.data = bs → ¬ Carries code bs x pec s →
          Completes c s (· = { s with brd := { s.brd with sbNack := false } }))) ∧
      (s.sideband = false → ∀ d ∈ [Instr.regResult, c],
        Completes d s (· = { s with brd := { s.brd with sbNack := true } }))) ∧
    (s.brd.v40 = false → ∀ d ∈ [Instr.regResult, c], Completes d s (· = s)) ∧
    (s.brd.v40 = true → bit (s.devReg pgPwr 0x140) 5 = true → s.sideband = true →
      (bit (s.devReg pgPwr 0x140) 13 = false → Completes .regResult s (fun s' => ResultRead s s' ∧ s'.pwr = s.pwr ∧
        s'.tiles = s.tiles ∧ s'.mem = s.mem ∧ bit (s'.devReg pgPwr 0x120) 5 = true)) ∧
      (bit (s.devReg pgPwr 0x140) 13 = true → s.stop.fatal = false → s.pwr.entering = none → s.pwr.dstate = 1 →
        Completes .regResult s (fun s' => ResultRead s s' ∧ s'.pwr = { s.pwr with dstate := 0 } ∧ s'.tiles = s.tiles ∧
          bit (s'.devReg pgPwr 0x120) 5 = true)))

end Sys2Proof

/-- REG_WRITE, REG_READ, REG_RESULT, DBG_WRITE and DBG_READ, the sideband: its transfers, and the register accesses they
bring. -/
def Obligations.SidebandAccesses : Prop :=
  SidebandReachesRegisters ∧ SidebandTransfers

namespace Sys2Proof

/-- The scratchpad debug windows (R501, R505, R524): a read answers eight bytes, zero where the bank is off, which raises
nothing; a write of a halted tile stores them, or raises BANK_OFF (R39), and marks the device DEBUGGED; fuse policy bit 3
denies both, and a write of a tile that is not halted is denied, with DBG_DENIED. -/
def DebugWindows : Prop :=
  ∀ (t o : Nat) (v : Word) (x : SbXfer) (pec : Byte) (s : State), SidebandFree s → s.present t = true → o < 2 ^ 20 → o % 8 = 0 →
    (Carries 0x13 (addrDataBytes (0x080000000000 + t * 2 ^ 20 + o) v) x pec s →
      (s.mgt.fuses.policy.toNat / 8 % 2 = 0 → fld (s.tctState t) 15 1 = 1 →
        ((s.tile t).linesOn o 8 = true →
          Completes (.dbgWrite x pec) s (fun s' => TileLocal t s s' ∧
            s'.mgt.sbStatus = 0 ∧ s'.mgt.debugged = true ∧ (s'.tile t).rdN o 8 = v.toNat ∧
            (∀ a, a < 2 ^ 20 → (a < o ∨ o + 8 ≤ a) → (s'.tile t).rdN a 1 = (s.tile t).rdN a 1) ∧
            (s'.tile t).cfg = (s.tile t).cfg)) ∧
        ((s.tile t).linesOn o 8 = false →
          Completes (.dbgWrite x pec) s (fun s' => TileLocal t s s' ∧ s'.mgt.sbStatus = 0 ∧ s'.mgt.debugged = true ∧
            (s'.tile t).sp = (s.tile t).sp ∧ bit (s'.hdr (pgTile t 1)).err Err.bankOff.bit = true))) ∧
      ((s.mgt.fuses.policy.toNat / 8 % 2 = 1 ∨ fld (s.tctState t) 15 1 = 0) →
        Completes (.dbgWrite x pec) s (fun s' => WorkStands s s' ∧ s'.mgt.sbStatus = 5 ∧
          bit (s'.hdr pgMgt).err Err.dbgDenied.bit = true))) ∧
    (Carries 0x14 (addrBytes (0x080000000000 + t * 2 ^ 20 + o)) x pec s →
      (s.mgt.fuses.policy.toNat / 8 % 2 = 0 →
        Completes (.dbgRead x pec) s (fun s' => TileLocal t s s' ∧
          s'.mgt.sbStatus = 0 ∧ s'.mgt.debugged = s.mgt.debugged ∧ (s'.tile t).sp = (s.tile t).sp ∧
          (s'.hdr (pgTile t 1)).err = (s.hdr (pgTile t 1)).err ∧
          s'.mgt.sbData = if (s.tile t).linesOn o 8 = true then BitVec.ofNat 64 ((s.tile t).rdN o 8) else 0)) ∧
      (s.mgt.fuses.policy.toNat / 8 % 2 = 1 →
        Completes (.dbgRead x pec) s (fun s' => WorkStands s s' ∧ s'.mgt.sbStatus = 5 ∧
          bit (s'.hdr pgMgt).err Err.dbgDenied.bit = true)))

/-- REGRESP that refuses a request, with n bytes of data, all zero (R441). -/
def regRefused (k : LnmPkt) (n : Nat) : OutPkt :=
  ⟨0x05, 8, { tctx := k.tctx, first := true, last := true, bytes := n, tag := k.tag, status := 5,
              payload := List.replicate n 0 }, none⟩

/-- The other paths to a device page (R441, R499, R506, R508, R515): JTAG's MGTACC shifts the value out, a write is served
whole by any path that is open and holds no other access, and otherwise waits its turn, `PG_VER` grants revision 1 at most
and refuses 0, and a partner's REGRD and REGWR are answered by REGRESP, refused without permission or in another role, as
which LNM_PROTO is raised too (log 67); the answer to a message in assembly that such a packet ends goes first (log 98). -/
def PathsReachDevicePages : Prop :=
  ∀ (pg : Nat) (v : Word) (s : State), DevicePage pg s →
    (PathFree 1 s → s.jtagMode = 0 →
      Completes (.mgtacc true (pg * 4096 + 0x030) v) s (fun s' => MaskIs pg v s s' ∧ s'.mgt.ir = 0x11) ∧
      Completes (.mgtacc false (pg * 4096 + 0x030) v) s (fun s' => MaskIs pg (s.hdr pg).mask s s' ∧
        s'.brd.tdo = bitsOf (leBytes 8 (s.hdr pg).mask.toNat))) ∧
    (s.jtagMode ≠ 0 → s.mgt.unlocked = false → ∀ w, Completes (.mgtacc w (pg * 4096 + 0x030) v) s (· = s)) ∧
    (∀ path, s.mgt.boot = 2 → s.pathOpen path = true → s.mgt.pathBusy path = false →
      Completes (.registerWrite path (pg * 4096 + 0x030) v) s (MaskIs pg v s) ∧
      (fld v 0 16 ≠ 0 → Completes (.pgVerWrite path pg v) s (fun s' => MaskIs pg (s.hdr pg).mask s s' ∧
        (s'.hdr pg).req = fld v 0 16 ∧ (s'.hdr pg).grant = 1)) ∧
      (fld v 0 16 = 0 → Completes (.pgVerWrite path pg v) s (fun s' => MaskIs pg (s.hdr pg).mask s s' ∧
        (s'.hdr pg).req = (s.hdr pg).req ∧ (s'.hdr pg).grant = (s.hdr pg).grant ∧
        bit (s'.hdr pgMgt).err Err.regAccess.bit = true))) ∧
    (∀ path a, s.mgt.boot = 2 → s.pathOpen path = true → s.mgt.flying.get path none = some a →
      (path = 0 → Completes (.registerWrite path (pg * 4096 + 0x030) v) s (· = s)) ∧
      (path ≠ 0 → OthersServed path s → (s.mgt.accQ.get path []).length < 15 →
        Completes (.registerWrite path (pg * 4096 + 0x030) v) s (fun s' => WorkStands s s' ∧ s'.hdrs = s.hdrs ∧
          s'.mgt.accQ.get path [] = s.mgt.accQ.get path [] ++
            [{ path := path, write := true, addr := pg * 4096 + 0x030, v := v }]))) ∧
    (∀ (p : Fin 8) (k : LnmPkt), PathFree (2 + p) s → k.tkind = 0 → fld k.target 0 48 = pg * 4096 + 0x030 →
      bit (s.lnmCfg p) 3 = true →
      (PacketIn p 0x03 k s → Completes (.regrd p k) s (fun s' => MaskIs pg (s.hdr pg).mask (woken 0x03 s) s' ∧
        (s'.port p).outq = (s.port p).outq ++ brokenAck p s ++ [⟨0x05, 8,
          { tctx := k.tctx, first := true, last := true, bytes := 8, tag := k.tag,
            payload := leBytes 8 (s.hdr pg).mask.toNat }, none⟩])) ∧
      (PacketIn p 0x04 k s → k.payload.length = 8 → Completes (.regwr p k) s (fun s' =>
        MaskIs pg (BitVec.ofNat 64 (leNat k.payload)) (woken 0x04 s) s' ∧
        (s'.port p).outq = (s.port p).outq ++ brokenAck p s ++
          [⟨0x05, 8, { tctx := k.tctx, first := true, last := true, tag := k.tag }, none⟩]))) ∧
    (∀ (p : Fin 8) (k : LnmPkt), bit (s.lnmCfg p) 3 = false →
      (PacketIn p 0x03 k s → Completes (.regrd p k) s (fun s' => MaskIs pg (s.hdr pg).mask (woken 0x03 s) s' ∧
        (s'.port p).outq = (s.port p).outq ++ brokenAck p s ++ [regRefused k 8])) ∧
      (PacketIn p 0x04 k s → k.payload.length = 8 → Completes (.regwr p k) s (fun s' =>
        MaskIs pg (s.hdr pg).mask (woken 0x04 s) s' ∧
        (s'.port p).outq = (s.port p).outq ++ brokenAck p s ++ [regRefused k 0]))) ∧
    (∀ (p : Fin 8) (k : LnmPkt), (s.port p).st = .up → s.stop.fatal = false → (s.port p).role ≠ .control →
      (hdrOk 0x03 k = true → Completes (.regrd p k) s (fun s' => MaskIs pg (s.hdr pg).mask (woken 0x03 s) s' ∧
        (s'.port p).outq = (s.port p).outq ++ brokenAck p s ++ protoAck k ++ [regRefused k 8])) ∧
      (hdrOk 0x04 k = true → Completes (.regwr p k) s (fun s' => MaskIs pg (s.hdr pg).mask (woken 0x04 s) s' ∧
        (s'.port p).outq = (s.port p).outq ++ brokenAck p s ++ protoAck k ++ [regRefused k 0])))

/-- A write has changed no register: no page but the management processor's has another header, and every device register
but the log's count of losses reads what it read (R9, R507). -/
def NothingWritten (s s' : State) : Prop :=
  WorkStands s s' ∧ (∀ q, q ≠ pgMgt → s'.hdr q = s.hdr q) ∧
  ∀ q off, rkey q off ≠ rkey pgErr 0x110 → s'.devReg q off = s.devReg q off

/-- Registers that the device alone writes, beside the header's: the state registers of contexts, movers, ports, stacks and
halves (R334, R420, R451, R477). -/
def stateRegs : List (Nat × Nat) :=
  (List.range 8).map (fun c => (pgCtx c, 0x100)) ++ (List.range 28).map (fun m => (pgMov m, 0x100)) ++
  (List.range 8).map (fun p => (pgLnm p, 0x108)) ++ (List.range 20).map (fun u => (pgHbm u, 0x100)) ++
  (List.range 40).map (fun h => (pgPwr, 0x400 + 8 * h))

/-- The kinds of register of a device page (R9, R10): a write of an RO register, a statistic among them (R521), changes
nothing; a W1C register loses the bits written as 1 but keeps those that hardware set at the same time, and an error that
came with a write clearing all older ones has its detail in `PG_ERRINFO` (R509, R518, R519); an RW register takes what is
written, reserved bits apart. (No register of revision 1 has a W1S field.) -/
def DeviceRegisterKinds : Prop :=
  ∀ (path : Nat) (v : Word) (s : State), s.mgt.boot = 2 → s.pathOpen path = true → s.mgt.pathBusy path = false →
    (∀ pg off, DevicePage pg s → off % 8 = 0 →
      (off = 0 ∨ off = 8 ∨ off = 0x020 ∨ off = 0x038 ∨ (0x040 ≤ off ∧ off < 0x100)) →
      Completes (.registerWrite path (pg * 4096 + off) v) s (NothingWritten s)) ∧
    (∀ e ∈ stateRegs, Completes (.registerWrite path (e.1 * 4096 + e.2) v) s (NothingWritten s)) ∧
    (∀ pg h, DevicePage pg s → s.hdr pg = h →
      Completes (.registerWrite path (pg * 4096 + 0x028) v) s (fun s' => WorkStands s s' ∧
        (∀ q, q ≠ pg → q ≠ pgMgt → s'.hdr q = s.hdr q) ∧
        (s'.hdr pg).err = ((h.err &&& ~~~v) ||| if h.freshAt = s.time then h.fresh else 0) ∧
        (s'.hdr pg).mask = h.mask ∧
        (s'.hdr pg).info = if h.freshAt = s.time ∧ h.older ≠ 0 ∧ h.older &&& ~~~v = 0 then h.freshInfo.getD h.info
          else h.info)) ∧
    Completes (.registerWrite path (pgPwr * 4096 + 0x120) v) s (fun s' => WorkStands s s' ∧ s'.hdrs = s.hdrs ∧
      s'.devReg pgPwr 0x120 = ((s.devReg pgPwr 0x120 &&& ~~~v) |||
        if (s.fresh.get (rkey pgPwr 0x120) (0, 0)).1 = s.time then (s.fresh.get (rkey pgPwr 0x120) (0, 0)).2 else 0) ∧
      ∀ q off, rkey q off ≠ rkey pgPwr 0x120 → s'.devReg q off = s.devReg q off) ∧
    Completes (.registerWrite path (pgErr * 4096 + 0x118) v) s (fun s' => WorkStands s s' ∧ s'.hdrs = s.hdrs ∧
      s'.devReg pgErr 0x118 = v &&& 0x3FF ∧
      ∀ q off, rkey q off ≠ rkey pgErr 0x118 → s'.devReg q off = s.devReg q off)

/-- The kinds of register of a tile page, in a tile that is ACTIVE: the sticky flags lose those written as 1, save what an
engine has set in the same tile cycle (R62, R63); of a register with a live and a shadow copy the live one is written
(R510), of `TSP_SPCTRL` only CONFLICT; `TEN_TBLDATA` takes no write but the configuration engine's, which raises CFG_ACCESS
(R59, R510). A tile in OFF refuses each, with REG_ACCESS (R507). JTAG's write to an owned tile sets DEBUGGED, one refused
does not (R501). -/
def TileRegisterKinds : Prop :=
  ∀ (path t : Nat) (v : Word) (x : Tile) (s : State), s.mgt.boot = 2 → s.pathOpen path = true →
    s.mgt.pathBusy path = false → s.present t = true → s.tile t = x →
    (x.clk.pstate = .active →
      Completes (.registerWrite path (pgTile t 3 * 4096 + 0x100) v) s (fun s' => TileLocal t s s' ∧
        s'.tile t = { x with flags := x.flags &&& (~~~(BitVec.ofNat 16 v.toNat) |||
          if x.flagCyc = x.clk.cyc then x.flagNew else 0) } ∧
        (path = 1 → x.cfg.owned = true → s'.mgt.debugged = true)) ∧
      Completes (.registerWrite path (pgTile t 1 * 4096 + 0x100) v) s (fun s' => TileLocal t s s' ∧
        s'.tile t = { x with cfg := { x.cfg with live := (s'.tile t).cfg.live } } ∧
        (s'.tile t).reg 1 0x100 = setFld (x.reg 1 0x100) 18 1 (fld v 18 1) ∧
        ∀ k off, rkey k off ≠ rkey 1 0x100 → (s'.tile t).reg k off = x.reg k off) ∧
      Completes (.registerWrite path (pgTile t 3 * 4096 + 0x130) v) s (fun s' => TileLocal t s s' ∧
        s'.tile t = { x with cfg := { x.cfg with live := (s'.tile t).cfg.live } } ∧
        (s'.tile t).reg 3 0x130 = v &&& 0x3FFF ∧
        ∀ k off, rkey k off ≠ rkey 3 0x130 → (s'.tile t).reg k off = x.reg k off) ∧
      Completes (.registerWrite path (pgTile t 3 * 4096 + 0x138) v) s (fun s' => TileLocal t s s' ∧
        (s'.tile t).cfg.live = x.cfg.live ∧ (s'.tile t).cfg.tblLive = x.cfg.tblLive ∧
        (s'.tile t).cfg.tblShadow = x.cfg.tblShadow ∧ bit (s'.hdr (pgTile t 0)).err Err.cfgAccess.bit = true)) ∧
    (∀ k off, x.clk.pstate = .off → k < 4 → 0x100 ≤ off → off < 4096 → off % 8 = 0 →
      Completes (.registerWrite path (pgTile t k * 4096 + off) v) s (fun s' => TileLocal t s s' ∧ s'.tile t = x ∧
        s'.mgt.debugged = s.mgt.debugged ∧ bit (s'.hdr pgMgt).err Err.regAccess.bit = true))

end Sys2Proof

/-- MGTACC, REGISTER_WRITE, PG_VER_WRITE, REGRD and REGWR: the paths to a device page, and what a write does to each kind
of register. A request in another role that is both answered REFUSED and raises LNM_PROTO, and the answer to a message
broken by it, are the model's choice (logs 67 and 98). -/
def Obligations.RegisterPaths : Prop :=
  PathsReachDevicePages ∧ DeviceRegisterKinds ∧ TileRegisterKinds

namespace Sys2Proof

/-- The tile's MGT_RESP to message m, its last message (R480). -/
def RespSent (t : Nat) (m : Msg) (status : Nat) (bs : List Byte) (s s' : State) : Prop :=
  Sent { op := 0x32, src := t, dest := unitMgt, sctx := (s.tile t).cfg.ctx, tctx := (s.tile t).cfg.ctx, tag := m.tag,
         status := status, payload := bs } s'

end Sys2Proof

/-- MGT_RD, MGT_WR and MGT_RESP, the messages of an access to a tile page (R480, R507, R511): the tile answers a read
with the register and a write with its outcome, a write while it is OFF is refused, and the answer ends the access that
awaits it. `PG_ERRMASK` stands for the registers that are written. A statistic is read as it has counted, and as 0 of a
tile in OFF (R521); of a range table the copy that `TEN_TBLIDX.SET` selects is read, the shadow's only while no pour is
under way, and ENTRY moves on where it may (R59, R91, R510). -/
def Obligations.TilePagesAnswerByMessage : Prop :=
  ∀ (t k : Nat) (m : Msg) (s : State), k < 4 →
    (∀ off, TileMsg t 0x30 m s → m.w1 = packW [(2, k), (12, off)] → off < 4096 → (k ≠ 3 ∨ off ≠ 0x138) →
      Completes (.mgtRd t) s (fun s' => WorkStands s s' ∧ s'.hdrs = s.hdrs ∧ Taken t s s' ∧
        RespSent t m 0 (leBytes 8 (s.readTile t k off).toNat) s s')) ∧
    (∀ off, TileMsg t 0x30 m s → m.w1 = packW [(2, k), (12, off)] → 0x040 ≤ off → off < 0x100 →
      Completes (.mgtRd t) s (fun s' => RespSent t m 0 (leBytes 8
        (if (s.tile t).clk.pstate = .off then 0 else s.stats.get (rkey (pgTile t k) off) 0)) s s')) ∧
    (∀ idx, TileMsg t 0x30 m s → m.w1 = packW [(2, 3), (12, 0x138)] → (s.tile t).clk.pstate ≠ .off →
      (s.tile t).reg 3 0x130 = idx → (tblSel idx).1 ≠ 3 → (bit idx 13 = true → (s.tile t).cfg.pour = .idle) →
      Completes (.mgtRd t) s (fun s' => TileLocal t s s' ∧
        (s'.tile t).reg 3 0x130 = (if bit idx 12 then setFld idx 4 8 (fld idx 4 8 + 1) else idx) ∧
        RespSent t m 0 (leBytes 8 ((if bit idx 13 then (s.tile t).cfg.tblShadow else (s.tile t).cfg.tblLive).get
          ((tblSel idx).1 * 4096 + (tblSel idx).2.1 * 256 + (tblSel idx).2.2) 0).toNat) s s')) ∧
    (TileMsg t 0x31 m s → m.w1 = packW [(2, k), (12, 0x030)] →
      Completes (.mgtWr t) s (fun s' => MaskIs (pgTile t k) (BitVec.ofNat 64 (leNat m.payload)) s s' ∧
        Taken t s s' ∧ RespSent t m 0 [] s s')) ∧
    (∀ off, TileMsg t 0x31 m s → m.w1 = packW [(2, k), (12, off)] → 0x100 ≤ off → off < 4096 →
      (s.tile t).clk.pstate = .off →
      Completes (.mgtWr t) s (fun s' => s' = { s with inbox := s'.inbox, routers := s'.routers } ∧ Taken t s s' ∧
        RespSent t m 5 [] s s')) ∧
    (∀ a rest, UnitMsg unitMgt 0x32 m rest s → m.tag = 0 → s.mgt.flying.get 0 none = some a → a.path = 0 →
      s.mgt.accQ.get 0 [] = [] → OthersServed 0 s →
      (m.status = 0 → Completes .mgtResp s (fun s' => WorkStands s s' ∧
        s'.inbox = (tookUnit unitMgt rest s).inbox ∧
        s'.mgt.flying.get 0 none = none ∧ s'.mgt.sbStatus = 0 ∧
        s'.mgt.sbData = if a.write = true then 0 else BitVec.ofNat 64 (leNat m.payload))) ∧
      (m.status = 5 → Completes .mgtResp s (fun s' => WorkStands s s' ∧
        s'.inbox = (tookUnit unitMgt rest s).inbox ∧
        s'.mgt.flying.get 0 none = none ∧ s'.mgt.sbStatus = 5 ∧
        bit (s'.hdr pgMgt).err Err.regAccess.bit = true))) ∧
    (∀ a rest, UnitMsg unitMgt 0x32 m rest s → s.mgt.flying.get m.tag none = some a →
      s.mgt.accQ.get m.tag [] = [] → OthersServed m.tag s →
      Completes .mgtResp s (fun s' => WorkStands s s' ∧ s'.inbox = (tookUnit unitMgt rest s).inbox ∧
        s'.mgt.flying.get m.tag none = none))

namespace Sys2Proof

/-- HALT of a tile's page stops its clock and that of a mover's the start of pieces; the release ends it
(R501, R516). -/
def HaltStopsTilesAndMovers : Prop :=
  ∀ s : State, s.mgt.boot = 2 →
    (∀ t, s.present t = true →
      Completes (.halt (pgTile t 0)) s (fun s' => TileLocal t s s' ∧ (s'.hdr (pgTile t 0)).halt = true ∧
        (s'.tile t).cfg = { (s.tile t).cfg with halted := true } ∧ s'.mgt.debugged = true ∧
        (s'.tile t).sp = (s.tile t).sp ∧ (s'.tile t).mp = (s.tile t).mp) ∧
      (s.stop.fatal = false → (s.tile t).cfg.frozen = false →
        Completes (.haltRelease (pgTile t 0)) s (fun s' => TileLocal t s s' ∧
          (s'.hdr (pgTile t 0)).halt = false ∧ (s'.tile t).cfg = { (s.tile t).cfg with halted := false } ∧
          (s'.tile t).sp = (s.tile t).sp ∧ (s'.tile t).mp = (s.tile t).mp))) ∧
    (∀ m, m < 28 → ∀ e ∈ [(Instr.halt (pgMov m), true), (Instr.haltRelease (pgMov m), false)],
      Completes e.1 s (fun s' => WorkStands s s' ∧ (s'.hdr (pgMov m)).halt = e.2 ∧
        ∀ q, q ≠ pgMov m → (s'.hdr q).halt = (s.hdr q).halt))

/-! ### The message network (chapters 08 and 13) -/

/-- The packet has left its input, whose other packets stay, and the output's pointer stands behind that input; a local
input also notes which of its two sharers went (R193, R398). -/
def TookTurn (node out prev : Nat) (rest : List Packet) (s s' : State) : Prop :=
  s'.routers.get (rkeyOf node prev) [] = rest ∧
  (out ≠ 16383 → s'.rr.get (rkeyOf node out) 0 = portOrd node prev + 1) ∧
  ((prev = node ∨ prev = 8192) → s'.rr.get (rkeyOf node 16383) 0 = prev + 1)

end Sys2Proof

/-- PACKET_ROUTE: one packet leaves the router input whose turn it is for the next node of its route, or reaches its
unit's inbox, where one of no message or of an OP that the unit does not take raises MSG_OP; a single-bit error is
corrected and reported, a double-bit error in its header loses it at a tile with MSG_HEADER, one in its payload goes with
it (R193, R210, R214 to R216). -/
def Obligations.RoutersPassWholePackets : Prop :=
  ∀ (node out : Nat) (s : State), (s.present node = true ∨ (0x1400 ≤ node ∧ node < 0x1900)) →
    (∀ ecc, s.granted node out = none → Completes (.packetRoute node out ecc) s (· = s)) ∧
    (∀ (prev : Nat) (p : Packet) (rest : List Packet), s.granted node out = some prev →
      s.offer node prev = some (p, rest) →
      (∀ ecc, (ecc = [] ∨ ∃ a, ecc = [⟨4 + a, true⟩]) →
        (out ≠ node → Completes (.packetRoute node out ecc) s (fun s' =>
          s' = { s with routers := s'.routers, rr := s'.rr } ∧ TookTurn node out prev rest s s' ∧
          s'.routers.get (rkeyOf out node) [] =
            s.routers.get (rkeyOf out node) [] ++ [{ p with bad := p.bad || !ecc.isEmpty }])) ∧
        (out = node → p.msg.taken = true → s.joins p = true →
          ¬ ((p.msg.dest = unitMgt ∨ p.msg.dest = unitCfg) ∧ p.msg.op = 0x04) →
          Completes (.packetRoute node out ecc) s (fun s' =>
            s' = { s with routers := s'.routers, rr := s'.rr, inbox := s'.inbox, stats := s'.stats } ∧
            TookTurn node out prev rest s s' ∧
            s'.inbox.get p.msg.dest [] =
              joinPacket { p with bad := p.bad || !ecc.isEmpty } (s.inbox.get p.msg.dest []) ∧
            ∀ u, u ≠ p.msg.dest → s'.inbox.get u [] = s.inbox.get u [])) ∧
        (out = node → tidDie p.msg.dest < 20 →
          ((p.msg.taken = false ∧ p.first = true) ∨ (p.msg.taken = true ∧ s.joins p = false)) →
          Completes (.packetRoute node out ecc) s (fun s' => s'.tiles = s.tiles ∧ s'.inbox = s.inbox ∧
            s'.mem = s.mem ∧ bit (s'.hdr (pgTile p.msg.dest 2)).err Err.msgOp.bit = true))) ∧
      (∀ a, s.present node = true → out ≠ node → Completes (.packetRoute node out [⟨a, false⟩]) s (fun s' =>
        s'.tiles = s.tiles ∧ s'.ctxs = s.ctxs ∧ s'.inbox = s.inbox ∧ TookTurn node out prev rest s s' ∧
        bit (s'.hdr (pgTile node 2)).err Err.msgCorrected.bit = true ∧
        s'.routers.get (rkeyOf out node) [] = s.routers.get (rkeyOf out node) [] ++ [p])) ∧
      (s.present node = true → Completes (.packetRoute node out [⟨0, true⟩]) s (fun s' =>
        s'.tiles = s.tiles ∧ s'.mem = s.mem ∧ s'.cast = s.cast ∧
        bit (s'.hdr (pgTile node 2)).err Err.msgHeader.bit = true)))

/-- SAVE, SHUTDOWN, SAVE_COMPLETE, FUSE_KEY_SLOT, FUSE_REVOKE, FUSE_POLICY_BIT, FUSE_FIELD_REPAIR, FUSE_DEBUG_KEY_HASH and
FUSE_PROGRAM_DONE: saves write the other copy, and fuses are programmed. That the first image has GEN 0 and the
first save writes copy B is the model's choice (log 79). -/
def Obligations.SavesAndFuses : Prop :=
  SavesWriteTheOtherCopy ∧ FusesAreProgrammed

/-- ATT_EXTEND, ATTESTATION_REQUEST, REPORT_SIGNED, ATT_REQ and CERT_CHAIN_REQUEST: measurements are extended, and reports made for the register path and for
partners. A report's sequence number, the count of reports signed before, and the certificate chain going out at once are
the model's choice (log 82). -/
def Obligations.ReportsForRegistersAndPartners : Prop :=
  MeasuresAndReports ∧ PartnersAskForReports

/-- DBG_WRITE and DBG_READ of the debug windows, HALT and HALT_RELEASE: debug windows reach scratchpads, and HALT stops tiles and movers. -/
def Obligations.DebugWindowsAndHalt : Prop :=
  DebugWindows ∧ HaltStopsTilesAndMovers

/-- BYPASS, IDCODE, SAMPLE_PRELOAD, EXTEST, DBGUNLOCK, MGT_WATCHDOG, MGT_FLASH_WRITE, SETDASA and ENTDAA: the JTAG
instructions and the events of the management die. -/
def Obligations.JtagAndManagementEvents : Prop :=
  JtagInstructions ∧ ManagementDieEvents

namespace Sys2Proof

/-! ### The whole device -/

end Sys2Proof

/-- One step takes the command at the front of the queue and runs it on the state whose queue is the rest.
On an empty queue one nanosecond passes: the model's choice (log 1). -/
def Obligations.StepRunsTheFrontCommand : Prop :=
  ∀ (c : Instr) (rest : List Instr) (s : State),
    (s.pending = c :: rest → Machine.step s = Machine.exec c { s with pending := rest }) ∧
    (s.pending = [] → ∃ s', Machine.step s = .next s' ∧ s'.time = s.time + 1 ∧ s'.pending = [])

namespace Sys2Proof

/-- A command over a tile that the part does not have stops the model with a fault: there is nothing that
could act (R2, R18; the fault is the model's own). -/
def AbsentTilesFault : Prop :=
  ∀ (c : Instr) (t : Nat) (s : State), c.tile = some t → s.present t = false → Machine.exec c s = .fault .noSuchTile

/-- Every command completes in every state in which the tile over which it acts, if any, is there (R2, R18): no other
condition stops the model, and nothing is refused. -/
def EveryCommandCompletes : Prop :=
  ∀ (c : Instr) (s : State), (∀ t, c.tile = some t → s.present t = true) → ∃ s', Machine.exec c s = .next s'

end Sys2Proof

/-- Every command completes where its tile is there, and only there: over a tile that the part does not have it faults,
which is the model's own (R2, R18). -/
def Obligations.CommandsCompleteWhereTheirTileIs : Prop :=
  AbsentTilesFault ∧ EveryCommandCompletes

namespace Sys2Proof

/-- The bounds of a tile's state: a counter is at most 0xFF_FFFF (R232, R234), a handle queue holds at most 16 handles
(R53), and the credit of a channel that is OPEN or CLOSING is at most the ring's SIZE (R223). -/
def TileBounds (x : Tile) : Prop :=
  (∀ c, (x.counter c).value ≤ 0xFFFFFF) ∧ (∀ q, (x.hqueue q).length ≤ 16) ∧
  ∀ r, ((x.ch r).st = .opened ∨ (x.ch r).st = .closing) → (x.ch r).credit ≤ (x.ch r).size

/-- The moulds of different contexts, those that are assigned and those of pours under way, do not overlap (R272). -/
def MouldsApart (s : State) : Prop :=
  ∀ c d, c < 8 → d < 8 → c ≠ d →
    (∀ m n, (s.ctx c).mould = some m → (s.ctx d).mould = some n → m.overlaps n = false) ∧
    (∀ m, (s.ctx c).mould = some m → (s.pour d).st ≠ .idle → m.overlaps (hdrMould (s.pour d).hdr) = false) ∧
    ((s.pour c).st ≠ .idle → (s.pour d).st ≠ .idle → (hdrMould (s.pour c).hdr).overlaps (hdrMould (s.pour d).hdr) = false)

/-- No two enabled slots of the device name the same tile and window (R316). -/
def SlotsApart (s : State) : Prop :=
  ∀ c d i j, c < 8 → d < 8 → i < 8 → j < 8 → (c ≠ d ∨ i ≠ j) → bit (s.slotA c i) 0 = true →
    bit (s.slotA d j) 0 = true → fld (s.slotA c i) 1 17 ≠ fld (s.slotA d j) 1 17

/-- The retained store holds no slot entry, which is not Kept (R334, R487). -/
def ImagesHoldNoSlots (m : Mgt) : Prop :=
  ∀ i, (m.copyA = some i ∨ m.copyB = some i ∨ m.saving = some i) → ∀ e ∈ i.regs, ∀ c j, c < 8 → j < 8 →
    e.1 ≠ rkey (pgCtx c) (0x140 + 16 * j)

/-- The bounds of the device: those of every tile, at most 256 descriptors that are not complete in a mover (R408), moulds
and slots that do not meet. -/
def Bounds (s : State) : Prop :=
  (∀ t, TileBounds (s.tile t)) ∧ (∀ m, (s.mover m).held ≤ 256) ∧ MouldsApart s ∧ SlotsApart s ∧ ImagesHoldNoSlots s.mgt

end Sys2Proof

/-- Every step keeps the bounds: of the counters, the handle queues and the credits of the channels (R53, R223, R234), of
the movers' queues (R408), of moulds (R272) and slots (R316). -/
def Obligations.EveryStepKeepsTheBounds : Prop :=
  ∀ s s' : State, Bounds s → Machine.step s = .next s' → Bounds s'

namespace Sys2Proof

/-- The two ends of the error log agree with the number of unread entries U (R365): the oldest unread
entry lies at RDPTR, the next is written at WRPTR, and U runs from 0 to 1,024. -/
def LogOk (g : ErrLog) : Prop :=
  g.wr < 1024 ∧ g.rd < 1024 ∧ g.unread ≤ 1024 ∧ (g.rd + g.unread) % 1024 = g.wr

/-- The invariant of the device: every fuse bit that was blown in f is blown (R491), and the error log's
pointers and U agree (R365). -/
def Inv (f : Fuses) (s : State) : Prop := StaysBlown f s.mgt.fuses ∧ LogOk s.log

end Sys2Proof

/-- Every step keeps the invariant: no command and no nanosecond clears a fuse bit (R491) or lets the
pointers of the error log and U disagree (R365). -/
def Obligations.EveryStepKeepsTheInvariant : Prop :=
  ∀ (f : Fuses) (s s' : State), Inv f s → Machine.step s = .next s' → Inv f s'

/-- No command changes the queue of those that wait behind it, and none takes time: only an empty queue
lets time pass (the model's choice, log 1). -/
def Obligations.CommandsLeaveQueueAndClock : Prop :=
  ∀ (c : Instr) (s s' : State), Machine.exec c s = .next s' → s'.pending = s.pending ∧ s'.time = s.time

/-- Right after reset nothing waits, every context is FREE (R312), every tile is OFF and holds nothing
(R462), every port is DISABLED (R426), the log is empty (R365), every register of a device page reads its
cold value (R507), and the invariant and the bounds hold. -/
def Obligations.ResetLeavesColdValues : Prop :=
  State.reset.pending = [] ∧ (∀ c, (State.reset.ctx c).st = .free) ∧
  (∀ t, State.reset.tile t = Tile.cold) ∧ (∀ p, (State.reset.port p).st = .disabled) ∧
  State.reset.log.unread = 0 ∧ State.reset.alert = false ∧
  (∀ pg off, State.reset.devReg pg off = devCold (rkey pg off)) ∧
  State.reset.devReg pgPwr 0x100 = 0x5A1068 ∧ State.reset.devReg pgErr 0x100 = 2 ∧
  (∀ c, c < 8 → State.reset.devReg (pgCtx c) 0x110 = 1000) ∧ Inv State.reset.mgt.fuses State.reset ∧
  Bounds State.reset

/-- The packets of a message, joined as they reach the inbox in order, are the message again (R215): every
byte once, complete, whole and good, behind what stood in the inbox. -/
def Obligations.MessagesArriveWhole : Prop :=
  ∀ (m : Msg) (q : List InMsg), (∀ x ∈ q, x.complete = true ∨ x.msg.src ≠ m.src) →
    (packets m).foldl (fun q p => joinPacket p q) q =
      q ++ [{ msg := m, have_ := (packets m).length, complete := true, bad := false, broken := false }]
end

