-- ==== Sys2Proof/Laws/Map.lean ====
section
/-! SUPPORT.
Sparse maps: read after write, and the canonical form. -/

namespace Sys2Proof

variable {α : Type}

@[simp] theorem SMap.get_nil (k : Nat) (d : α) : SMap.get ([] : SMap α) k d = d := rfl

theorem SMap.get_ins_same (m : SMap α) (k : Nat) (v d : α) : (m.ins k v).get k d = v := by
  induction m with
  | nil => simp [SMap.ins, SMap.get]
  | cons e m ih =>
    obtain ⟨j, w⟩ := e
    simp only [SMap.ins]
    split
    · simp [SMap.get]
    · split
      · simp [SMap.get]
      · rename_i h; simp only [SMap.get, h, if_false]; exact ih

theorem SMap.get_ins_ne (m : SMap α) {k j : Nat} (v d : α) (h : j ≠ k) :
    (m.ins k v).get j d = m.get j d := by
  induction m with
  | nil => simp [SMap.ins, SMap.get, h]
  | cons e m ih =>
    obtain ⟨i, w⟩ := e
    simp only [SMap.ins]
    split
    · simp [SMap.get, h]
    · split
      · rename_i _ hk; subst hk; simp [SMap.get, h]
      · simp only [SMap.get]; split
        · rfl
        · exact ih

theorem SMap.get_drop_same (m : SMap α) (k : Nat) (d : α) :
    SMap.get (m.filter (fun e => e.1 != k)) k d = d := by
  induction m with
  | nil => rfl
  | cons e m ih =>
    obtain ⟨i, w⟩ := e
    by_cases hi : i = k
    · simp [List.filter_cons, hi, ih]
    · have : k ≠ i := fun h => hi h.symm
      simp [List.filter_cons, hi, SMap.get, this, ih]

theorem SMap.get_drop_ne (m : SMap α) {k j : Nat} (d : α) (h : j ≠ k) :
    SMap.get (m.filter (fun e => e.1 != k)) j d = m.get j d := by
  induction m with
  | nil => rfl
  | cons e m ih =>
    obtain ⟨i, w⟩ := e
    by_cases hi : i = k
    · subst hi; simp [List.filter_cons, SMap.get, h, ih]
    · simp [List.filter_cons, hi, SMap.get, ih]

variable [DecidableEq α]

/-- A read of what was written. -/
@[simp] theorem SMap.get_put_same (m : SMap α) (k : Nat) (v d : α) : (m.put k v d).get k d = v := by
  simp only [SMap.put]
  split
  · rename_i h; rw [SMap.get_drop_same, h]
  · exact SMap.get_ins_same m k v d

/-- A read of anything else, whatever its own default. -/
theorem SMap.get_put_ne (m : SMap α) {k j : Nat} (v d e : α) (h : j ≠ k) :
    (m.put k v d).get j e = m.get j e := by
  simp only [SMap.put]
  split
  · exact SMap.get_drop_ne m e h
  · exact SMap.get_ins_ne m v e h

@[simp] theorem SMap.get_upd_same (m : SMap α) (k : Nat) (d : α) (f : α → α) :
    (m.upd k d f).get k d = f (m.get k d) := by simp [SMap.upd]

theorem SMap.get_upd_ne (m : SMap α) {k j : Nat} (d e : α) (f : α → α) (h : j ≠ k) :
    (m.upd k d f).get j e = m.get j e := by simp [SMap.upd, SMap.get_put_ne, h]

/-! ## The canonical form -/

/-- Every key of the map is above k. -/
def SMap.above (k : Nat) (m : SMap α) : Prop := ∀ e ∈ m, k < e.1

omit [DecidableEq α] in
theorem SMap.ins_above {m : SMap α} {b k : Nat} {v : α} (hk : b < k) (h : m.above b) : (m.ins k v).above b := by
  induction m with
  | nil => intro e he; simp [SMap.ins] at he; subst he; exact hk
  | cons x m ih =>
    obtain ⟨j, w⟩ := x
    have hj : b < j := h (j, w) (by simp)
    have hm : SMap.above b m := fun e he => h e (by simp [he])
    simp only [SMap.ins]
    split
    · intro e he; simp at he; rcases he with rfl | rfl | he
      · exact hk
      · exact hj
      · exact hm e he
    · split
      · intro e he; simp at he; rcases he with rfl | he
        · exact hk
        · exact hm e he
      · intro e he; simp at he; rcases he with rfl | he
        · exact hj
        · exact ih hm e he

/-- A canonical map, said with `above`. -/
theorem SMap.wf_cons {d : Nat → α} {j : Nat} {v : α} {m : SMap α} :
    SMap.wf d ((j, v) :: m) = true ↔ v ≠ d j ∧ SMap.above j m ∧ SMap.wf d m = true := by
  induction m generalizing j v with
  | nil => simp [SMap.wf, SMap.above]
  | cons e m ih =>
    obtain ⟨i, w⟩ := e
    rw [SMap.wf]
    simp only [Bool.and_eq_true, bne_iff_ne, ne_eq, decide_eq_true_eq]
    constructor
    · rintro ⟨⟨hv, hji⟩, hm⟩
      refine ⟨hv, ?_, hm⟩
      have := (ih.mp hm).2.1
      intro e he; simp at he; rcases he with rfl | he
      · exact hji
      · exact Nat.lt_trans hji (this e he)
    · rintro ⟨hv, ha, hm⟩
      exact ⟨⟨hv, ha (i, w) (by simp)⟩, hm⟩

theorem SMap.wf_ins {d : Nat → α} {k : Nat} {v : α} (hv : v ≠ d k) :
    ∀ {m : SMap α}, SMap.wf d m = true → SMap.wf d (m.ins k v) = true
  | [], _ => by simp [SMap.ins, SMap.wf, hv]
  | (j, w) :: m, h => by
    obtain ⟨hw, ha, hm⟩ := SMap.wf_cons.mp h
    simp only [SMap.ins]
    split
    · rename_i hkj
      refine SMap.wf_cons.mpr ⟨hv, ?_, h⟩
      intro e he; simp at he; rcases he with rfl | he
      · exact hkj
      · exact Nat.lt_trans hkj (ha e he)
    · split
      · rename_i hkj; subst hkj
        exact SMap.wf_cons.mpr ⟨hv, ha, hm⟩
      · rename_i h1 h2
        exact SMap.wf_cons.mpr ⟨hw, SMap.ins_above (by omega) ha, SMap.wf_ins hv hm⟩

theorem SMap.wf_filter {d : Nat → α} (p : Nat × α → Bool) :
    ∀ {m : SMap α}, SMap.wf d m = true → SMap.wf d (m.filter p) = true
  | [], _ => rfl
  | (j, w) :: m, h => by
    obtain ⟨hw, ha, hm⟩ := SMap.wf_cons.mp h
    simp only [List.filter]
    split
    · refine SMap.wf_cons.mpr ⟨hw, ?_, SMap.wf_filter p hm⟩
      intro e he
      exact ha e (List.mem_filter.mp he).1
    · exact SMap.wf_filter p hm

/-- Every write keeps the canonical form. -/
theorem SMap.wf_put {d : Nat → α} (m : SMap α) (k : Nat) (v : α) (h : SMap.wf d m = true) :
    SMap.wf d (m.put k v (d k)) = true := by
  simp only [SMap.put]
  split
  · exact SMap.wf_filter _ h
  · rename_i hv; exact SMap.wf_ins hv h

end Sys2Proof
end

