-- ==== Sys2Proof/Laws/State.lean ====
section
/-! SUPPORT.
One lemma per field of State per update, and the reads of the keyed parts after a write. -/

namespace Sys2Proof.Machine

variable (s : State)

/-! ### setTile -/

@[simp] theorem setTile_pending (t : Nat) (x : Tile) : (s.setTile t x).pending = s.pending := rfl
@[simp] theorem setTile_time (t : Nat) (x : Tile) : (s.setTile t x).time = s.time := rfl
@[simp] theorem setTile_freeCtr (t : Nat) (x : Tile) : (s.setTile t x).freeCtr = s.freeCtr := rfl
@[simp] theorem setTile_ctxs (t : Nat) (x : Tile) : (s.setTile t x).ctxs = s.ctxs := rfl
@[simp] theorem setTile_hdrs (t : Nat) (x : Tile) : (s.setTile t x).hdrs = s.hdrs := rfl
@[simp] theorem setTile_stats (t : Nat) (x : Tile) : (s.setTile t x).stats = s.stats := rfl
@[simp] theorem setTile_dev (t : Nat) (x : Tile) : (s.setTile t x).dev = s.dev := rfl
@[simp] theorem setTile_log (t : Nat) (x : Tile) : (s.setTile t x).log = s.log := rfl
@[simp] theorem setTile_fresh (t : Nat) (x : Tile) : (s.setTile t x).fresh = s.fresh := rfl
@[simp] theorem setTile_routers (t : Nat) (x : Tile) : (s.setTile t x).routers = s.routers := rfl
@[simp] theorem setTile_rr (t : Nat) (x : Tile) : (s.setTile t x).rr = s.rr := rfl
@[simp] theorem setTile_inbox (t : Nat) (x : Tile) : (s.setTile t x).inbox = s.inbox := rfl
@[simp] theorem setTile_stop (t : Nat) (x : Tile) : (s.setTile t x).stop = s.stop := rfl
@[simp] theorem setTile_lnm (t : Nat) (x : Tile) : (s.setTile t x).lnm = s.lnm := rfl
@[simp] theorem setTile_cast (t : Nat) (x : Tile) : (s.setTile t x).cast = s.cast := rfl
@[simp] theorem setTile_gx (t : Nat) (x : Tile) : (s.setTile t x).gx = s.gx := rfl
@[simp] theorem setTile_gxMask (t : Nat) (x : Tile) : (s.setTile t x).gxMask = s.gxMask := rfl
@[simp] theorem setTile_mov (t : Nat) (x : Tile) : (s.setTile t x).mov = s.mov := rfl
@[simp] theorem setTile_mem (t : Nat) (x : Tile) : (s.setTile t x).mem = s.mem := rfl
@[simp] theorem setTile_pwr (t : Nat) (x : Tile) : (s.setTile t x).pwr = s.pwr := rfl
@[simp] theorem setTile_mgt (t : Nat) (x : Tile) : (s.setTile t x).mgt = s.mgt := rfl
@[simp] theorem setTile_brd (t : Nat) (x : Tile) : (s.setTile t x).brd = s.brd := rfl
@[simp] theorem setTile_ctx (t : Nat) (x : Tile) (k : Nat) : (s.setTile t x).ctx k = s.ctx k := rfl
@[simp] theorem setTile_devReg (t : Nat) (x : Tile) (q o : Nat) : (s.setTile t x).devReg q o = s.devReg q o := rfl
@[simp] theorem setTile_hdr (t : Nat) (x : Tile) (q : Nat) : (s.setTile t x).hdr q = s.hdr q := rfl
@[simp] theorem setTile_present (t : Nat) (x : Tile) (u : Nat) : (s.setTile t x).present u = s.present u := rfl

/-! ### onTile -/

@[simp] theorem onTile_pending (t : Nat) (f : Tile → Tile) : (s.onTile t f).pending = s.pending := rfl
@[simp] theorem onTile_time (t : Nat) (f : Tile → Tile) : (s.onTile t f).time = s.time := rfl
@[simp] theorem onTile_freeCtr (t : Nat) (f : Tile → Tile) : (s.onTile t f).freeCtr = s.freeCtr := rfl
@[simp] theorem onTile_ctxs (t : Nat) (f : Tile → Tile) : (s.onTile t f).ctxs = s.ctxs := rfl
@[simp] theorem onTile_hdrs (t : Nat) (f : Tile → Tile) : (s.onTile t f).hdrs = s.hdrs := rfl
@[simp] theorem onTile_stats (t : Nat) (f : Tile → Tile) : (s.onTile t f).stats = s.stats := rfl
@[simp] theorem onTile_dev (t : Nat) (f : Tile → Tile) : (s.onTile t f).dev = s.dev := rfl
@[simp] theorem onTile_log (t : Nat) (f : Tile → Tile) : (s.onTile t f).log = s.log := rfl
@[simp] theorem onTile_fresh (t : Nat) (f : Tile → Tile) : (s.onTile t f).fresh = s.fresh := rfl
@[simp] theorem onTile_routers (t : Nat) (f : Tile → Tile) : (s.onTile t f).routers = s.routers := rfl
@[simp] theorem onTile_rr (t : Nat) (f : Tile → Tile) : (s.onTile t f).rr = s.rr := rfl
@[simp] theorem onTile_inbox (t : Nat) (f : Tile → Tile) : (s.onTile t f).inbox = s.inbox := rfl
@[simp] theorem onTile_stop (t : Nat) (f : Tile → Tile) : (s.onTile t f).stop = s.stop := rfl
@[simp] theorem onTile_lnm (t : Nat) (f : Tile → Tile) : (s.onTile t f).lnm = s.lnm := rfl
@[simp] theorem onTile_cast (t : Nat) (f : Tile → Tile) : (s.onTile t f).cast = s.cast := rfl
@[simp] theorem onTile_gx (t : Nat) (f : Tile → Tile) : (s.onTile t f).gx = s.gx := rfl
@[simp] theorem onTile_gxMask (t : Nat) (f : Tile → Tile) : (s.onTile t f).gxMask = s.gxMask := rfl
@[simp] theorem onTile_mov (t : Nat) (f : Tile → Tile) : (s.onTile t f).mov = s.mov := rfl
@[simp] theorem onTile_mem (t : Nat) (f : Tile → Tile) : (s.onTile t f).mem = s.mem := rfl
@[simp] theorem onTile_pwr (t : Nat) (f : Tile → Tile) : (s.onTile t f).pwr = s.pwr := rfl
@[simp] theorem onTile_mgt (t : Nat) (f : Tile → Tile) : (s.onTile t f).mgt = s.mgt := rfl
@[simp] theorem onTile_brd (t : Nat) (f : Tile → Tile) : (s.onTile t f).brd = s.brd := rfl
@[simp] theorem onTile_ctx (t : Nat) (f : Tile → Tile) (k : Nat) : (s.onTile t f).ctx k = s.ctx k := rfl
@[simp] theorem onTile_devReg (t : Nat) (f : Tile → Tile) (q o : Nat) : (s.onTile t f).devReg q o = s.devReg q o := rfl
@[simp] theorem onTile_hdr (t : Nat) (f : Tile → Tile) (q : Nat) : (s.onTile t f).hdr q = s.hdr q := rfl
@[simp] theorem onTile_present (t : Nat) (f : Tile → Tile) (u : Nat) : (s.onTile t f).present u = s.present u := rfl

/-! ### onCtx -/

@[simp] theorem onCtx_pending (c : Nat) (f : Ctx → Ctx) : (s.onCtx c f).pending = s.pending := rfl
@[simp] theorem onCtx_time (c : Nat) (f : Ctx → Ctx) : (s.onCtx c f).time = s.time := rfl
@[simp] theorem onCtx_freeCtr (c : Nat) (f : Ctx → Ctx) : (s.onCtx c f).freeCtr = s.freeCtr := rfl
@[simp] theorem onCtx_tiles (c : Nat) (f : Ctx → Ctx) : (s.onCtx c f).tiles = s.tiles := rfl
@[simp] theorem onCtx_hdrs (c : Nat) (f : Ctx → Ctx) : (s.onCtx c f).hdrs = s.hdrs := rfl
@[simp] theorem onCtx_stats (c : Nat) (f : Ctx → Ctx) : (s.onCtx c f).stats = s.stats := rfl
@[simp] theorem onCtx_dev (c : Nat) (f : Ctx → Ctx) : (s.onCtx c f).dev = s.dev := rfl
@[simp] theorem onCtx_log (c : Nat) (f : Ctx → Ctx) : (s.onCtx c f).log = s.log := rfl
@[simp] theorem onCtx_fresh (c : Nat) (f : Ctx → Ctx) : (s.onCtx c f).fresh = s.fresh := rfl
@[simp] theorem onCtx_routers (c : Nat) (f : Ctx → Ctx) : (s.onCtx c f).routers = s.routers := rfl
@[simp] theorem onCtx_rr (c : Nat) (f : Ctx → Ctx) : (s.onCtx c f).rr = s.rr := rfl
@[simp] theorem onCtx_inbox (c : Nat) (f : Ctx → Ctx) : (s.onCtx c f).inbox = s.inbox := rfl
@[simp] theorem onCtx_stop (c : Nat) (f : Ctx → Ctx) : (s.onCtx c f).stop = s.stop := rfl
@[simp] theorem onCtx_lnm (c : Nat) (f : Ctx → Ctx) : (s.onCtx c f).lnm = s.lnm := rfl
@[simp] theorem onCtx_cast (c : Nat) (f : Ctx → Ctx) : (s.onCtx c f).cast = s.cast := rfl
@[simp] theorem onCtx_gx (c : Nat) (f : Ctx → Ctx) : (s.onCtx c f).gx = s.gx := rfl
@[simp] theorem onCtx_gxMask (c : Nat) (f : Ctx → Ctx) : (s.onCtx c f).gxMask = s.gxMask := rfl
@[simp] theorem onCtx_mov (c : Nat) (f : Ctx → Ctx) : (s.onCtx c f).mov = s.mov := rfl
@[simp] theorem onCtx_mem (c : Nat) (f : Ctx → Ctx) : (s.onCtx c f).mem = s.mem := rfl
@[simp] theorem onCtx_pwr (c : Nat) (f : Ctx → Ctx) : (s.onCtx c f).pwr = s.pwr := rfl
@[simp] theorem onCtx_mgt (c : Nat) (f : Ctx → Ctx) : (s.onCtx c f).mgt = s.mgt := rfl
@[simp] theorem onCtx_brd (c : Nat) (f : Ctx → Ctx) : (s.onCtx c f).brd = s.brd := rfl
@[simp] theorem onCtx_tile (c : Nat) (f : Ctx → Ctx) (u : Nat) : (s.onCtx c f).tile u = s.tile u := rfl
@[simp] theorem onCtx_devReg (c : Nat) (f : Ctx → Ctx) (q o : Nat) : (s.onCtx c f).devReg q o = s.devReg q o := rfl
@[simp] theorem onCtx_hdr (c : Nat) (f : Ctx → Ctx) (q : Nat) : (s.onCtx c f).hdr q = s.hdr q := rfl
@[simp] theorem onCtx_present (c : Nat) (f : Ctx → Ctx) (u : Nat) : (s.onCtx c f).present u = s.present u := rfl

/-! ### setDevReg -/

@[simp] theorem setDevReg_pending (pg off : Nat) (v : Word) : (s.setDevReg pg off v).pending = s.pending := rfl
@[simp] theorem setDevReg_time (pg off : Nat) (v : Word) : (s.setDevReg pg off v).time = s.time := rfl
@[simp] theorem setDevReg_freeCtr (pg off : Nat) (v : Word) : (s.setDevReg pg off v).freeCtr = s.freeCtr := rfl
@[simp] theorem setDevReg_tiles (pg off : Nat) (v : Word) : (s.setDevReg pg off v).tiles = s.tiles := rfl
@[simp] theorem setDevReg_ctxs (pg off : Nat) (v : Word) : (s.setDevReg pg off v).ctxs = s.ctxs := rfl
@[simp] theorem setDevReg_hdrs (pg off : Nat) (v : Word) : (s.setDevReg pg off v).hdrs = s.hdrs := rfl
@[simp] theorem setDevReg_stats (pg off : Nat) (v : Word) : (s.setDevReg pg off v).stats = s.stats := rfl
@[simp] theorem setDevReg_log (pg off : Nat) (v : Word) : (s.setDevReg pg off v).log = s.log := rfl
@[simp] theorem setDevReg_fresh (pg off : Nat) (v : Word) : (s.setDevReg pg off v).fresh = s.fresh := rfl
@[simp] theorem setDevReg_routers (pg off : Nat) (v : Word) : (s.setDevReg pg off v).routers = s.routers := rfl
@[simp] theorem setDevReg_rr (pg off : Nat) (v : Word) : (s.setDevReg pg off v).rr = s.rr := rfl
@[simp] theorem setDevReg_inbox (pg off : Nat) (v : Word) : (s.setDevReg pg off v).inbox = s.inbox := rfl
@[simp] theorem setDevReg_stop (pg off : Nat) (v : Word) : (s.setDevReg pg off v).stop = s.stop := rfl
@[simp] theorem setDevReg_lnm (pg off : Nat) (v : Word) : (s.setDevReg pg off v).lnm = s.lnm := rfl
@[simp] theorem setDevReg_cast (pg off : Nat) (v : Word) : (s.setDevReg pg off v).cast = s.cast := rfl
@[simp] theorem setDevReg_gx (pg off : Nat) (v : Word) : (s.setDevReg pg off v).gx = s.gx := rfl
@[simp] theorem setDevReg_gxMask (pg off : Nat) (v : Word) : (s.setDevReg pg off v).gxMask = s.gxMask := rfl
@[simp] theorem setDevReg_mov (pg off : Nat) (v : Word) : (s.setDevReg pg off v).mov = s.mov := rfl
@[simp] theorem setDevReg_mem (pg off : Nat) (v : Word) : (s.setDevReg pg off v).mem = s.mem := rfl
@[simp] theorem setDevReg_pwr (pg off : Nat) (v : Word) : (s.setDevReg pg off v).pwr = s.pwr := rfl
@[simp] theorem setDevReg_mgt (pg off : Nat) (v : Word) : (s.setDevReg pg off v).mgt = s.mgt := rfl
@[simp] theorem setDevReg_brd (pg off : Nat) (v : Word) : (s.setDevReg pg off v).brd = s.brd := rfl
@[simp] theorem setDevReg_tile (pg off : Nat) (v : Word) (u : Nat) : (s.setDevReg pg off v).tile u = s.tile u := rfl
@[simp] theorem setDevReg_ctx (pg off : Nat) (v : Word) (k : Nat) : (s.setDevReg pg off v).ctx k = s.ctx k := rfl
@[simp] theorem setDevReg_hdr (pg off : Nat) (v : Word) (q : Nat) : (s.setDevReg pg off v).hdr q = s.hdr q := rfl
@[simp] theorem setDevReg_present (pg off : Nat) (v : Word) (u : Nat) : (s.setDevReg pg off v).present u = s.present u := rfl

/-! ### onHdr -/

@[simp] theorem onHdr_pending (pg : Nat) (f : Hdr → Hdr) : (s.onHdr pg f).pending = s.pending := rfl
@[simp] theorem onHdr_time (pg : Nat) (f : Hdr → Hdr) : (s.onHdr pg f).time = s.time := rfl
@[simp] theorem onHdr_freeCtr (pg : Nat) (f : Hdr → Hdr) : (s.onHdr pg f).freeCtr = s.freeCtr := rfl
@[simp] theorem onHdr_tiles (pg : Nat) (f : Hdr → Hdr) : (s.onHdr pg f).tiles = s.tiles := rfl
@[simp] theorem onHdr_ctxs (pg : Nat) (f : Hdr → Hdr) : (s.onHdr pg f).ctxs = s.ctxs := rfl
@[simp] theorem onHdr_stats (pg : Nat) (f : Hdr → Hdr) : (s.onHdr pg f).stats = s.stats := rfl
@[simp] theorem onHdr_dev (pg : Nat) (f : Hdr → Hdr) : (s.onHdr pg f).dev = s.dev := rfl
@[simp] theorem onHdr_log (pg : Nat) (f : Hdr → Hdr) : (s.onHdr pg f).log = s.log := rfl
@[simp] theorem onHdr_fresh (pg : Nat) (f : Hdr → Hdr) : (s.onHdr pg f).fresh = s.fresh := rfl
@[simp] theorem onHdr_routers (pg : Nat) (f : Hdr → Hdr) : (s.onHdr pg f).routers = s.routers := rfl
@[simp] theorem onHdr_rr (pg : Nat) (f : Hdr → Hdr) : (s.onHdr pg f).rr = s.rr := rfl
@[simp] theorem onHdr_inbox (pg : Nat) (f : Hdr → Hdr) : (s.onHdr pg f).inbox = s.inbox := rfl
@[simp] theorem onHdr_stop (pg : Nat) (f : Hdr → Hdr) : (s.onHdr pg f).stop = s.stop := rfl
@[simp] theorem onHdr_lnm (pg : Nat) (f : Hdr → Hdr) : (s.onHdr pg f).lnm = s.lnm := rfl
@[simp] theorem onHdr_cast (pg : Nat) (f : Hdr → Hdr) : (s.onHdr pg f).cast = s.cast := rfl
@[simp] theorem onHdr_gx (pg : Nat) (f : Hdr → Hdr) : (s.onHdr pg f).gx = s.gx := rfl
@[simp] theorem onHdr_gxMask (pg : Nat) (f : Hdr → Hdr) : (s.onHdr pg f).gxMask = s.gxMask := rfl
@[simp] theorem onHdr_mov (pg : Nat) (f : Hdr → Hdr) : (s.onHdr pg f).mov = s.mov := rfl
@[simp] theorem onHdr_mem (pg : Nat) (f : Hdr → Hdr) : (s.onHdr pg f).mem = s.mem := rfl
@[simp] theorem onHdr_pwr (pg : Nat) (f : Hdr → Hdr) : (s.onHdr pg f).pwr = s.pwr := rfl
@[simp] theorem onHdr_mgt (pg : Nat) (f : Hdr → Hdr) : (s.onHdr pg f).mgt = s.mgt := rfl
@[simp] theorem onHdr_brd (pg : Nat) (f : Hdr → Hdr) : (s.onHdr pg f).brd = s.brd := rfl
@[simp] theorem onHdr_tile (pg : Nat) (f : Hdr → Hdr) (u : Nat) : (s.onHdr pg f).tile u = s.tile u := rfl
@[simp] theorem onHdr_ctx (pg : Nat) (f : Hdr → Hdr) (k : Nat) : (s.onHdr pg f).ctx k = s.ctx k := rfl
@[simp] theorem onHdr_devReg (pg : Nat) (f : Hdr → Hdr) (q o : Nat) : (s.onHdr pg f).devReg q o = s.devReg q o := rfl
@[simp] theorem onHdr_present (pg : Nat) (f : Hdr → Hdr) (u : Nat) : (s.onHdr pg f).present u = s.present u := rfl

/-! ### stat -/

@[simp] theorem stat_pending (pg off n : Nat) : (s.stat pg off n).pending = s.pending := rfl
@[simp] theorem stat_time (pg off n : Nat) : (s.stat pg off n).time = s.time := rfl
@[simp] theorem stat_freeCtr (pg off n : Nat) : (s.stat pg off n).freeCtr = s.freeCtr := rfl
@[simp] theorem stat_tiles (pg off n : Nat) : (s.stat pg off n).tiles = s.tiles := rfl
@[simp] theorem stat_ctxs (pg off n : Nat) : (s.stat pg off n).ctxs = s.ctxs := rfl
@[simp] theorem stat_hdrs (pg off n : Nat) : (s.stat pg off n).hdrs = s.hdrs := rfl
@[simp] theorem stat_dev (pg off n : Nat) : (s.stat pg off n).dev = s.dev := rfl
@[simp] theorem stat_log (pg off n : Nat) : (s.stat pg off n).log = s.log := rfl
@[simp] theorem stat_fresh (pg off n : Nat) : (s.stat pg off n).fresh = s.fresh := rfl
@[simp] theorem stat_routers (pg off n : Nat) : (s.stat pg off n).routers = s.routers := rfl
@[simp] theorem stat_rr (pg off n : Nat) : (s.stat pg off n).rr = s.rr := rfl
@[simp] theorem stat_inbox (pg off n : Nat) : (s.stat pg off n).inbox = s.inbox := rfl
@[simp] theorem stat_stop (pg off n : Nat) : (s.stat pg off n).stop = s.stop := rfl
@[simp] theorem stat_lnm (pg off n : Nat) : (s.stat pg off n).lnm = s.lnm := rfl
@[simp] theorem stat_cast (pg off n : Nat) : (s.stat pg off n).cast = s.cast := rfl
@[simp] theorem stat_gx (pg off n : Nat) : (s.stat pg off n).gx = s.gx := rfl
@[simp] theorem stat_gxMask (pg off n : Nat) : (s.stat pg off n).gxMask = s.gxMask := rfl
@[simp] theorem stat_mov (pg off n : Nat) : (s.stat pg off n).mov = s.mov := rfl
@[simp] theorem stat_mem (pg off n : Nat) : (s.stat pg off n).mem = s.mem := rfl
@[simp] theorem stat_pwr (pg off n : Nat) : (s.stat pg off n).pwr = s.pwr := rfl
@[simp] theorem stat_mgt (pg off n : Nat) : (s.stat pg off n).mgt = s.mgt := rfl
@[simp] theorem stat_brd (pg off n : Nat) : (s.stat pg off n).brd = s.brd := rfl
@[simp] theorem stat_tile (pg off n : Nat) (u : Nat) : (s.stat pg off n).tile u = s.tile u := rfl
@[simp] theorem stat_ctx (pg off n : Nat) (k : Nat) : (s.stat pg off n).ctx k = s.ctx k := rfl
@[simp] theorem stat_devReg (pg off n : Nat) (q o : Nat) : (s.stat pg off n).devReg q o = s.devReg q o := rfl
@[simp] theorem stat_hdr (pg off n : Nat) (q : Nat) : (s.stat pg off n).hdr q = s.hdr q := rfl
@[simp] theorem stat_present (pg off n : Nat) (u : Nat) : (s.stat pg off n).present u = s.present u := rfl

/-! ### queue -/

@[simp] theorem queue_time (l : List Instr) : (s.queue l).time = s.time := rfl
@[simp] theorem queue_freeCtr (l : List Instr) : (s.queue l).freeCtr = s.freeCtr := rfl
@[simp] theorem queue_tiles (l : List Instr) : (s.queue l).tiles = s.tiles := rfl
@[simp] theorem queue_ctxs (l : List Instr) : (s.queue l).ctxs = s.ctxs := rfl
@[simp] theorem queue_hdrs (l : List Instr) : (s.queue l).hdrs = s.hdrs := rfl
@[simp] theorem queue_stats (l : List Instr) : (s.queue l).stats = s.stats := rfl
@[simp] theorem queue_dev (l : List Instr) : (s.queue l).dev = s.dev := rfl
@[simp] theorem queue_log (l : List Instr) : (s.queue l).log = s.log := rfl
@[simp] theorem queue_fresh (l : List Instr) : (s.queue l).fresh = s.fresh := rfl
@[simp] theorem queue_routers (l : List Instr) : (s.queue l).routers = s.routers := rfl
@[simp] theorem queue_rr (l : List Instr) : (s.queue l).rr = s.rr := rfl
@[simp] theorem queue_inbox (l : List Instr) : (s.queue l).inbox = s.inbox := rfl
@[simp] theorem queue_stop (l : List Instr) : (s.queue l).stop = s.stop := rfl
@[simp] theorem queue_lnm (l : List Instr) : (s.queue l).lnm = s.lnm := rfl
@[simp] theorem queue_cast (l : List Instr) : (s.queue l).cast = s.cast := rfl
@[simp] theorem queue_gx (l : List Instr) : (s.queue l).gx = s.gx := rfl
@[simp] theorem queue_gxMask (l : List Instr) : (s.queue l).gxMask = s.gxMask := rfl
@[simp] theorem queue_mov (l : List Instr) : (s.queue l).mov = s.mov := rfl
@[simp] theorem queue_mem (l : List Instr) : (s.queue l).mem = s.mem := rfl
@[simp] theorem queue_pwr (l : List Instr) : (s.queue l).pwr = s.pwr := rfl
@[simp] theorem queue_mgt (l : List Instr) : (s.queue l).mgt = s.mgt := rfl
@[simp] theorem queue_brd (l : List Instr) : (s.queue l).brd = s.brd := rfl
@[simp] theorem queue_tile (l : List Instr) (u : Nat) : (s.queue l).tile u = s.tile u := rfl
@[simp] theorem queue_ctx (l : List Instr) (k : Nat) : (s.queue l).ctx k = s.ctx k := rfl
@[simp] theorem queue_devReg (l : List Instr) (q o : Nat) : (s.queue l).devReg q o = s.devReg q o := rfl
@[simp] theorem queue_hdr (l : List Instr) (q : Nat) : (s.queue l).hdr q = s.hdr q := rfl
@[simp] theorem queue_present (l : List Instr) (u : Nat) : (s.queue l).present u = s.present u := rfl

/-! ### enqueue and sendAll -/

@[simp] theorem enqueue_pending (n i : Nat) (ps : List Packet) : (enqueue n i ps s).pending = s.pending := rfl
@[simp] theorem enqueue_time (n i : Nat) (ps : List Packet) : (enqueue n i ps s).time = s.time := rfl
@[simp] theorem enqueue_freeCtr (n i : Nat) (ps : List Packet) : (enqueue n i ps s).freeCtr = s.freeCtr := rfl
@[simp] theorem enqueue_tiles (n i : Nat) (ps : List Packet) : (enqueue n i ps s).tiles = s.tiles := rfl
@[simp] theorem enqueue_ctxs (n i : Nat) (ps : List Packet) : (enqueue n i ps s).ctxs = s.ctxs := rfl
@[simp] theorem enqueue_hdrs (n i : Nat) (ps : List Packet) : (enqueue n i ps s).hdrs = s.hdrs := rfl
@[simp] theorem enqueue_stats (n i : Nat) (ps : List Packet) : (enqueue n i ps s).stats = s.stats := rfl
@[simp] theorem enqueue_dev (n i : Nat) (ps : List Packet) : (enqueue n i ps s).dev = s.dev := rfl
@[simp] theorem enqueue_log (n i : Nat) (ps : List Packet) : (enqueue n i ps s).log = s.log := rfl
@[simp] theorem enqueue_fresh (n i : Nat) (ps : List Packet) : (enqueue n i ps s).fresh = s.fresh := rfl
@[simp] theorem enqueue_rr (n i : Nat) (ps : List Packet) : (enqueue n i ps s).rr = s.rr := rfl
@[simp] theorem enqueue_inbox (n i : Nat) (ps : List Packet) : (enqueue n i ps s).inbox = s.inbox := rfl
@[simp] theorem enqueue_stop (n i : Nat) (ps : List Packet) : (enqueue n i ps s).stop = s.stop := rfl
@[simp] theorem enqueue_lnm (n i : Nat) (ps : List Packet) : (enqueue n i ps s).lnm = s.lnm := rfl
@[simp] theorem enqueue_cast (n i : Nat) (ps : List Packet) : (enqueue n i ps s).cast = s.cast := rfl
@[simp] theorem enqueue_gx (n i : Nat) (ps : List Packet) : (enqueue n i ps s).gx = s.gx := rfl
@[simp] theorem enqueue_gxMask (n i : Nat) (ps : List Packet) : (enqueue n i ps s).gxMask = s.gxMask := rfl
@[simp] theorem enqueue_mov (n i : Nat) (ps : List Packet) : (enqueue n i ps s).mov = s.mov := rfl
@[simp] theorem enqueue_mem (n i : Nat) (ps : List Packet) : (enqueue n i ps s).mem = s.mem := rfl
@[simp] theorem enqueue_pwr (n i : Nat) (ps : List Packet) : (enqueue n i ps s).pwr = s.pwr := rfl
@[simp] theorem enqueue_mgt (n i : Nat) (ps : List Packet) : (enqueue n i ps s).mgt = s.mgt := rfl
@[simp] theorem enqueue_brd (n i : Nat) (ps : List Packet) : (enqueue n i ps s).brd = s.brd := rfl
@[simp] theorem enqueue_tile (n i : Nat) (ps : List Packet) (u : Nat) : (enqueue n i ps s).tile u = s.tile u := rfl
@[simp] theorem enqueue_ctx (n i : Nat) (ps : List Packet) (k : Nat) : (enqueue n i ps s).ctx k = s.ctx k := rfl
@[simp] theorem enqueue_devReg (n i : Nat) (ps : List Packet) (q o : Nat) : (enqueue n i ps s).devReg q o = s.devReg q o := rfl
@[simp] theorem enqueue_hdr (n i : Nat) (ps : List Packet) (q : Nat) : (enqueue n i ps s).hdr q = s.hdr q := rfl
@[simp] theorem enqueue_present (n i : Nat) (ps : List Packet) (u : Nat) : (enqueue n i ps s).present u = s.present u := rfl

@[simp] theorem sendAll_pending (ms : List Msg) : (sendAll ms s).pending = s.pending := rfl
@[simp] theorem sendAll_time (ms : List Msg) : (sendAll ms s).time = s.time := rfl
@[simp] theorem sendAll_freeCtr (ms : List Msg) : (sendAll ms s).freeCtr = s.freeCtr := rfl
@[simp] theorem sendAll_tiles (ms : List Msg) : (sendAll ms s).tiles = s.tiles := rfl
@[simp] theorem sendAll_ctxs (ms : List Msg) : (sendAll ms s).ctxs = s.ctxs := rfl
@[simp] theorem sendAll_hdrs (ms : List Msg) : (sendAll ms s).hdrs = s.hdrs := rfl
@[simp] theorem sendAll_stats (ms : List Msg) : (sendAll ms s).stats = s.stats := rfl
@[simp] theorem sendAll_dev (ms : List Msg) : (sendAll ms s).dev = s.dev := rfl
@[simp] theorem sendAll_log (ms : List Msg) : (sendAll ms s).log = s.log := rfl
@[simp] theorem sendAll_fresh (ms : List Msg) : (sendAll ms s).fresh = s.fresh := rfl
@[simp] theorem sendAll_rr (ms : List Msg) : (sendAll ms s).rr = s.rr := rfl
@[simp] theorem sendAll_inbox (ms : List Msg) : (sendAll ms s).inbox = s.inbox := rfl
@[simp] theorem sendAll_stop (ms : List Msg) : (sendAll ms s).stop = s.stop := rfl
@[simp] theorem sendAll_lnm (ms : List Msg) : (sendAll ms s).lnm = s.lnm := rfl
@[simp] theorem sendAll_cast (ms : List Msg) : (sendAll ms s).cast = s.cast := rfl
@[simp] theorem sendAll_gx (ms : List Msg) : (sendAll ms s).gx = s.gx := rfl
@[simp] theorem sendAll_gxMask (ms : List Msg) : (sendAll ms s).gxMask = s.gxMask := rfl
@[simp] theorem sendAll_mov (ms : List Msg) : (sendAll ms s).mov = s.mov := rfl
@[simp] theorem sendAll_mem (ms : List Msg) : (sendAll ms s).mem = s.mem := rfl
@[simp] theorem sendAll_pwr (ms : List Msg) : (sendAll ms s).pwr = s.pwr := rfl
@[simp] theorem sendAll_mgt (ms : List Msg) : (sendAll ms s).mgt = s.mgt := rfl
@[simp] theorem sendAll_brd (ms : List Msg) : (sendAll ms s).brd = s.brd := rfl
@[simp] theorem sendAll_tile (ms : List Msg) (u : Nat) : (sendAll ms s).tile u = s.tile u := rfl
@[simp] theorem sendAll_ctx (ms : List Msg) (k : Nat) : (sendAll ms s).ctx k = s.ctx k := rfl
@[simp] theorem sendAll_devReg (ms : List Msg) (q o : Nat) : (sendAll ms s).devReg q o = s.devReg q o := rfl
@[simp] theorem sendAll_hdr (ms : List Msg) (q : Nat) : (sendAll ms s).hdr q = s.hdr q := rfl
@[simp] theorem sendAll_present (ms : List Msg) (u : Nat) : (sendAll ms s).present u = s.present u := rfl

@[simp] theorem enqueue_same (n i : Nat) (ps : List Packet) :
    (enqueue n i ps s).routers.get (rkeyOf n i) [] = s.routers.get (rkeyOf n i) [] ++ ps := by
  simp [enqueue]

theorem enqueue_ne (n i : Nat) (ps : List Packet) {k : Nat} (h : k ≠ rkeyOf n i) :
    (enqueue n i ps s).routers.get k [] = s.routers.get k [] := by
  simp [enqueue, SMap.get_upd_ne, h]

/-! ### markDebugged -/

@[simp] theorem markDebugged_pending : (markDebugged s).pending = s.pending := rfl
@[simp] theorem markDebugged_time : (markDebugged s).time = s.time := rfl
@[simp] theorem markDebugged_freeCtr : (markDebugged s).freeCtr = s.freeCtr := rfl
@[simp] theorem markDebugged_tiles : (markDebugged s).tiles = s.tiles := rfl
@[simp] theorem markDebugged_ctxs : (markDebugged s).ctxs = s.ctxs := rfl
@[simp] theorem markDebugged_hdrs : (markDebugged s).hdrs = s.hdrs := rfl
@[simp] theorem markDebugged_stats : (markDebugged s).stats = s.stats := rfl
@[simp] theorem markDebugged_dev : (markDebugged s).dev = s.dev := rfl
@[simp] theorem markDebugged_log : (markDebugged s).log = s.log := rfl
@[simp] theorem markDebugged_fresh : (markDebugged s).fresh = s.fresh := rfl
@[simp] theorem markDebugged_routers : (markDebugged s).routers = s.routers := rfl
@[simp] theorem markDebugged_rr : (markDebugged s).rr = s.rr := rfl
@[simp] theorem markDebugged_inbox : (markDebugged s).inbox = s.inbox := rfl
@[simp] theorem markDebugged_stop : (markDebugged s).stop = s.stop := rfl
@[simp] theorem markDebugged_lnm : (markDebugged s).lnm = s.lnm := rfl
@[simp] theorem markDebugged_cast : (markDebugged s).cast = s.cast := rfl
@[simp] theorem markDebugged_gx : (markDebugged s).gx = s.gx := rfl
@[simp] theorem markDebugged_gxMask : (markDebugged s).gxMask = s.gxMask := rfl
@[simp] theorem markDebugged_mov : (markDebugged s).mov = s.mov := rfl
@[simp] theorem markDebugged_mem : (markDebugged s).mem = s.mem := rfl
@[simp] theorem markDebugged_pwr : (markDebugged s).pwr = s.pwr := rfl
@[simp] theorem markDebugged_brd : (markDebugged s).brd = s.brd := rfl
@[simp] theorem markDebugged_tile (u : Nat) : (markDebugged s).tile u = s.tile u := rfl
@[simp] theorem markDebugged_ctx (k : Nat) : (markDebugged s).ctx k = s.ctx k := rfl
@[simp] theorem markDebugged_devReg (q o : Nat) : (markDebugged s).devReg q o = s.devReg q o := rfl
@[simp] theorem markDebugged_hdr (q : Nat) : (markDebugged s).hdr q = s.hdr q := rfl
@[simp] theorem markDebugged_present (u : Nat) : (markDebugged s).present u = s.present u := rfl

/-! ### noteSet -/

@[simp] theorem noteSet_pending (k : Nat) (b : Word) : (noteSet k b s).pending = s.pending := rfl
@[simp] theorem noteSet_time (k : Nat) (b : Word) : (noteSet k b s).time = s.time := rfl
@[simp] theorem noteSet_freeCtr (k : Nat) (b : Word) : (noteSet k b s).freeCtr = s.freeCtr := rfl
@[simp] theorem noteSet_tiles (k : Nat) (b : Word) : (noteSet k b s).tiles = s.tiles := rfl
@[simp] theorem noteSet_ctxs (k : Nat) (b : Word) : (noteSet k b s).ctxs = s.ctxs := rfl
@[simp] theorem noteSet_hdrs (k : Nat) (b : Word) : (noteSet k b s).hdrs = s.hdrs := rfl
@[simp] theorem noteSet_stats (k : Nat) (b : Word) : (noteSet k b s).stats = s.stats := rfl
@[simp] theorem noteSet_dev (k : Nat) (b : Word) : (noteSet k b s).dev = s.dev := rfl
@[simp] theorem noteSet_log (k : Nat) (b : Word) : (noteSet k b s).log = s.log := rfl
@[simp] theorem noteSet_routers (k : Nat) (b : Word) : (noteSet k b s).routers = s.routers := rfl
@[simp] theorem noteSet_rr (k : Nat) (b : Word) : (noteSet k b s).rr = s.rr := rfl
@[simp] theorem noteSet_inbox (k : Nat) (b : Word) : (noteSet k b s).inbox = s.inbox := rfl
@[simp] theorem noteSet_stop (k : Nat) (b : Word) : (noteSet k b s).stop = s.stop := rfl
@[simp] theorem noteSet_lnm (k : Nat) (b : Word) : (noteSet k b s).lnm = s.lnm := rfl
@[simp] theorem noteSet_cast (k : Nat) (b : Word) : (noteSet k b s).cast = s.cast := rfl
@[simp] theorem noteSet_gx (k : Nat) (b : Word) : (noteSet k b s).gx = s.gx := rfl
@[simp] theorem noteSet_gxMask (k : Nat) (b : Word) : (noteSet k b s).gxMask = s.gxMask := rfl
@[simp] theorem noteSet_mov (k : Nat) (b : Word) : (noteSet k b s).mov = s.mov := rfl
@[simp] theorem noteSet_mem (k : Nat) (b : Word) : (noteSet k b s).mem = s.mem := rfl
@[simp] theorem noteSet_pwr (k : Nat) (b : Word) : (noteSet k b s).pwr = s.pwr := rfl
@[simp] theorem noteSet_mgt (k : Nat) (b : Word) : (noteSet k b s).mgt = s.mgt := rfl
@[simp] theorem noteSet_brd (k : Nat) (b : Word) : (noteSet k b s).brd = s.brd := rfl
@[simp] theorem noteSet_tile (k : Nat) (b : Word) (u : Nat) : (noteSet k b s).tile u = s.tile u := rfl
@[simp] theorem noteSet_ctx (k : Nat) (b : Word) (j : Nat) : (noteSet k b s).ctx j = s.ctx j := rfl
@[simp] theorem noteSet_devReg (k : Nat) (b : Word) (q o : Nat) : (noteSet k b s).devReg q o = s.devReg q o := rfl
@[simp] theorem noteSet_hdr (k : Nat) (b : Word) (q : Nat) : (noteSet k b s).hdr q = s.hdr q := rfl
@[simp] theorem noteSet_present (k : Nat) (b : Word) (u : Nat) : (noteSet k b s).present u = s.present u := rfl

/-! ### The keyed parts after a write -/

@[simp] theorem setTile_tile_same (t : Nat) (x : Tile) : (s.setTile t x).tile t = x := by
  simp [State.setTile, State.tile]

theorem setTile_tile_ne {t u : Nat} (x : Tile) (h : u ≠ t) : (s.setTile t x).tile u = s.tile u := by
  simp [State.setTile, State.tile, SMap.get_put_ne, h]

@[simp] theorem onTile_tile_same (t : Nat) (f : Tile → Tile) : (s.onTile t f).tile t = f (s.tile t) := by
  simp [State.onTile]

theorem onTile_tile_ne {t u : Nat} (f : Tile → Tile) (h : u ≠ t) : (s.onTile t f).tile u = s.tile u := by
  simp [State.onTile, setTile_tile_ne, h]

@[simp] theorem onCtx_ctx_same (c : Nat) (f : Ctx → Ctx) : (s.onCtx c f).ctx c = f (s.ctx c) := by
  simp [State.onCtx, State.ctx]

theorem onCtx_ctx_ne {c k : Nat} (f : Ctx → Ctx) (h : k ≠ c) : (s.onCtx c f).ctx k = s.ctx k := by
  simp [State.onCtx, State.ctx, SMap.get_upd_ne, h]

@[simp] theorem setDevReg_devReg_same (pg off : Nat) (v : Word) :
    (s.setDevReg pg off v).devReg pg off = v := by
  simp [State.setDevReg, State.devReg]

theorem setDevReg_devReg_ne {pg off q o : Nat} (v : Word) (h : rkey q o ≠ rkey pg off) :
    (s.setDevReg pg off v).devReg q o = s.devReg q o := by
  simp [State.setDevReg, State.devReg, SMap.get_put_ne, h]

@[simp] theorem onHdr_hdr_same (pg : Nat) (f : Hdr → Hdr) : (s.onHdr pg f).hdr pg = f (s.hdr pg) := by
  simp [State.onHdr, State.hdr]

theorem onHdr_hdr_ne {pg q : Nat} (f : Hdr → Hdr) (h : q ≠ pg) : (s.onHdr pg f).hdr q = s.hdr q := by
  simp [State.onHdr, State.hdr, SMap.get_upd_ne, h]

/-- Which tiles the part has depends on the repair maps alone (R66). -/
@[simp] theorem physCol_eq_of_pwr {s s' : State} (h : s'.pwr = s.pwr) (d c : Nat) :
    s'.physCol d c = s.physCol d c := by simp [State.physCol, h]

theorem present_eq_of_pwr {s s' : State} (h : s'.pwr = s.pwr) (t : Nat) : s'.present t = s.present t := by
  simp [State.present, State.physCol, h]

/-- A command over a tile of the part answers the state its meaning gives. -/
theorem atTile_next {s : State} {t : Nat} (h : s.present t = true) (f : State → State) :
    s.atTile t f = .next (f s) := by simp [State.atTile, h]

/-- A command over a tile that the part does not have stops (R18). -/
theorem atTile_absent {s : State} {t : Nat} (h : s.present t = false) (f : State → State) :
    s.atTile t f = .fault .noSuchTile := by simp [State.atTile, h]

/-- A command over a tile answers only what its meaning gives, for a tile of the part. -/
theorem atTile_cases {s s' : State} {t : Nat} {f : State → State} (h : s.atTile t f = .next s') :
    s.present t = true ∧ s' = f s := by
  unfold State.atTile at h
  split at h
  · rename_i hp; injection h with h; exact ⟨hp, h.symm⟩
  · cases h

end Sys2Proof.Machine
end

