-- ==== Sys2Proof/Laws/Report.lean ====
section
/-! SUPPORT.
What a report touches: the raising of a CORRECTED error and an event record change page headers, the
error log, the port queues and their statistics, and nothing else. -/

namespace Sys2Proof.Machine

/-- Two states that differ in page headers, statistics, device registers, the log and the Laniem
ports at most. -/
structure Reported (s s' : State) : Prop where
  pending : s'.pending = s.pending
  time : s'.time = s.time
  freeCtr : s'.freeCtr = s.freeCtr
  tiles : s'.tiles = s.tiles
  ctxs : s'.ctxs = s.ctxs
  routers : s'.routers = s.routers
  rr : s'.rr = s.rr
  fresh : s'.fresh = s.fresh
  inbox : s'.inbox = s.inbox
  stop : s'.stop = s.stop
  cast : s'.cast = s.cast
  gx : s'.gx = s.gx
  gxMask : s'.gxMask = s.gxMask
  mov : s'.mov = s.mov
  mem : s'.mem = s.mem
  pwr : s'.pwr = s.pwr
  mgt : s'.mgt = s.mgt
  brd : s'.brd = s.brd

theorem Reported.refl (s : State) : Reported s s := by constructor <;> rfl

theorem Reported.trans {a b c : State} (h : Reported a b) (g : Reported b c) : Reported a c :=
  ⟨g.pending.trans h.pending,
    g.time.trans h.time,
    g.freeCtr.trans h.freeCtr,
    g.tiles.trans h.tiles,
    g.ctxs.trans h.ctxs,
    g.routers.trans h.routers,
    g.rr.trans h.rr,
    g.fresh.trans h.fresh,
    g.inbox.trans h.inbox,
    g.stop.trans h.stop,
    g.cast.trans h.cast,
    g.gx.trans h.gx,
    g.gxMask.trans h.gxMask,
    g.mov.trans h.mov,
    g.mem.trans h.mem,
    g.pwr.trans h.pwr,
    g.mgt.trans h.mgt,
    g.brd.trans h.brd⟩

theorem Reported.tile {a b : State} (h : Reported a b) (t : Nat) : b.tile t = a.tile t := by
  simp [State.tile, h.tiles]

theorem Reported.ctx {a b : State} (h : Reported a b) (c : Nat) : b.ctx c = a.ctx c := by
  simp [State.ctx, h.ctxs]

theorem Reported.present {a b : State} (h : Reported a b) (t : Nat) : b.present t = a.present t :=
  present_eq_of_pwr h.pwr t

/-- A fold whose every step only reports only reports. -/
theorem Reported.foldl {ι : Type} (f : State → ι → State) (h : ∀ s i, Reported s (f s i)) :
    ∀ (l : List ι) (s : State), Reported s (l.foldl f s)
  | [], s => Reported.refl s
  | i :: l, s => (h s i).trans (Reported.foldl f h l (f s i))

theorem stat_reported (pg off n : Nat) (s : State) : Reported s (s.stat pg off n) := by
  constructor <;> rfl

theorem setDevReg_reported (pg off : Nat) (v : Word) (s : State) : Reported s (s.setDevReg pg off v) := by
  constructor <;> rfl

theorem markErr_reported (pg : Nat) (e : Err) (info : Word) (s : State) :
    Reported s (markErr pg e info s) := by
  unfold markErr
  split
  · exact Reported.refl s
  · constructor <;> rfl

theorem queueEvent_reported (p kind : Nat) (c : Option Nat) (ws : List Word) (s : State) :
    Reported s (queueEvent p kind c ws s) := by
  unfold queueEvent; dsimp only; split <;> constructor <;> rfl

theorem emit_reported (kind : Nat) (c : Option Nat) (ws : List Word) (save : Option Nat) (s : State) :
    Reported s (emit kind c ws save s) := by
  unfold emit
  refine Reported.foldl _ (fun s p => ?_) _ s
  split
  · exact queueEvent_reported ..
  · exact Reported.refl s

theorem logOne_reported (pg : Nat) (e : Err) (info : Word) (charge : Option Nat) (action : Nat) (s : State) :
    Reported s (logOne pg e info charge action s).1 := by
  unfold logOne
  refine Reported.trans ?_ (Reported.foldl _ (fun s p => ?_) _ _)
  · split
    · constructor <;> rfl
    · constructor <;> rfl
  · dsimp only
    split
    · exact queueEvent_reported ..
    · exact Reported.refl s

/-- A CORRECTED error only reports (R351): nothing is stopped, dropped or restarted. -/
theorem raiseF_corrected (pg : Nat) (e : Err) (items : List (Nat × Nat)) (charge : Option Nat) (flag : Bool)
    (s : State) (he : e.cls = .corrected) : Reported s (raiseF pg e items charge flag s) := by
  have hh : ∀ c s, handleErr e c s = (0, s) := by
    intro c s; unfold handleErr; split
    · rfl
    · simp [he]
  unfold raiseF
  dsimp only
  have h1 := markErr_reported pg e (errInfo e items flag) s
  generalize markErr pg e (errInfo e items flag) s = s1 at h1 ⊢
  rw [hh]
  generalize hc : (if e.cls == ErrClass.context then charge else none) = ch
  clear hc
  have h2 := h1.trans (logOne_reported pg e (errInfo e items flag) ch 0 s1)
  generalize logOne pg e (errInfo e items flag) ch 0 s1 = r at h2 ⊢
  have h3 := h2.trans (markErr_reported pgErr .logOverflow (errInfo .logOverflow [] false) r.1)
  generalize markErr pgErr .logOverflow (errInfo .logOverflow [] false) r.1 = s3 at h3 ⊢
  have h4 := h3.trans (logOne_reported pgErr .logOverflow (errInfo .logOverflow [] false) none 0 s3)
  split
  · exact h1
  · split
    · split
      · exact h3
      · exact h4
    · exact h2

theorem raise_corrected (pg : Nat) (e : Err) (items : List (Nat × Nat)) (charge : Option Nat) (s : State)
    (he : e.cls = .corrected) : Reported s (raise pg e items charge s) := raiseF_corrected _ _ _ _ _ _ he

/-- What reading a unit before acting on it changes (R498): beside a report, the counter of the open
values and the processor's own copies. -/
theorem readFirst_spec (pg off : Nat) (v : Word) (s : State) :
    Reported { s with freeCtr := s.freeCtr + 1,
                      mgt := { s.mgt with copies := s.mgt.copies.put (rkey pg off) v.toNat 0 } }
      (readFirst pg off v s) := by
  unfold readFirst
  dsimp only
  generalize (if Config.noticed s.freeCtr = true then v.toNat else s.mgt.copies.get (rkey pg off) 0) = old
  split
  · exact Reported.refl _
  · exact raise_corrected _ _ _ _ _ rfl

@[simp] theorem readFirst_tiles (pg off : Nat) (v : Word) (s : State) : (readFirst pg off v s).tiles = s.tiles :=
  (readFirst_spec pg off v s).tiles
@[simp] theorem readFirst_tile (pg off : Nat) (v : Word) (s : State) (t : Nat) :
    (readFirst pg off v s).tile t = s.tile t := (readFirst_spec pg off v s).tile t
@[simp] theorem readFirst_ctxs (pg off : Nat) (v : Word) (s : State) : (readFirst pg off v s).ctxs = s.ctxs :=
  (readFirst_spec pg off v s).ctxs
@[simp] theorem readFirst_ctx (pg off : Nat) (v : Word) (s : State) (c : Nat) :
    (readFirst pg off v s).ctx c = s.ctx c := (readFirst_spec pg off v s).ctx c
@[simp] theorem readFirst_present (pg off : Nat) (v : Word) (s : State) (t : Nat) :
    (readFirst pg off v s).present t = s.present t := (readFirst_spec pg off v s).present t
@[simp] theorem readFirst_pwr (pg off : Nat) (v : Word) (s : State) : (readFirst pg off v s).pwr = s.pwr :=
  (readFirst_spec pg off v s).pwr
@[simp] theorem readFirst_mem (pg off : Nat) (v : Word) (s : State) : (readFirst pg off v s).mem = s.mem :=
  (readFirst_spec pg off v s).mem
@[simp] theorem readFirst_mov (pg off : Nat) (v : Word) (s : State) : (readFirst pg off v s).mov = s.mov :=
  (readFirst_spec pg off v s).mov
@[simp] theorem readFirst_cast (pg off : Nat) (v : Word) (s : State) : (readFirst pg off v s).cast = s.cast :=
  (readFirst_spec pg off v s).cast
@[simp] theorem readFirst_gx (pg off : Nat) (v : Word) (s : State) : (readFirst pg off v s).gx = s.gx :=
  (readFirst_spec pg off v s).gx
@[simp] theorem readFirst_gxMask (pg off : Nat) (v : Word) (s : State) : (readFirst pg off v s).gxMask = s.gxMask :=
  (readFirst_spec pg off v s).gxMask
@[simp] theorem readFirst_routers (pg off : Nat) (v : Word) (s : State) : (readFirst pg off v s).routers = s.routers :=
  (readFirst_spec pg off v s).routers
@[simp] theorem readFirst_inbox (pg off : Nat) (v : Word) (s : State) : (readFirst pg off v s).inbox = s.inbox :=
  (readFirst_spec pg off v s).inbox
@[simp] theorem readFirst_stop (pg off : Nat) (v : Word) (s : State) : (readFirst pg off v s).stop = s.stop :=
  (readFirst_spec pg off v s).stop
@[simp] theorem readFirst_fresh (pg off : Nat) (v : Word) (s : State) : (readFirst pg off v s).fresh = s.fresh :=
  (readFirst_spec pg off v s).fresh
@[simp] theorem readFirst_time (pg off : Nat) (v : Word) (s : State) : (readFirst pg off v s).time = s.time :=
  (readFirst_spec pg off v s).time
@[simp] theorem readFirst_pending (pg off : Nat) (v : Word) (s : State) : (readFirst pg off v s).pending = s.pending :=
  (readFirst_spec pg off v s).pending
@[simp] theorem readFirst_brd (pg off : Nat) (v : Word) (s : State) : (readFirst pg off v s).brd = s.brd :=
  (readFirst_spec pg off v s).brd
theorem readFirst_mgt (pg off : Nat) (v : Word) (s : State) : (readFirst pg off v s).mgt =
    { s.mgt with copies := s.mgt.copies.put (rkey pg off) v.toNat 0 } := (readFirst_spec pg off v s).mgt
@[simp] theorem readFirst_boot (pg off : Nat) (v : Word) (s : State) : (readFirst pg off v s).mgt.boot = s.mgt.boot := by
  simp [readFirst_mgt]

/-- The firmware serves a command only once it runs (R482, R485). -/
theorem served_up {s : State} (h : s.mgt.boot = 2) (f : State → State) : served f s = f s := by
  simp [served, h]

theorem served_down {s : State} (h : s.mgt.boot ≠ 2) (f : State → State) : served f s = s := by
  simp [served, h]

theorem acted_up {s : State} (h : s.mgt.boot = 2) (pg off : Nat) (v : State → Word) (f : State → State) :
    acted pg off v f s = f (readFirst pg off (v s) s) := by simp [acted, served, h]

theorem actedCtx_up {s : State} (h : s.mgt.boot = 2) (c : Nat) (f : State → State) :
    actedCtx c f s = f (readFirst (pgCtx c) 0x100 (s.ctxState c) s) := acted_up h ..

/-- A management write to a clocked tile (R498, R511). -/
theorem actedTile_up {s : State} {t : Nat} (h : s.mgt.boot = 2) (ht : (s.tile t).clk.pstate ≠ .off)
    (f : State → State) :
    actedTile t f s = f (wakeTile t (readFirst (pgTile t 0) 0x100 (s.tctState t) s)) := by
  simp [actedTile, acted_up h, ht]

/-- Outside the check phase of NAP entry a management access only wakes the tile (R464, R465). -/
theorem wakeTile_steady {s : State} {t : Nat} (h : (s.tile t).clk.napCheck = false) :
    wakeTile t s = s.onTile t Tile.wake := by
  simp [wakeTile, h]

/-! ### Raising: the page's own bit and detail (R518, R519) -/

theorem queueEvent_hdrs (p kind : Nat) (c : Option Nat) (ws : List Word) (s : State) :
    (queueEvent p kind c ws s).hdrs = s.hdrs := by
  unfold queueEvent; dsimp only; split <;> rfl

theorem queueEvent_log (p kind : Nat) (c : Option Nat) (ws : List Word) (s : State) :
    (queueEvent p kind c ws s).log = s.log := by
  unfold queueEvent; dsimp only; split <;> rfl

theorem queueEvent_dev (p kind : Nat) (c : Option Nat) (ws : List Word) (s : State) :
    (queueEvent p kind c ws s).dev = s.dev := by
  unfold queueEvent; dsimp only; split <;> rfl

end Sys2Proof.Machine
end

