-- ==== Sys2Proof/Laws/Handle.lean ====
section
/-! SUPPORT.
What the handling of an error and the sending of a message leave alone: tiles, inboxes, castings, the
movers and tiers, power, the management die and the board. -/

namespace Sys2Proof.Machine

theorem Kept.refl (s : State) : Kept s s := by constructor <;> rfl

theorem Kept.trans {a b c : State} (h : Kept a b) (g : Kept b c) : Kept a c :=
  ⟨g.pending.trans h.pending, g.time.trans h.time, g.freeCtr.trans h.freeCtr, g.tiles.trans h.tiles,
    g.rr.trans h.rr, g.inbox.trans h.inbox, g.cast.trans h.cast, g.gx.trans h.gx, g.gxMask.trans h.gxMask,
    g.mov.trans h.mov, g.mem.trans h.mem, g.pwr.trans h.pwr, g.mgt.trans h.mgt, g.brd.trans h.brd⟩

theorem Reported.kept {a b : State} (h : Reported a b) : Kept a b :=
  ⟨h.pending, h.time, h.freeCtr, h.tiles, h.rr, h.inbox, h.cast, h.gx, h.gxMask, h.mov, h.mem, h.pwr, h.mgt, h.brd⟩

theorem Kept.tile {a b : State} (h : Kept a b) (t : Nat) : b.tile t = a.tile t := by
  simp [State.tile, h.tiles]

theorem Kept.present {a b : State} (h : Kept a b) (t : Nat) : b.present t = a.present t :=
  present_eq_of_pwr h.pwr t

theorem Kept.foldl {ι : Type} (f : State → ι → State) (h : ∀ s i, Kept s (f s i)) :
    ∀ (l : List ι) (s : State), Kept s (l.foldl f s)
  | [], s => Kept.refl s
  | i :: l, s => (h s i).trans (Kept.foldl f h l (f s i))

theorem onCtx_kept (c : Nat) (f : Ctx → Ctx) (s : State) : Kept s (s.onCtx c f) := by constructor <;> rfl

theorem setHold_kept (c : Nat) (on : Bool) (s : State) : Kept s (setHold c on s) := by
  unfold setHold
  exact Kept.foldl _ (fun s p => (setDevReg_reported ..).kept) _ s

theorem setCState_kept (c : Nat) (st : CState) (s : State) : Kept s (setCState c st s) := by
  unfold setCState
  dsimp only
  refine Kept.trans ?_ (emit_reported ..).kept
  constructor <;> rfl

theorem startHold_kept (c : Nat) (s : State) : Kept s (startHold c s) := onCtx_kept ..

theorem sendStep_kept (c n : Nat) (td : Bool) (s : State) : Kept s (sendStep c n td s) := by
  unfold sendStep; constructor <;> rfl

theorem startRestart_kept (c : Nat) (d : Bool) (s : State) : Kept s (startRestart c d s) := by
  unfold startRestart
  refine Kept.trans ?_ (sendStep_kept ..)
  refine Kept.trans ?_ (startHold_kept ..)
  refine Kept.trans ?_ (setHold_kept ..)
  refine Kept.trans ?_ (setCState_kept ..)
  exact onCtx_kept ..

/-- An error whose handling touches no message on its way: CORRECTED or CONTEXT (R351). -/
def Err.mild (e : Err) : Bool := e.cls == .corrected || e.cls == .context

theorem handleErr_kept (e : Err) (charge : Option Nat) (s : State) (he : e.mild = true) :
    Kept s (handleErr e charge s).2 := by
  unfold handleErr
  split
  · exact Kept.refl s
  · split
    · exact Kept.refl s
    · split
      · exact Kept.refl s
      · split
        · exact Kept.refl s
        · split
          · exact startRestart_kept ..
          · exact startRestart_kept ..
          · split
            · exact Kept.refl s
            · exact onCtx_kept ..
          · exact Kept.refl s
    · rename_i h; simp [Err.mild, h] at he
    · rename_i h; simp [Err.mild, h] at he

/-- An error that is CORRECTED or CONTEXT leaves every tile as it is: what stops a unit is `raiseT` (R352), what
stops the tiles is the FATAL stop (R362). -/
theorem raiseF_kept (pg : Nat) (e : Err) (items : List (Nat × Nat)) (charge : Option Nat) (flag : Bool)
    (s : State) (he : e.mild = true) : Kept s (raiseF pg e items charge flag s) := by
  unfold raiseF
  dsimp only
  have h1 := (markErr_reported pg e (errInfo e items flag) s).kept
  generalize markErr pg e (errInfo e items flag) s = s1 at h1 ⊢
  generalize hc : (if e.cls == ErrClass.context then charge else none) = ch
  clear hc
  have h2 := h1.trans (handleErr_kept e ch s1 he)
  generalize handleErr e ch s1 = r at h2 ⊢
  obtain ⟨ac, s2⟩ := r
  have h3 := h2.trans (logOne_reported pg e (errInfo e items flag) ch ac s2).kept
  dsimp only at h3 ⊢
  generalize logOne pg e (errInfo e items flag) ch ac s2 = r at h3 ⊢
  obtain ⟨s3, full⟩ := r
  dsimp only at h3 ⊢
  have h4 := h3.trans (markErr_reported pgErr .logOverflow (errInfo .logOverflow [] false) s3).kept
  generalize markErr pgErr .logOverflow (errInfo .logOverflow [] false) s3 = s4 at h4 ⊢
  have h5 := h4.trans (logOne_reported pgErr .logOverflow (errInfo .logOverflow [] false) none 0 s4).kept
  split
  · exact h1
  · split
    · split
      · exact h4
      · exact h5
    · exact h3

theorem raise_kept (pg : Nat) (e : Err) (items : List (Nat × Nat)) (charge : Option Nat) (s : State)
    (he : e.mild = true) : Kept s (raise pg e items charge s) := raiseF_kept _ _ _ _ _ _ he

theorem enqueue_kept (n p : Nat) (ps : List Packet) (s : State) : Kept s (enqueue n p ps s) := by
  constructor <;> rfl

/-- Sending a message touches the routers, or reports that no unit has the address (R209). -/
theorem sendMsg_kept (m : Msg) (s : State) : Kept s (sendMsg m s) := by
  unfold sendMsg
  split
  · exact enqueue_kept ..
  · split
    · exact raise_kept _ _ _ _ _ (by decide)
    · exact Kept.refl s

theorem refuse_kept (t : Nat) (m : Msg) (st : Nat) (s : State) : Kept s (refuse t m st s) := by
  unfold refuse
  split
  · exact sendMsg_kept ..
  · split
    · exact sendMsg_kept ..
    · split
      · exact sendMsg_kept ..
      · exact (sendMsg_kept ..).trans (stat_reported ..).kept

/-- An operation sent from a tile takes the next TAG and is kept until it is settled (R217 to R220). -/
theorem tileSend_tile (t op dest tctx : Nat) (w1 : Word) (bs : List Byte) (r n : Option Nat) (s : State) :
    (tileSend t op dest tctx w1 bs r n s).tile t =
      { s.tile t with mp := { (s.tile t).mp with
          tag := ((s.tile t).mp.tag + 1) % 2 ^ 32,
          sent := (s.tile t).mp.sent ++
            [{ msg := { fromTile s t op dest tctx w1 (s.tile t).mp.tag with payload := bs }, rec_ := r, nest := n }] } } := by
  unfold tileSend
  rw [(sendMsg_kept ..).tile, onTile_tile_same]

theorem tileSend_tile_ne {t u : Nat} (h : u ≠ t) (op dest tctx : Nat) (w1 : Word) (bs : List Byte)
    (r n : Option Nat) (s : State) : (tileSend t op dest tctx w1 bs r n s).tile u = s.tile u := by
  unfold tileSend
  rw [(sendMsg_kept ..).tile, onTile_tile_ne _ _ h]

/-! ### The page header of a raised error (R518) -/

theorem Reported.foldl_hdrs {ι : Type} (f : State → ι → State) (h : ∀ s i, (f s i).hdrs = s.hdrs) :
    ∀ (l : List ι) (s : State), (l.foldl f s).hdrs = s.hdrs
  | [], _ => rfl
  | i :: l, s => (Reported.foldl_hdrs f h l (f s i)).trans (h s i)

theorem emit_hdrs (kind : Nat) (c : Option Nat) (ws : List Word) (save : Option Nat) (s : State) :
    (emit kind c ws save s).hdrs = s.hdrs := by
  unfold emit
  refine Reported.foldl_hdrs _ (fun s p => ?_) _ s
  split
  · exact queueEvent_hdrs ..
  · rfl

theorem logOne_hdrs (pg : Nat) (e : Err) (info : Word) (charge : Option Nat) (action : Nat) (s : State) :
    (logOne pg e info charge action s).1.hdrs = s.hdrs := by
  unfold logOne
  dsimp only
  refine (Reported.foldl_hdrs _ (fun s p => ?_) _ _).trans ?_
  · split
    · exact queueEvent_hdrs ..
    · rfl
  · split <;> rfl

theorem setHold_hdrs (c : Nat) (on : Bool) (s : State) : (setHold c on s).hdrs = s.hdrs := by
  unfold setHold
  exact Reported.foldl_hdrs (fun s p => s.setDevReg (pgLnm p) 0x130
    (setFld (s.devReg (pgLnm p) 0x130) c 1 (b2n on))) (fun s p => setDevReg_hdrs ..) _ s

theorem setCState_hdrs (c : Nat) (st : CState) (s : State) : (setCState c st s).hdrs = s.hdrs := by
  unfold setCState; rw [emit_hdrs]; rfl

theorem startHold_hdrs (c : Nat) (s : State) : (startHold c s).hdrs = s.hdrs := rfl

theorem sendStep_hdrs (c n : Nat) (td : Bool) (s : State) : (sendStep c n td s).hdrs = s.hdrs := rfl

theorem startRestart_hdrs (c : Nat) (d : Bool) (s : State) : (startRestart c d s).hdrs = s.hdrs := by
  unfold startRestart
  dsimp only
  rw [sendStep_hdrs, startHold_hdrs, setHold_hdrs, setCState_hdrs, onCtx_hdrs]

theorem discardPackets_hdrs (s : State) : (discardPackets s).hdrs = s.hdrs := rfl

theorem startDeviceRestart_hdrs (s : State) : (startDeviceRestart s).hdrs = s.hdrs := by
  unfold startDeviceRestart
  dsimp only
  refine (Reported.foldl_hdrs _ (fun s c => ?_) _ _).trans ?_
  · split
    · exact startRestart_hdrs ..
    · rfl
  · split <;> rfl

theorem handleErr_hdrs (e : Err) (charge : Option Nat) (s : State) : (handleErr e charge s).2.hdrs = s.hdrs := by
  unfold handleErr
  split
  · rfl
  · split
    · rfl
    · split
      · rfl
      · split
        · rfl
        · split
          · exact startRestart_hdrs ..
          · exact startRestart_hdrs ..
          · split <;> rfl
          · rfl
    · split
      · rfl
      · exact startDeviceRestart_hdrs s
    · rfl

theorem Err.bit_lt (e : Err) : e.bit < 64 := by cases e <;> decide

theorem bit_or (a b : Word) (i : Nat) : bit (a ||| b) i = (bit a i || bit b i) := by
  have h : ∀ w : Word, bit w i = w.toNat.testBit i := by
    intro w
    simp only [bit, Nat.testBit_eq_decide_div_mod_eq]
    exact Bool.beq_eq_decide_eq _ _ |>.trans rfl
  simp [h]

theorem bit_pow {i : Nat} (h : i < 64) : bit (BitVec.ofNat 64 (2 ^ i)) i = true := by
  have hp : 2 ^ i < 2 ^ 64 := Nat.pow_lt_pow_right (by decide) h
  unfold bit
  rw [BitVec.toNat_ofNat, Nat.mod_eq_of_lt hp, Nat.div_self (Nat.pow_pos (by decide : 0 < 2))]
  rfl

theorem markErr_bit {pg : Nat} (hp : pg ≠ pgNone) (e : Err) (info : Word) (s : State) :
    bit ((markErr pg e info s).hdr pg).err e.bit = true := by
  unfold markErr
  rw [if_neg hp, onHdr_hdr_same]
  dsimp only [Hdr.mark]
  rw [bit_or, bit_pow (Err.bit_lt e), Bool.or_true]

theorem markErr_bit_mono (pg q : Nat) (e : Err) (info : Word) (s : State) (i : Nat)
    (h : bit (s.hdr q).err i = true) : bit ((markErr pg e info s).hdr q).err i = true := by
  unfold markErr
  split
  · exact h
  · by_cases hq : q = pg
    · subst hq; simp [Hdr.mark, bit_or, h]
    · rw [onHdr_hdr_ne _ _ hq]; exact h

theorem hdr_of_hdrs {s s' : State} (h : s'.hdrs = s.hdrs) (q : Nat) : s'.hdr q = s.hdr q := by
  simp [State.hdr, h]

/-- A raised error's bit stands in its page's `PG_ERR` (R518), and no bit is lost there. -/
theorem raiseF_bits {pg : Nat} (hp : pg ≠ pgNone) (e : Err) (items : List (Nat × Nat)) (charge : Option Nat) (flag : Bool)
    (s : State) : bit ((raiseF pg e items charge flag s).hdr pg).err e.bit = true ∧
      ∀ q i, bit (s.hdr q).err i = true → bit ((raiseF pg e items charge flag s).hdr q).err i = true := by
  unfold raiseF
  dsimp only
  generalize hc : (if e.cls == ErrClass.context then charge else none) = ch
  clear hc
  have h1 := markErr_bit hp e (errInfo e items flag) s
  have g1 : ∀ q i, bit (s.hdr q).err i = true → bit ((markErr pg e (errInfo e items flag) s).hdr q).err i = true :=
    fun q i h => markErr_bit_mono pg q e (errInfo e items flag) s i h
  generalize markErr pg e (errInfo e items flag) s = s1 at h1 g1 ⊢
  have h2 := handleErr_hdrs e ch s1
  generalize handleErr e ch s1 = r at h2 ⊢
  obtain ⟨ac, s2⟩ := r
  dsimp only at h2 ⊢
  have h3 := (logOne_hdrs pg e (errInfo e items flag) ch ac s2).trans h2
  generalize logOne pg e (errInfo e items flag) ch ac s2 = r at h3 ⊢
  obtain ⟨s3, full⟩ := r
  dsimp only at h3 ⊢
  have k3 : ∀ q, s3.hdr q = s1.hdr q := fun q => hdr_of_hdrs h3 q
  split
  · exact ⟨h1, g1⟩
  · split
    · have m4 : ∀ q i, bit (s1.hdr q).err i = true →
          bit ((markErr pgErr .logOverflow (errInfo .logOverflow [] false) s3).hdr q).err i = true :=
        fun q i h => markErr_bit_mono _ _ _ _ _ _ (by rw [k3]; exact h)
      split
      · exact ⟨m4 _ _ h1, fun q i h => m4 q i (g1 q i h)⟩
      · have h5 := logOne_hdrs pgErr .logOverflow (errInfo .logOverflow [] false) none 0
          (markErr pgErr .logOverflow (errInfo .logOverflow [] false) s3)
        have k5 := hdr_of_hdrs h5
        exact ⟨by rw [k5]; exact m4 _ _ h1, fun q i h => by rw [k5]; exact m4 q i (g1 q i h)⟩
    · exact ⟨by rw [k3]; exact h1, fun q i h => by rw [k3]; exact g1 q i h⟩

theorem raise_bit {pg : Nat} (hp : pg ≠ pgNone) (e : Err) (items : List (Nat × Nat)) (charge : Option Nat) (s : State) :
    bit ((raise pg e items charge s).hdr pg).err e.bit = true := (raiseF_bits hp ..).1

theorem raiseT_bit {t : Nat} (ht : t < 20 * 256) (e : Err) (items : List (Nat × Nat)) (u : Option TUnit) (s : State) :
    bit ((raiseT t e items u s).hdr (pgTile t e.kind.tilePage)).err e.bit = true := by
  refine raise_bit (fun h => ?_) ..
  have hk : e.kind.tilePage < 4 := by cases e.kind <;> decide
  unfold pgTile pgNone at h
  omega

end Sys2Proof.Machine
end

