-- ==== Sys2Proof/Laws/Frame.lean ====
section
/-! SUPPORT.
The frames of `Safety.lean`: what one update of a tile changes, and how frames chain. -/

namespace Sys2Proof

open Machine

theorem OnlyTile.refl (t : Nat) (s : State) : OnlyTile t s s := ⟨rfl, fun _ _ => rfl⟩

theorem OnlyTile.trans {t : Nat} {a b c : State} (h : OnlyTile t a b) (g : OnlyTile t b c) : OnlyTile t a c := by
  refine ⟨?_, fun u hu => (g.others u hu).trans (h.others u hu)⟩
  have h1 := h.rest
  have h2 := g.rest
  rw [h2, h1]

theorem onlyTile_onTile (t : Nat) (f : Tile → Tile) (s : State) : OnlyTile t s (s.onTile t f) :=
  ⟨rfl, fun _ hu => onTile_tile_ne s f hu⟩

theorem onlyTile_setTile (t : Nat) (x : Tile) (s : State) : OnlyTile t s (s.setTile t x) :=
  ⟨rfl, fun _ hu => setTile_tile_ne s x hu⟩

theorem OnlyTile.onTile {t : Nat} {a b : State} (h : OnlyTile t a b) (f : Tile → Tile) :
    OnlyTile t a (b.onTile t f) := h.trans (onlyTile_onTile t f b)

theorem OnlyTile.stats {t : Nat} {a b : State} (h : OnlyTile t a b) : OnlyTileStats t a b :=
  ⟨by have := h.rest; rw [this], h.others⟩

theorem OnlyTileStats.trans {t : Nat} {a b c : State} (h : OnlyTileStats t a b) (g : OnlyTileStats t b c) :
    OnlyTileStats t a c := by
  refine ⟨?_, fun u hu => (g.others u hu).trans (h.others u hu)⟩
  have h1 := h.rest
  have h2 := g.rest
  rw [h2, h1]

theorem onlyTileStats_stat (t pg off n : Nat) (s : State) : OnlyTileStats t s (s.stat pg off n) :=
  ⟨rfl, fun _ _ => rfl⟩

theorem TileLocal.refl (t : Nat) (s : State) : TileLocal t s s := by
  constructor <;> intros <;> rfl

theorem TileLocal.trans {t : Nat} {a b c : State} (h : TileLocal t a b) (g : TileLocal t b c) : TileLocal t a c :=
  ⟨fun u hu => (g.others u hu).trans (h.others u hu), g.mem.trans h.mem, g.mov.trans h.mov, g.cast.trans h.cast,
    g.gx.trans h.gx, g.gxMask.trans h.gxMask, g.brd.trans h.brd, g.time.trans h.time, g.pending.trans h.pending⟩

theorem tileLocal_onTile (t : Nat) (f : Tile → Tile) (s : State) : TileLocal t s (s.onTile t f) :=
  ⟨fun _ hu => onTile_tile_ne s f hu, rfl, rfl, rfl, rfl, rfl, rfl, rfl, rfl⟩

theorem Machine.Kept.tileLocal {a b : State} (h : Kept a b) (t : Nat) : TileLocal t a b :=
  ⟨fun u _ => h.tile u, h.mem, h.mov, h.cast, h.gx, h.gxMask, h.brd, h.time, h.pending⟩

theorem OnlyTile.tileLocal {t : Nat} {a b : State} (h : OnlyTile t a b) : TileLocal t a b := by
  have hr := h.rest
  constructor
  · exact h.others
  all_goals rw [hr]

theorem tileLocal_readFirst (t pg off : Nat) (v : Word) (s : State) : TileLocal t s (readFirst pg off v s) := by
  have h := readFirst_spec pg off v s
  exact ⟨fun u _ => h.tile u, h.mem, h.mov, h.cast, h.gx, h.gxMask, h.brd, h.time, h.pending⟩

/-- A tile's unit that raises an error: the tile keeps all but its list of stopped units (R352). -/
theorem raiseT_tileLocal (t : Nat) (e : Err) (items : List (Nat × Nat)) (u : Option TUnit) (s : State)
    (he : e.mild = true) : TileLocal t s (raiseT t e items u s) := by
  unfold raiseT
  dsimp only
  refine TileLocal.trans ?_ ((raise_kept _ _ _ _ _ he).tileLocal t)
  split
  · exact tileLocal_onTile ..
  · exact TileLocal.refl ..

theorem raiseT_none_kept (t : Nat) (e : Err) (items : List (Nat × Nat)) (s : State)
    (he : e.mild = true) : Kept s (raiseT t e items none s) := by
  unfold raiseT
  exact raise_kept _ _ _ _ _ he

theorem SameEngines.refl (x : Tile) : SameEngines x x := by constructor <;> rfl

theorem SameEngines.trans {x y z : Tile} (h : SameEngines x y) (g : SameEngines y z) : SameEngines x z :=
  ⟨g.clk.trans h.clk, g.cfg.trans h.cfg, g.mtx.trans h.mtx, g.vec.trans h.vec, g.row.trans h.row,
    g.gens.trans h.gens, g.flags.trans h.flags, g.fab.trans h.fab, g.nests.trans h.nests,
    g.fault.trans h.fault, g.cg.trans h.cg, g.waits.trans h.waits, g.ret.trans h.ret⟩

/-! ### Messages at a tile -/

@[simp] theorem dropMsg_tiles (u : Nat) (s : State) : (dropMsg u s).tiles = s.tiles := rfl
@[simp] theorem dropMsg_tile (u : Nat) (s : State) (t : Nat) : (dropMsg u s).tile t = s.tile t := rfl
@[simp] theorem dropMsg_present (u : Nat) (s : State) (t : Nat) : (dropMsg u s).present t = s.present t := rfl
theorem dropMsg_taken (u : Nat) (s : State) : Taken u s (dropMsg u s) := rfl
theorem dropMsg_tileLocal (u t : Nat) (s : State) : TileLocal t s (dropMsg u s) := by constructor <;> intros <;> rfl

/-- The head message of an inbox, from what MsgReady, AnswerReady and their like say of it. -/
theorem headMsg_of {t : Nat} {m : Msg} {e : Option Err} {s : State}
    (h : (s.headMsg t).map (fun im => (im.msg, msgFault im)) = some (m, e)) :
    ∃ im, s.headMsg t = some im ∧ im.msg = m ∧ msgFault im = e := by
  cases hh : s.headMsg t with
  | none => simp [hh] at h
  | some im => simpa [hh] using h

/-- A message that is ready is taken and has its effect. -/
theorem onHead_ready {t op : Nat} {m : Msg} {s : State} (h : MsgReady t op m s) (f : Msg → State → State) :
    onHead t op f s = f m (dropMsg t s) := by
  obtain ⟨-, hg, ho, hm, ht⟩ := h
  obtain ⟨im, hh, rfl, hf⟩ := headMsg_of hm
  simp [onHead, hh, ho, hg, hf, ht]

theorem onAnswer_ready {t op : Nat} {m : Msg} {s : State} (h : AnswerReady t op m s) (f : Msg → State → State) :
    onAnswer t op f s = f m (dropMsg t s) := by
  obtain ⟨-, hg, ho, hm, ha, hf⟩ := h
  obtain ⟨im, hh, rfl, hb⟩ := headMsg_of hm
  simp [onAnswer, hh, ho, hg, hb, ha, hf]

/-- A management or configuration message that is whole is taken by a clocked tile. -/
theorem onMgt_ready {t op : Nat} {m : Msg} {s : State} (hg : (s.tile t).gated = false) (ho : m.op = op)
    (hm : (s.headMsg t).map (fun im => (im.msg, msgFault im)) = some (m, none)) (f : Msg → State → State) :
    onMgt t op f s = f m (dropMsg t s) := by
  obtain ⟨im, hh, rfl, hf⟩ := headMsg_of hm
  simp [onMgt, hh, ho, hg, hf]

/-- A unit of the management die takes the first message of its OP that none of its source precedes. -/
theorem onUnit_ready {u op : Nat} {im : InMsg} {rest : List InMsg} {s : State}
    (hp : pickIn (fun m => m.op == op) [] (s.inbox.get u []) = some (im, rest)) (hf : msgFault im = none)
    (f : Msg → State → State) : onUnit u op f s = f im.msg { s with inbox := s.inbox.put u rest [] } := by
  simp [onUnit, hp, hf]

theorem onTile_kept_of (s : State) (t : Nat) (f : Tile → Tile) : (s.onTile t f).inbox = s.inbox := rfl

/-! ### Waking a tile changes its clock, and the wake charge of its tokens -/

theorem wake_cfg (x : Tile) : x.wake.cfg = x.cfg := by
  unfold Tile.wake; split <;> rfl
theorem wake_sp (x : Tile) : x.wake.sp = x.sp := by
  unfold Tile.wake; split <;> rfl
theorem wake_hq (x : Tile) : x.wake.hq = x.hq := by
  unfold Tile.wake; split <;> rfl
theorem wake_mp (x : Tile) : x.wake.mp = x.mp := by
  unfold Tile.wake; split <;> rfl


/-! ### Counters -/

@[simp] theorem setCounter_counter_same (x : Tile) (c : Nat) (k : Counter) : (x.setCounter c k).counter c = k := by
  simp [Tile.setCounter, Tile.counter]

theorem setCounter_counter_ne (x : Tile) {c d : Nat} (k : Counter) (h : d ≠ c) :
    (x.setCounter c k).counter d = x.counter d := by
  simp [Tile.setCounter, Tile.counter, SMap.get_put_ne, h]

theorem setCounter_same (x : Tile) (c : Nat) (k : Counter) : SameEngines x (x.setCounter c k) := by
  constructor <;> rfl

@[simp] theorem setCounter_sp (x : Tile) (c : Nat) (k : Counter) : (x.setCounter c k).sp = x.sp := rfl
@[simp] theorem setCounter_hq (x : Tile) (c : Nat) (k : Counter) : (x.setCounter c k).hq = x.hq := rfl

/-- Releasing waiters frees records of the counter, and neither its value nor its flags change; nothing
of the tile but its counters does (R236). -/
structure Released (t c : Nat) (s s' : State) : Prop where
  local_ : TileLocal t s s'
  inbox : s'.inbox = s.inbox
  pwr : s'.pwr = s.pwr
  engines : SameEngines (s.tile t) (s'.tile t)
  sp : (s'.tile t).sp = (s.tile t).sp
  hq : (s'.tile t).hq = (s.tile t).hq
  stopped : (s'.tile t).stopped = (s.tile t).stopped
  value : ((s'.tile t).counter c).value = ((s.tile t).counter c).value
  satHi : ((s'.tile t).counter c).satHi = ((s.tile t).counter c).satHi
  satLo : ((s'.tile t).counter c).satLo = ((s.tile t).counter c).satLo
  lost : ((s'.tile t).counter c).lost = ((s.tile t).counter c).lost
  epoch : ((s'.tile t).counter c).epoch = ((s.tile t).counter c).epoch
  others : ∀ d, d ≠ c → (s'.tile t).counter d = (s.tile t).counter d

theorem Released.refl (t c : Nat) (s : State) : Released t c s s :=
  ⟨TileLocal.refl .., rfl, rfl, SameEngines.refl _, rfl, rfl, rfl, rfl, rfl, rfl, rfl, rfl, fun _ _ => rfl⟩

theorem Released.trans {t c : Nat} {a b d : State} (h : Released t c a b) (g : Released t c b d) : Released t c a d :=
  ⟨h.local_.trans g.local_, g.inbox.trans h.inbox, g.pwr.trans h.pwr, h.engines.trans g.engines, g.sp.trans h.sp, g.hq.trans h.hq,
    g.stopped.trans h.stopped, g.value.trans h.value, g.satHi.trans h.satHi, g.satLo.trans h.satLo,
    g.lost.trans h.lost, g.epoch.trans h.epoch, fun e he => (g.others e he).trans (h.others e he)⟩

theorem Machine.Kept.released {a b : State} (h : Kept a b) (t c : Nat) : Released t c a b := by
  have ht := h.tile t
  exact ⟨h.tileLocal t, h.inbox, h.pwr, by rw [ht]; exact SameEngines.refl _, by rw [ht], by rw [ht], by rw [ht],
    by rw [ht], by rw [ht], by rw [ht], by rw [ht], by rw [ht], fun d _ => by rw [ht]⟩

theorem sendCrel_kept (t : Nat) (w : Waiter) (st : Nat) (s : State) : Kept s (sendCrel t w st s) := sendMsg_kept ..

theorem releaseWaiters_released (t c : Nat) (s : State) : Released t c s (releaseWaiters t c s) := by
  unfold releaseWaiters
  generalize List.range 4 = l
  induction l generalizing s with
  | nil => exact Released.refl ..
  | cons i l ih =>
    simp only [List.foldl_cons]
    refine Released.trans ?_ (ih _)
    cases hw : ((s.tile t).counter c).waiters.getD i none with
    | none => exact Released.refl ..
    | some w =>
      dsimp only
      split
      · refine Released.trans ?_ ((sendCrel_kept ..).released t c)
        exact ⟨tileLocal_onTile .., rfl, rfl, by rw [onTile_tile_same]; exact setCounter_same .., by simp, by simp,
          by simp [Tile.setCounter], by simp, by simp, by simp, by simp, by simp, fun d hd => by
            rw [onTile_tile_same, setCounter_counter_ne _ _ hd]⟩
      · exact Released.refl ..

/-- A stamp changes no more of a counter than when its flags were set (R509). -/
@[simp] theorem stamp_value (k : Counter) (n : Nat) (b : Bool) : (k.stamp n b).value = k.value := by
  unfold Counter.stamp; repeat' split
  all_goals rfl
@[simp] theorem stamp_satHi (k : Counter) (n : Nat) (b : Bool) : (k.stamp n b).satHi = k.satHi := by
  unfold Counter.stamp; repeat' split
  all_goals rfl
@[simp] theorem stamp_satLo (k : Counter) (n : Nat) (b : Bool) : (k.stamp n b).satLo = k.satLo := by
  unfold Counter.stamp; repeat' split
  all_goals rfl
@[simp] theorem stamp_lost (k : Counter) (n : Nat) (b : Bool) : (k.stamp n b).lost = k.lost := by
  unfold Counter.stamp; repeat' split
  all_goals rfl
@[simp] theorem stamp_epoch (k : Counter) (n : Nat) (b : Bool) : (k.stamp n b).epoch = k.epoch := by
  unfold Counter.stamp; repeat' split
  all_goals rfl

theorem setCounter_released (t c : Nat) (k k' : Counter) (s : State) (hv : k'.value = k.value)
    (hh : k'.satHi = k.satHi) (hl : k'.satLo = k.satLo) (ho : k'.lost = k.lost) (he : k'.epoch = k.epoch) :
    Released t c (s.onTile t (fun x => x.setCounter c k)) (s.onTile t (fun x => x.setCounter c k')) where
  local_ := ⟨fun u hu => by rw [onTile_tile_ne _ _ hu, onTile_tile_ne _ _ hu], rfl, rfl, rfl, rfl, rfl, rfl, rfl, rfl⟩
  inbox := rfl
  pwr := rfl
  engines := by rw [onTile_tile_same, onTile_tile_same]; constructor <;> rfl
  sp := by simp
  hq := by simp
  stopped := by simp [Tile.setCounter]
  value := by simp [hv]
  satHi := by simp [hh]
  satLo := by simp [hl]
  lost := by simp [ho]
  epoch := by simp [he]
  others := fun d hd => by
    rw [onTile_tile_same, onTile_tile_same, setCounter_counter_ne _ _ hd, setCounter_counter_ne _ _ hd]

/-- What a counter operation leaves of the tile: everything but its counters. -/
theorem putCounter_released (t c : Nat) (r : Counter × Bool) (items : List (Nat × Nat)) (s : State) :
    Released t c (s.onTile t (fun x => x.setCounter c r.1)) (putCounter t c r items s) := by
  unfold putCounter
  dsimp only
  refine Released.trans ?_ (releaseWaiters_released t c _)
  refine Released.trans (setCounter_released t c r.1 (r.1.stamp s.time r.2) s ?_ ?_ ?_ ?_ ?_) ?_
  iterate 5 simp
  split
  · exact ((raiseT_none_kept _ _ _ _ (by decide)).trans (stat_reported ..).kept).released t c
  · exact Released.refl ..

/-- A local counter operation: nothing but the tile's counters changes. -/
structure CountersOnly (t : Nat) (s s' : State) : Prop where
  local_ : TileLocal t s s'
  inbox : s'.inbox = s.inbox
  pwr : s'.pwr = s.pwr
  engines : SameEngines (s.tile t) (s'.tile t)
  sp : (s'.tile t).sp = (s.tile t).sp
  hq : (s'.tile t).hq = (s.tile t).hq
  stopped : (s'.tile t).stopped = (s.tile t).stopped

theorem CountersOnly.refl (t : Nat) (s : State) : CountersOnly t s s :=
  ⟨TileLocal.refl .., rfl, rfl, SameEngines.refl _, rfl, rfl, rfl⟩

theorem CountersOnly.trans {t : Nat} {a b c : State} (h : CountersOnly t a b) (g : CountersOnly t b c) :
    CountersOnly t a c :=
  ⟨h.local_.trans g.local_, g.inbox.trans h.inbox, g.pwr.trans h.pwr, h.engines.trans g.engines, g.sp.trans h.sp,
    g.hq.trans h.hq, g.stopped.trans h.stopped⟩

theorem Released.countersOnly {t c : Nat} {a b : State} (h : Released t c a b) : CountersOnly t a b :=
  ⟨h.local_, h.inbox, h.pwr, h.engines, h.sp, h.hq, h.stopped⟩

theorem setCounter_countersOnly (t c : Nat) (k : Counter) (s : State) :
    CountersOnly t s (s.onTile t (fun x => x.setCounter c k)) :=
  ⟨tileLocal_onTile .., rfl, rfl, by rw [onTile_tile_same]; exact setCounter_same .., by simp, by simp,
    by simp [Tile.setCounter]⟩

theorem Machine.Kept.countersOnly {a b : State} (h : Kept a b) (t : Nat) : CountersOnly t a b :=
  (h.released t 0).countersOnly

theorem putCounter_only (t c : Nat) (r : Counter × Bool) (items : List (Nat × Nat)) (s : State) :
    CountersOnly t s (putCounter t c r items s) :=
  (setCounter_countersOnly t c r.1 s).trans (putCounter_released ..).countersOnly

theorem localInc_only (t c n : Nat) (s : State) : CountersOnly t s (localInc t c n s) := by
  unfold localInc; split
  · exact CountersOnly.refl ..
  · exact putCounter_only ..

theorem localDec_only (t c n : Nat) (s : State) : CountersOnly t s (localDec t c n s) := by
  unfold localDec; split
  · exact CountersOnly.refl ..
  · exact putCounter_only ..

theorem localReset_only (t c : Nat) (s : State) : CountersOnly t s (localReset t c s) := by
  unfold localReset; split
  · exact CountersOnly.refl ..
  · exact putCounter_only ..

theorem sendMsg_sent {m : Msg} {s : State} (h : s.unitExists m.dest = true) : Sent m (sendMsg m s) := by
  refine ⟨s.routers.get (rkeyOf (entryPoint m).1 (entryPoint m).2) [], ?_⟩
  simp [sendMsg, h, enqueue]

/-- Which units exist depends on the repair maps alone. -/
theorem unitExists_of_pwr {s s' : State} (h : s'.pwr = s.pwr) (u : Nat) : s'.unitExists u = s.unitExists u := by
  simp [State.unitExists, present_eq_of_pwr h]

end Sys2Proof
end

