-- ==== Sys2Proof/Laws/Rim.lean ====
section
/-! SUPPORT.
What the units of the rim dies share: an inbox of messages they act on loses nothing, and the message whose
turn it is is taken. -/

namespace Sys2Proof.Machine

/-- Every complete message in the inbox of rim unit u is one the unit acts on (R214). -/
def RimClean (u : Nat) (s : State) : Prop := ∀ x ∈ s.inbox.get u [], x.complete = true → rimOp x.msg.op = true

theorem rimRefuse_kept (m : Msg) (st : Nat) (s : State) : Kept s (rimRefuse m st s) := by
  unfold rimRefuse
  split
  · exact sendMsg_kept ..
  · split
    · exact sendMsg_kept ..
    · split
      · exact sendMsg_kept ..
      · split
        · exact sendMsg_kept ..
        · exact Kept.refl s

theorem rimPurge_clean {u : Nat} {s : State} (h : RimClean u s) :
    rimPurge u s = { s with inbox := s.inbox.put u (s.inbox.get u []) [] } := by
  have hb : (s.inbox.get u []).filter (fun m => m.complete && !rimOp m.msg.op) = [] := by
    rw [List.filter_eq_nil_iff]
    intro x hx
    cases hc : x.complete
    · simp
    · simp [h x hx hc]
  have hg : (s.inbox.get u []).filter (fun m => !(m.complete && !rimOp m.msg.op)) = s.inbox.get u [] := by
    rw [List.filter_eq_self]
    intro x hx
    cases hc : x.complete
    · simp
    · simp [h x hx hc]
  unfold rimPurge
  dsimp only
  rw [hb, hg]
  rfl

/-- The message whose turn it is at a rim unit, whole and true to its row, is taken and acted on (R210, R215). -/
theorem onRim_ready {u : Nat} {f : Msg → Bool} {im : InMsg} {rest : List InMsg} {s : State} (h : RimClean u s)
    (hp : pickIn f [] (s.inbox.get u []) = some (im, rest)) (hf : msgFault im = none) (act : Msg → State → State) :
    onRim u f act s = act im.msg { s with inbox := (s.inbox.put u (s.inbox.get u []) []).put u rest [] } := by
  simp [onRim, rimPurge_clean h, hp, hf]

end Sys2Proof.Machine
end

