-- ==== Sys2Proof/Laws/Scratch.lean ====
section
/-! SUPPORT.
The scratchpad: every byte offset has a place of its own under each interleave, and what one byte
write does. -/

namespace Sys2Proof.Machine

theorem bankOf_lt (i a : Nat) : bankOf i a < 16 := by
  unfold bankOf; split <;> omega

theorem spKey_inj (i a b : Nat) (ha : a < 2^20) (hb : b < 2^20) (h : spKey i a = spKey i b) : a = b := by
  have key : ∀ B L Y B' L' Y' : Nat, B < 16 → B' < 16 → L < 1024 → L' < 1024 → Y < 64 → Y' < 64 →
      B * 65536 + L * 64 + Y = B' * 65536 + L' * 64 + Y' → B = B' ∧ L = L' ∧ Y = Y' := by
    intros; omega
  unfold spKey bankOf lineOf at h
  split at h
  · obtain ⟨h1, h2, h3⟩ := key _ _ _ _ _ _ (by omega) (by omega) (by omega) (by omega) (by omega) (by omega) h
    have e1 : a / 512 = a / 64 / 8 := by omega
    have e2 : b / 512 = b / 64 / 8 := by omega
    have e3 : a / 2^19 = a / 64 / 8192 := by omega
    have e4 : b / 2^19 = b / 64 / 8192 := by omega
    rw [e1, e2] at h2
    rw [e3, e4] at h1
    have ea : a = a / 64 * 64 + a % 64 := by omega
    have eb : b = b / 64 * 64 + b % 64 := by omega
    have la : a / 64 < 16384 := by omega
    have lb : b / 64 < 16384 := by omega
    generalize a / 64 = u at *
    generalize b / 64 = v at *
    omega
  · obtain ⟨h1, h2, h3⟩ := key _ _ _ _ _ _ (by omega) (by omega) (by omega) (by omega) (by omega) (by omega) h
    have e1 : a / 256 = a / 64 / 4 := by omega
    have e2 : b / 256 = b / 64 / 4 := by omega
    have e3 : a / 2^18 = a / 64 / 4096 := by omega
    have e4 : b / 2^18 = b / 64 / 4096 := by omega
    rw [e1, e2] at h2
    rw [e3, e4] at h1
    have ea : a = a / 64 * 64 + a % 64 := by omega
    have eb : b = b / 64 * 64 + b % 64 := by omega
    have la : a / 64 < 16384 := by omega
    have lb : b / 64 < 16384 := by omega
    generalize a / 64 = u at *
    generalize b / 64 = v at *
    omega
  · obtain ⟨h1, h2, h3⟩ := key _ _ _ _ _ _ (by omega) (by omega) (by omega) (by omega) (by omega) (by omega) h
    have e1 : a / 1024 = a / 64 / 16 := by omega
    have e2 : b / 1024 = b / 64 / 16 := by omega
    rw [e1, e2] at h2
    have ea : a = a / 64 * 64 + a % 64 := by omega
    have eb : b = b / 64 * 64 + b % 64 := by omega
    have la : a / 64 < 16384 := by omega
    have lb : b / 64 < 16384 := by omega
    generalize a / 64 = u at *
    generalize b / 64 = v at *
    omega

theorem wr1_cfg (x : Tile) (a : Nat) (b : Byte) : (x.wr1 a b).cfg = x.cfg := by
  unfold Tile.wr1; split <;> rfl
theorem ilv_of_cfg {x y : Tile} (h : x.cfg = y.cfg) : x.ilv = y.ilv := by simp [Tile.ilv, Tile.spctrl, Tile.reg, h]
theorem bankOn_of_cfg {x y : Tile} (h : x.cfg = y.cfg) (b) : x.bankOn b = y.bankOn b := by simp [Tile.bankOn, Tile.spctrl, Tile.reg, h]

theorem wr1_same (x : Tile) (a : Nat) (v : Byte) (hb : x.bankOn (bankOf x.ilv a) = true) : (x.wr1 a v).rd1 a = v := by
  rw [Tile.rd1, ilv_of_cfg (wr1_cfg x a v)]; simp [Tile.wr1, hb]
theorem wr1_ne (x : Tile) (a : Nat) (v : Byte) (ha : a < 2^20) (b) (hb2 : b < 2^20) (hne : b ≠ a) : (x.wr1 a v).rd1 b = x.rd1 b := by
    rw [Tile.rd1, ilv_of_cfg (wr1_cfg x a v)]
    unfold Tile.wr1
    split
    · rw [SMap.get_put_ne]; rfl
      intro h; exact hne (spKey_inj _ _ _ hb2 ha h)
    · rfl

theorem wr_cfg (bs : List Byte) : ∀ (x : Tile) (a), (x.wr a bs).cfg = x.cfg := by
  induction bs with
  | nil => intros; rfl
  | cons b bs ih => intro x a; simp [Tile.wr, ih, wr1_cfg]

theorem bankOf_line (i a : Nat) : bankOf i a = bankOf i (a / 64 * 64) := by
  unfold bankOf; split <;> omega

theorem linesOn_spec (x : Tile) (a n : Nat) (h : x.linesOn a n = true) : n = 0 ∨ (a + n ≤ 2^20 ∧ ∀ i, i < n → x.bankOn (bankOf x.ilv (a+i)) = true) := by
  simp only [Tile.linesOn, Bool.or_eq_true, beq_iff_eq, Bool.and_eq_true, decide_eq_true_eq, List.all_eq_true, List.mem_range] at h
  rcases h with h | ⟨h1, h2⟩
  · exact .inl h
  · refine .inr ⟨h1, fun i hi => ?_⟩
    have := h2 ((a+i)/64 - a/64) (by omega)
    rw [bankOf_line]
    rw [show (a + i) / 64 * 64 = a / 64 * 64 + 64 * ((a + i) / 64 - a / 64) by omega]; exact this

end Sys2Proof.Machine
end

