-- ==== Sys2Proof/Tests/Slice0.lean ====
section
/-! SUPPORT.
Small tests: the well-formedness check refuses, commands do what the spec's worked values say, and
concrete states meet the hypotheses of the statements. -/

namespace Sys2Proof.Tests

set_option Elab.async false

open Sys2Proof.Machine

/-! ## Builders -/

/-- A tile whose clock runs at 700 MHz, owned by context 0, every bank of its scratchpad on. -/
def tile0 : Tile :=
  { clk := { pstate := .active, per := 93624, hist := [(0, 93624)] }
    cfg := { owned := true, live := [(544, 0xFFFF)] } }

/-- A device whose management die serves, with context 0 RUNNING on a mould of the first die. -/
def up : State :=
  { mgt := { boot := 2 }
    ctxs := [(0, { st := .running, mould := some ⟨0, 15, 0, 0⟩, live := true })] }

/-- The same with one tile: TID 0. -/
def one (x : Tile) : State := { up with tiles := [(0, x)] }

/-- A tile with live words of plane 0, rising (frame·256 + word). -/
def words (ws : SMap Word) (x : Tile) : Tile := { x with cfg := { x.cfg with wordsA := ws } }

/-- A tile whose nest 0 has one level and stands at item i. -/
def nestAt (i : NItem) (ws : SMap Word) : Tile :=
  { words ((512, 3) :: ws) tile0 with nests := [(0, { live := true, todo := [i] })] }

/-- Nest 0 before action 0 with these words. -/
def actS (w0 w1 : Word) : State := one (nestAt (.act 0) [(528, w0), (529, w1)])

/-- What nest 0 then is. -/
def kAct : Nest := { live := true, todo := [.act 0] }

/-- A lone whole message at a rim unit that takes it, and at a unit of the management die. -/
theorem lone_rim {u : Nat} {f : Msg → Bool} {im : InMsg} {s : State} (h : s.inbox = [(u, [im])])
    (hc : im.complete = true) (hf : f im.msg = true) (ho : rimOp im.msg.op = true) : RimHolds u f im [] s := by
  unfold RimHolds
  rw [h]
  simp [SMap.get, pickIn, hc, hf, ho]

theorem lone_unit {u : Nat} {m : Msg} {s : State} (h : s.inbox = [(u, [{ msg := m, complete := true }])])
    (hf : msgFault { msg := m, complete := true } = none) : UnitMsg u m.op m [] s := by
  refine ⟨rfl, _, ?_, rfl, hf⟩
  rw [h]
  simp [SMap.get, pickIn]

/-! ## Chapter 02 -/

theorem wit_scratchpad : (one tile0).present 0 = true ∧
    ((one tile0).tile 0).bankOn (bankOf ((one tile0).tile 0).ilv (2 ^ 20 - 1)) = true ∧
    tile0.linesOn (2 ^ 20 - 1) 1 = true := by decide +kernel

/-- Requesters 0 and 3, and the debug port, of one bank; tile 0 in fault mode. -/
def rq (who : Nat) (st : Option (List (Nat × Byte × Byte))) : BankReq := { who := who, addr := 64, store := st }
def faultT : Tile := tile0.setReg 1 0x100 0x4FFFF

theorem wit_bank_meets : (∀ q ∈ [rq 3 none, rq 10 none], ∀ x ∈ [tile0, faultT],
      MeetAtABank 0 (bankOf tile0.ilv 64) (rq 0 none) q [q, rq 0 none] (one x)) ∧
    GoesFirst tile0 (rq 0 none) (rq 3 none) ∧ GoesFirst { tile0 with waits := [(3, 2)] } (rq 3 none) (rq 0 none) ∧
    (∀ x ∈ [tile0, faultT], x.bankOn (bankOf tile0.ilv 64) = true) ∧
    bit tile0.spctrl 18 = false ∧ bit faultT.spctrl 18 = true := by
  unfold MeetAtABank GoesFirst
  decide +kernel

theorem wit_bank_off : let x := tile0.setReg 1 0x100 0
    x.bankOn (bankOf x.ilv (rq 0 none).addr) = false ∧ (one x).present 0 = true ∧
    (rq 10 none).who = 10 ∧ (rq 10 (some [])).store ≠ none := by decide +kernel

/-- Wrong words: of another line, correctable, not correctable, both. -/
theorem wit_bank_ecc : (∀ e ∈ [(⟨0, true⟩ : Upset)], e.addr / 64 ≠ (rq 0 none).addr / 64) ∧
    (∃ e ∈ [(⟨64, false⟩ : Upset)], e.addr / 64 = (rq 0 none).addr / 64) ∧
    (∀ e ∈ [(⟨64, false⟩ : Upset)], e.addr / 64 = (rq 0 none).addr / 64 → e.dbl = false) ∧
    (∃ e ∈ [(⟨64, false⟩ : Upset), ⟨127, true⟩], e.addr / 64 = (rq 0 none).addr / 64 ∧ e.dbl = true) := by decide

theorem wit_window : (one tile0).present 0 = true ∧ (one tile0).mgt.boot = 2 ∧
    ((one tile0).tile 0).clk.pstate ≠ .off ∧
    winOk ((one tile0).tile 0).spctrl (winMask (packW [(14, 16383), (15, 1), (2, 1)])) = true ∧
    winOk ((one tile0).tile 0).spctrl (winMask (packW [(14, 16383), (15, 2), (2, 1)])) = false := by
  decide +kernel

/-! ## Chapter 08: nests -/

theorem wit_actions : ∀ k : Fin 13, ActionAt 0 0 k kAct [] (BitVec.ofNat 64 k) 0 (actS (BitVec.ofNat 64 k) 0) ∧
    ((actS (BitVec.ofNat 64 k) 0).tile 0).counterHeld 0 = false := by
  intro k
  refine ⟨⟨0, by decide, ⟨?_, ?_, rfl⟩, ?_, ?_, ?_⟩, ?_⟩ <;> revert k <;> decide +kernel

/-- The same at a tile whose counter 0 a restart holds. -/
def heldS (w : Word) : State := (actS w 0).onTile 0 (fun x => x.setCounter 0 { lost := true })
theorem wit_held_actions : ∀ k ∈ [0, 2, 3, 4], ActionAt 0 0 k kAct [] (BitVec.ofNat 64 k) 0 (heldS (BitVec.ofNat 64 k)) ∧
    ((heldS (BitVec.ofNat 64 k)).tile 0).counterHeld (actCnt (BitVec.ofNat 64 k)) = true := by
  intro k h
  refine ⟨⟨0, by decide, ⟨?_, ?_, rfl⟩, ?_, ?_, ?_⟩, ?_⟩ <;> revert k h <;> decide +kernel

/-- The counters of the tile that acts. -/
def cnt (v : Nat) (s : State) : State :=
  s.onTile 0 (fun x => x.setCounter 0 { value := v })

theorem wit_wait : ActionAt 0 0 1 kAct [] 0x1001 0 (cnt 1 (actS 0x1001 0)) ∧
    actAmt 0x1001 ≤ ((cnt 1 (actS 0x1001 0)).tile 0 |>.counter 0).value ∧
    ActionAt 0 0 1 kAct [] 0x1001 0 (actS 0x1001 0) ∧
    ((actS 0x1001 0).tile 0 |>.counter 0).value < actAmt 0x1001 :=
  ⟨⟨0, by decide, ⟨by decide +kernel, by decide +kernel, rfl⟩, by decide +kernel, by decide +kernel, by decide +kernel⟩,
    by decide +kernel,
    ⟨0, by decide, ⟨by decide +kernel, by decide +kernel, rfl⟩, by decide +kernel, by decide +kernel, by decide +kernel⟩,
    by decide +kernel⟩

theorem wit_message_actions : kAct.claimSent = false ∧ bit (5 : Word) 36 = false ∧
    (actS 5 0).unitExists (fld (0 : Word) 0 13) = true ∧ (actS 8 16).unitExists (fld (16 : Word) 0 13) = true ∧
    fld (16 : Word) 0 13 ≠ 0 ∧ ((actS 8 0).tile 0).cfg.frozen = false ∧
    ((actS 8 0).tile 0 |>.counter 0).lost = false ∧ ((actS 8 0).tile 0 |>.counter 0).satHi = false := by
  decide +kernel

/-- Nest 0 whose CLAIM of its own counter 0 has been taken, the word at the nest input. -/
def claimS : State := one { nestAt (.act 0) [(528, 8)] with
  nests := [(0, { kAct with claimSent := true })], fab := { nestWords := [(true, 7)] } }

theorem wit_claim_word : ActionAt 0 0 8 { kAct with claimSent := true } [] 8 0 claimS ∧
    (claimS.tile 0).fab.nestWords = (true, 7) :: [] ∧ 7 / 2 ^ 24 % 256 ≠ 2 :=
  ⟨⟨0, by decide, ⟨by decide +kernel, by decide +kernel, rfl⟩, by decide +kernel, by decide +kernel, by decide +kernel⟩,
    by decide +kernel, by decide⟩

/-- Nest 0 whose level 0 takes its count from a word. -/
def wordS : State := one { nestAt (.begin 0) [(516, 0x80000)] with fab := { nestWords := [(false, 65535)] } }

theorem wit_nest_word : NestAt 0 0 { kAct with todo := [.begin 0] } (.begin 0) [] wordS ∧
    lvSrc ((wordS.tile 0).lvl0 0 0 ((wordS.tile 0).levelAt 0 0 0)) = 1 ∧
    (wordS.tile 0).fab.nestWords = (false, 65535) :: [] :=
  ⟨⟨by decide +kernel, by decide +kernel, rfl⟩, by decide +kernel, by decide +kernel⟩

/-- Nest 0 with an action at the start (end) point of level 0. -/
def startS : State := one (nestAt (.startPt 0) [(528, 2)])
def endS : State := one (nestAt (.endPt 0) [(528, 0x82)])
/-- Nest 0 that waits for a handle of queue 0. -/
def popS : State := one { nestAt (.pop 0) [] with hq := [(0, [5])] }

theorem wit_points : NestAt 0 0 { kAct with todo := [.startPt 0] } (.startPt 0) [] startS ∧
    NestAt 0 0 { kAct with todo := [.endPt 0] } (.endPt 0) [] endS ∧ kAct.out = 0 ∧
    (endS.tile 0).pointOps 0 0 0 = [] ∧ NestAt 0 0 { kAct with todo := [.pop 0] } (.pop 0) [] popS ∧
    ((popS.tile 0).nbind 0 0 0).sel % 4 = 0 ∧ ((popS.tile 0).hqueue 0).head? = some 5 :=
  ⟨⟨by decide +kernel, by decide +kernel, rfl⟩, ⟨by decide +kernel, by decide +kernel, rfl⟩, rfl,
    by decide +kernel, ⟨by decide +kernel, by decide +kernel, rfl⟩, by decide +kernel, by decide +kernel⟩

/-- Operand A in window 0, which covers the first line; HPUSH of one line. -/
def hpushS : State := one ((nestAt (.act 0) [(514, 1), (528, 0x1009)]).setReg 1 0x180 (packW [(14, 0), (15, 1), (2, 1)]))
/-- Record 0 bound as RECV with one unit of credit; record 0 a closed, then an opening SEND record. -/
def chretS : State := (actS 0x100A 0).onTile 0 (fun x => x.setCh 0 { st := .bound, credit := 1 })
def openS (st : ChState) (w : Word) : State := (actS w 0).onTile 0 (fun x => (x.setReg 2 0x200 2).setCh 0 { st := st })

/-- HPUSH of no lines; of a line of a window that is not there; to a full queue. -/
def hpushBad : State := one (nestAt (.act 0) [(514, 1), (528, 0x1009)])
def hpushNo : State := one ((nestAt (.act 0) [(514, 1), (528, 9)]).setReg 1 0x180 (packW [(14, 0), (15, 1), (2, 1)]))
def hpushFull : State := hpushS.onTile 0 (fun x => { x with hq := [(0, List.replicate 16 0)] })

theorem wit_hpush_fails : ActionAt 0 0 9 kAct [] 9 0 hpushNo ∧ actHandle (hpushNo.tile 0) 0 0 kAct 9 = none ∧
    ActionAt 0 0 9 kAct [] 0x1009 0 hpushFull ∧ actHandle (hpushFull.tile 0) 0 0 kAct 0x1009 = some (mkHandle 0 0 1) ∧
    (hpushFull.tile 0).pushRes 0 (mkHandle 0 0 1) = .full ∧
    ActionAt 0 0 9 kAct [] 0x1009 0 hpushBad ∧ actHandle (hpushBad.tile 0) 0 0 kAct 0x1009 = some (mkHandle 0 0 1) ∧
    (hpushBad.tile 0).pushRes 0 (mkHandle 0 0 1) = .bounds ∧ bit (hpushBad.tile 0).fault.b 47 = false :=
  ⟨⟨0, by decide, ⟨by decide +kernel, by decide +kernel, rfl⟩, by decide +kernel, by decide +kernel, by decide +kernel⟩,
    by decide +kernel,
    ⟨0, by decide, ⟨by decide +kernel, by decide +kernel, rfl⟩, by decide +kernel, by decide +kernel, by decide +kernel⟩,
    by decide +kernel, by decide +kernel,
    ⟨0, by decide, ⟨by decide +kernel, by decide +kernel, rfl⟩, by decide +kernel, by decide +kernel, by decide +kernel⟩,
    by decide +kernel, by decide +kernel, by decide +kernel⟩

theorem wit_queue_actions :
    ActionAt 0 0 9 kAct [] 0x1009 0 hpushS ∧ actHandle (hpushS.tile 0) 0 0 kAct 0x1009 = some (mkHandle 0 0 1) ∧
    (hpushS.tile 0).pushRes 0 (mkHandle 0 0 1) = .ok ∧
    ActionAt 0 0 10 kAct [] 0x100A 0 chretS ∧ ((chretS.tile 0).ch 0).st = .bound ∧
    actAmt 0x100A ≤ ((chretS.tile 0).ch 0).credit ∧
    ActionAt 0 0 11 kAct [] 11 0 (openS .closed 11) ∧ recKind ((openS .closed 11).tile 0 |>.chrec 0) = 2 ∧
    ((openS .closed 11).tile 0 |>.ch 0).st = .closed ∧
    ActionAt 0 0 12 kAct [] 12 0 (openS .opening 12) ∧ ((openS .opening 12).tile 0 |>.ch 0).st = .opening :=
  ⟨⟨0, by decide, ⟨by decide +kernel, by decide +kernel, rfl⟩, by decide +kernel, by decide +kernel, by decide +kernel⟩,
    by decide +kernel, by decide +kernel,
    ⟨0, by decide, ⟨by decide +kernel, by decide +kernel, rfl⟩, by decide +kernel, by decide +kernel, by decide +kernel⟩,
    by decide +kernel, by decide +kernel,
    ⟨0, by decide, ⟨by decide +kernel, by decide +kernel, rfl⟩, by decide +kernel, by decide +kernel, by decide +kernel⟩,
    by decide +kernel, by decide +kernel,
    ⟨0, by decide, ⟨by decide +kernel, by decide +kernel, rfl⟩, by decide +kernel, by decide +kernel, by decide +kernel⟩,
    by decide +kernel⟩

/-! ## Chapters 04 and 05: the engines -/

/-- Nest 0 before a firing of descriptor 0 by the engine that `ctl` selects. -/
def fireT (ctl : Word) (ws : SMap Word) (x : Tile) : Tile :=
  { words ((512, ctl) :: ws) x with nests := [(0, { live := true, todo := [.fire] })] }
def kFire : Nest := { live := true, todo := [.fire] }

/-- An INT8 product of 32 rows to FP32. -/
def mtxW0 : Word := packW [(4, 1), (5, 0x0A), (5, 0x0A), (5, 0), (13, 0), (6, 32)]
def mmaS : State := one (fireT 3 [(768, mtxW0)] tile0)

theorem wit_mma : MmaReady 0 0 kFire (MDesc.ofWords mtxW0 0) 0 0 0 mmaS where
  present := by decide +kernel
  ready := by decide +kernel
  desc := by decide +kernel
  free := rfl
  addrA := by decide +kernel
  addrB := by decide +kernel
  addrC := by decide +kernel
  place := by decide +kernel
  scales := by decide +kernel
  check := by decide +kernel
  alignA := by decide +kernel
  alignB := by decide +kernel
  alignC := by decide +kernel

/-- A step as MMA issues it, and the tile with it in one of the engine's places. -/
def q0 : MtxStep :=
  { w0 := mtxW0, w1 := 0, desc := 0, nest := 0, plane := 0, addrA := 0, addrB := 1024, addrC := 4096, slot := 0,
    first := true, last := true, pass := 0 }
def mtxS (f : Matrix → Matrix) : State := one { tile0 with mtx := f {} }

theorem wit_mtx_read : (mtxS fun m => { m with issued := [q0] }).unitRuns 0 .mtx = true ∧
    (q0.first && q0.d.accIn == 2) = false ∧
    ∀ r ∈ operandLines q0.d.fa q0.d.mxa q0.addrA q0.d.sa ++ operandLines q0.d.fb q0.d.mxb q0.addrB q0.d.sb,
      tile0.linesOn r.1 r.2 = true := by decide +kernel

theorem wit_mtx_rows :
    (mtxS fun m => { m with rows := [{ step := q0, row := 31, vals := [], fin := true }] }).unitRuns 0 .mtx = true ∧
    ((mtxS fun m => { m with rows := [{ step := q0, row := 31, vals := [], fin := true }] }).tile 0).mtx.drainPending q0 =
      false := by decide +kernel

theorem wit_mtx_drain : (mtxS fun m => { m with drains := [q0] }).unitRuns 0 .mtx = true ∧ q0.d.stateOut = false ∧
    Fmt.ofCode q0.d.fc = some .fp32 ∧ tile0.linesOn q0.addrC (outBytes q0.d.fc) = true ∧ q0.d.mxc = false ∧
    ({ q0 with w0 := setFld mtxW0 40 1 1 } : MtxStep).d.stateOut = true ∧
    tile0.linesOn q0.addrC (512 * 32) = true := by decide +kernel

/-- One FP32 element by vector operation `op`; its curve table 0 serves CURVE. -/
def vecW0 (op : Nat) : Word := packW [(6, op), (37, 0), (14, 1)]
def vecS (op : Nat) : State := one ((fireT 0x13 [(800, vecW0 op)] tile0).setReg 3 0x170 0xB)

theorem wit_vector : ∀ o : Fin 14, VecReady 0 0 (o + 1) kFire (VDesc.ofWords (vecW0 (o + 1)) 0) 1 0 0 0
    (vecS (o + 1)) := by
  intro o
  constructor <;> revert o <;> decide +kernel

theorem wit_setvl : (vecS 15).readyFire 0 1 1 .vec = none ∧ (vecS 15).readyFire 0 0 1 .vec = some kFire ∧
    VDesc.ofWords (vecW0 15) 0 = VDesc.ofWords (((vecS 15).tile 0).cword 0 3 32) (((vecS 15).tile 0).cword 0 3 33) ∧
    (VDesc.ofWords (vecW0 15) 0).op = 15 ∧
    (((vecS 15).onTile 0 (fun x => { x with fab := { x.fab with vecWord := some 8192 } })).tile 0).fab.vecWord =
      some 8192 := by decide +kernel

/-- A firing of one FP32 element of ADD whose second source is a scalar word, or the scratchpad. -/
def fire0 (src2 : Nat) : VecFire :=
  { w0 := packW [(6, 1), (26, 0), (2, src2), (9, 0), (14, 1), (3, 1)], w1 := 0, desc := 0, nest := 0, plane := 0,
    addrA := 0, addrB := 64, addrC := 128, len := 1, s2w := none, s3w := none, nextRead := 0, groups := [],
    written := 0, mxWait := [], red := [] }
def grp0 : VecGroup := ⟨[(0, .zero, .zero, .zero)], [false]⟩
def tail0 : VecFire := { fire0 0 with groups := [grp0], nextRead := 1 }
def vS (v : Vector) : State := one { tile0 with vec := v }

theorem wit_vec_read : (vS { fire := some (fire0 2) }).unitRuns 0 .vec = true ∧ (fire0 2).wordNeeded = some 1 ∧
    (fire0 0).wordNeeded = none ∧ (fire0 0).nextRead < (fire0 0).len ∧
    ∀ l ∈ (fire0 0).readLines, tile0.linesOn l 64 = true := by decide +kernel

theorem wit_vec_write : (vS { tail := [tail0] }).unitRuns 0 .vec = true ∧ tail0.groups = grp0 :: [] ∧
    Fmt.ofCode tail0.d.fd = some .fp32 ∧
    (∀ l ∈ runLines tail0.d.fd tail0.addrC tail0.written 1, tile0.linesOn l 64 = true) ∧
    (tile0.writeGroup { tail0 with groups := [] } .fp32 grp0).2.written = 1 := by decide +kernel

/-- A reduction of one value is due. -/
def redS (op : Nat) : State := vS { red := [{ op := op, ovf := false, vals := [Val.ofInt 1] }] }

theorem wit_reduce : ∀ o : Fin 4, (redS (o + 1)).present 0 = true ∧ (redS (o + 1)).unitRuns 0 .vec = true ∧
    ((redS (o + 1)).tile 0).vec.held = [] ∧ (((redS (o + 1)).tile 0).port (portNo .sca 4)).fifo.length ≤ 6 := by
  decide +kernel

/-- SETVL that names SUM, a word of the last reduction held, its own word waiting. -/
def setvlS : State :=
  { vecS 15 with tiles := [(0, { ((fireT 0x13 [(800, setFld (vecW0 15) 57 3 1)] tile0).setReg 3 0x170 0xB) with
    vec := { held := [1] }, fab := { vecWord := some 8192 } })] }
theorem wit_setvl_waits : let d := VDesc.ofWords (setFld (vecW0 15) 57 3 1) 0
    setvlS.readyFire 0 0 1 .vec = some kFire ∧
    d = VDesc.ofWords ((setvlS.tile 0).cword 0 3 32) ((setvlS.tile 0).cword 0 3 33) ∧ d.op = 15 ∧
    d.check (setvlS.tile 0) 0 0 0 0 = none ∧ (setvlS.tile 0).vec.fire = none ∧
    (setvlS.tile 0).fab.vecWord = some 8192 ∧ d.redop ≠ 0 ∧ (setvlS.tile 0).vec.held ≠ [] := by decide +kernel

/-- Of 3.0 and 2.0: the sum 5.0, the difference 1.0, the product 6.0, the lower, the higher, and 3.0 < 2.0. -/
def elemW : List (Nat × Nat) :=
  [(1, 0x40A00000), (2, 0x3F800000), (3, 0x40C00000), (6, 0x40000000), (7, 0x40400000), (8, 0)]
def elemF (op : Nat) : VecFire :=
  { tail0 with w0 := packW [(6, op), (26, 0), (2, 0), (2, 0), (3, 2), (4, 0), (14, 1)]
               groups := [⟨[(0, fp32L.decode 0x40400000, fp32L.decode 0x40000000, .zero)], [false]⟩] }

theorem wit_elements : Fp32Word 0x40400000 ∧ Fp32Word 0x40000000 ∧ ∀ c ∈ elemW, Fp32Word c.2 ∧
    WordOf (elemF c.1).d 0x40400000 0x40000000 c.2 ∧ (elemF c.1).d.f1 = 0 ∧ (elemF c.1).d.f2 = 0 ∧
    (elemF c.1).d.fd = 0 ∧ (elemF c.1).d.src2 = 0 ∧ (elemF c.1).d.mx1 = false ∧ (elemF c.1).d.mxd = false ∧
    (elemF c.1).d.round = 0 ∧ (vS { tail := [elemF c.1] }).unitRuns 0 .vec = true ∧
    (∀ l ∈ (elemF c.1).writeLines 1, tile0.linesOn l 64 = true) := by
  refine ⟨by unfold Fp32Word; decide, by unfold Fp32Word; decide, fun c h => ?_⟩
  simp only [elemW, List.mem_cons, List.not_mem_nil, or_false] at h
  obtain rfl | rfl | rfl | rfl | rfl | rfl := h <;>
    exact ⟨by unfold Fp32Word; decide, by first | exact ⟨by decide +kernel, by decide +kernel⟩ |
      exact .inr ⟨by decide +kernel, by decide +kernel⟩, by decide +kernel⟩

/-- 3.0, 2.0 and 1.0 come to 6.0. -/
def redW : List Nat := [0x40400000, 0x40000000, 0x3F800000]
theorem wit_reduction_values : (∀ a ∈ redW, Fp32Word a) ∧ redW.length ≤ 32 ∧ fp32Units 0x40C00000 ≠ 0 ∧
    fp32Units 0x40C00000 = (redW.map fp32Units).sum ∧ (∀ a ∈ redW, fp32Units a % 2 ^ 149 = 0) ∧
    (redW.map (fun a => (fp32Units a).natAbs)).sum ≤ 2 ^ 24 * 2 ^ 149 ∧
    (∀ a ∈ redW, fp32Units a ≤ fp32Units 0x40400000) ∧ (∀ a ∈ redW, fp32Units 0x3F800000 ≤ fp32Units a) ∧
    redW[0]? = some 0x40400000 := by
  unfold Fp32Word
  decide +kernel

/-- SUM of the one value 1.0 emits 0x3F800000; ARGMAX also emits index 0 (R147). -/
theorem test_sum_of_one : (redWords { op := 1, ovf := false, vals := [Val.ofInt 1] }).1 = [0x3F800000] := by
  decide +kernel
theorem test_argmax_of_one : (redWords { op := 4, ovf := false, vals := [Val.ofInt 1] }).1 = [0x3F800000, 0] := by
  decide +kernel

/-- One FP32 element of a row; ε is 1.0, curve table 0 is EXP2 with K = log₂e, the record is there. -/
def rowW0 (op : Nat) : Word := packW [(4, op), (23, 0), (14, 1)]
def rowS (op : Nat) : State :=
  one { ((fireT 0x23 [(928, rowW0 op), (929, 0x3F800000)] tile0).setReg 3 0x170 0x3FB8AA3B00000009) with
    row := { side := [(0, { valid := true, kind := (op - 1) % 3 + 1, n := 1 })] } }

theorem wit_row : ∀ o : Fin 6, RowReady 0 0 (o + 1) kFire (RDesc.ofWords (rowW0 (o + 1)) 0x3F800000) .fp32 1 0 0 0
    (rowS (o + 1)) := by
  intro o
  constructor <;> revert o <;> decide +kernel

/-! ## Chapter 06: the static fabric -/

/-- Tile 0 with this fabric and these words of plane 0, before `f`. -/
def fabS (ws : SMap Word) (f : Fabric) : State := one { words ws tile0 with fab := f }
/-- A scalar word, a vector head of 1,000 ns, a vector data token. -/
def kSca : Token := { data := 7 }
def kHead : Token := { data := headData 1000 5 0, head := true, slot := 2 }
def kData : Token := { data := 0x1234, slot := 2, last := true }

/-- Scalar input 0 holds a word and output 4 names it. -/
def swS : State := fabS [(1, 0xFFFFFFFFFFF0FFFF)] { ports := [(portNo .sca 0, { fifo := [kSca] })] }

/-- A head at vector input 0 for output 4, and a launched head at input 4 for the link north. -/
def swHead : State := 
  fabS [(0, 0xFFFFFFFFFFF0FFFF), (8, packW [(14, 0), (14, 2), (4, 0), (4, 0), (1, 0), (1, 1)])]
    { ports := [(portNo .vec 0, { fifo := [kHead] })] }
def kJoin : Token := { kHead with cands := [(900, 0, 0)] }
def swLaunch : State :=
  let s := fabS [(0, 0xFFFFFFFFFFFFFFF4)] { ports := [(portNo .vec 4, { fifo := [kJoin] })] }
  { s with tiles := s.tiles ++ [(16, tile0)] }

theorem wit_switch : SwitchReady 0 .sca 0 kSca swS ∧ SwitchReady 0 .vec 0 kHead swHead ∧
    SwitchReady 0 .vec 4 kJoin swLaunch := by
  refine ⟨?_, ?_, ?_⟩ <;> constructor <;> decide +kernel

def flightS (net : Net) (k : Token) : State := fabS [] { ports := [(portNo net 0, { flight := [k] })] }

/-- What crosses: a word, a token of the other set, heads of full, unbounded and small budget, a marker. -/
def kCross : Fin 6 → Net × Token
  | 0 => (.sca, kSca)
  | 1 => (.sca, { kSca with set := !tile0.cfg.liveSet })
  | 2 => (.vec, kHead)
  | 3 => (.vec, { kHead with data := headData unbounded 5 0 })
  | 4 => (.vec, { kHead with data := headData 2 5 0 })
  | 5 => (.ctl, { data := 24 })

theorem wit_crossing : ∀ i : Fin 6, CrossReady 0 (kCross i).1 0 (kCross i).2 [] (flightS (kCross i).1 (kCross i).2) ∧
    ((kCross i).2.set = tile0.cfg.liveSet ↔ i ≠ 1) := by
  intro i
  refine ⟨?_, ?_⟩
  · constructor <;> revert i <;> decide +kernel
  · revert i; decide +kernel

theorem wit_crossing_charge : let s := flightS .vec kHead
    cdiv (s.crossBound 0 0 * (s.tile 0).clk.per) 65536 = 3 ∧ kHead.budget = 1000 ∧ (kCross 3).2.budget = unbounded ∧
    (kCross 4).2.budget = 2 ∧ (kCross 5).2.isMarker = true ∧ (s.tile 0).markIn 0 = false ∧
    ((s.tile 0).port (portNo .vec 0)).queue = [] ∧ ((s.tile 0).port (portNo .vec 0)).fifo.length < 8 := by
  decide +kernel

/-- A napping tile whose input FIFO is full, a word on its link. -/
def napFull : State := (flightS .sca kSca).onTile 0 (fun x =>
  { x.setPort (portNo .sca 0) { flight := [kSca], fifo := List.replicate 8 kSca } with clk := { x.clk with pstate := .nap } })
theorem wit_crossing_nap : napFull.present 0 = true ∧ (napFull.tile 0).clk.pstate = .nap ∧
    8 ≤ ((napFull.tile 0).port (portNo .sca 0)).fifo.length := by decide +kernel

/-- Landing port 0 takes lines 0 and 1 and counts them in counter 0. -/
def landS (k : Token) : State :=
  fabS [(8, packW [(14, 0), (14, 2), (4, 0), (4, 0), (1, 0), (1, 1)])] { landings := [(0, { inp := some k })] }

theorem wit_landing : ((landS kHead).tile 0 |>.landing 0).inp = some kHead ∧ kHead.head = true ∧
    (landS kHead).unitRuns 0 (.landing 0) = true ∧ ((landS kData).tile 0 |>.landing 0).inp = some kData ∧
    kData.head = false ∧ (landS kData).unitRuns 0 (.landing 0) = true ∧
    ((landS kData).tile 0).linesOn 0 64 = true ∧
    (kData.last && (((landS kData).tile 0).landDesc 0).lcntEn) = false ∧
    ((landS kData).tile 0).counterHeld 0 = false ∧
    (((landS kData).onTile 0 (fun x => x.setCounter 0 { lost := true })).tile 0).counterHeld 0 = true := by decide +kernel

/-- Launch port 0 serves queue 0 for the slot of landing port 0, with HEAD as `hd`; its input feeds link output 0. -/
def launchS (hd : Nat) (q : SMap (List (BitVec 32))) (l : Launch) (cur : Option Nat) : State :=
  one { words [(0, 0xFFFFFFFFFFFFFFF4), (12, packW [(2, 0), (2, 0), (1, hd), (1, 0), (1, 1)])] tile0 with
    hq := q, fab := { launches := [(0, l)], landings := [(0, { cur := cur })] } }
def h2 : BitVec 32 := mkHandle 0 0 2
def g0 : Sending := { handle := h2, slot := 2, line := 0, entry := none, bound := none }
def gIn (bud : Nat) : Sending := { g0 with entry := some (bud, 0, 9, 0), line := 1 }
/-- The same, the head free to leave: the tile to the north is awake. -/
def issueS (bud : Nat) : State :=
  let s := launchS 0 [] { cur := some (gIn bud) } (some 2)
  { s with tiles := s.tiles ++ [(16, tile0)] }

theorem wit_launch : ∀ (hd cur : Bool),
    let s := launchS (b2n hd) [(0, [h2])] {} (if cur then some 2 else none)
    LaunchReady 0 0 h2 s ∧ s.boundSlot 0 (hWin h2) = none ∧ ((s.tile 0).launchDesc 0).head = hd ∧
    ((s.tile 0).landing ((s.tile 0).launchDesc 0).src).cur = (if cur then some 2 else none) ∧
    (s.tile 0).cfg.origin = false ∧ ((s.tile 0).drains && (s.tile 0).origin) = false ∧
    (s.tile 0).portRoom (portNo .vec 4) = true := by
  intro hd cur
  refine ⟨?_, ?_⟩
  · constructor <;> revert hd cur <;> decide +kernel
  · revert hd cur; decide +kernel

/-- A request of slot 2 in window 0, whose header line begins with byte b at place a. -/
def entryS (a b : Nat) : State :=
  let s := launchS 1 [(0, [h2])] {} none
  { s.onTile 0 (fun x => (x.setReg 1 0x180 (packW [(14, 0), (15, 32), (2, 1)])).wr a [BitVec.ofNat 8 b]) with
    dev := [(rkey (pgCtx 0) 0x160, 1)] }

theorem wit_entry : ∀ good : Bool, let s := entryS (if good then 0 else 3) 0x10
    LaunchReady 0 0 h2 s ∧ s.boundSlot 0 (hWin h2) = some 2 ∧ (s.tile 0).cfg.origin = false ∧
    (s.tile 0).drains = false ∧ (s.tile 0).linesOn ((s.tile 0).hAddr h2) 64 = true ∧
    headerGood 0 2 ((s.tile 0).hAddr h2) s = good := by
  intro good
  refine ⟨?_, ?_⟩
  · constructor <;> revert good <;> decide +kernel
  · revert good; decide +kernel

theorem wit_launch_lines : let s := launchS 0 [] { cur := some g0 } (some 2)
    ((s.tile 0).launch 0).cur = some g0 ∧ g0.line + 1 < hLen g0.handle ∧ s.unitRuns 0 (.launch 0) = true ∧
    (s.tile 0).portRoom (portNo .vec 4) = true ∧ hLen g0.handle ≤ ({ g0 with line := 1 } : Sending).line + 1 ∧
    ∀ n : Fin 2, (s.tile 0).linesOn ((s.tile 0).hAddr h2 + 64 * n) 64 = true := by decide +kernel

theorem wit_entry_issue : ∀ late : Bool, let bud := if late then 0 else 5000
    let s := issueS bud
    (s.tile 0 |>.launch 0).cur = some (gIn bud) ∧ (s.tile 0).outsOf .vec 4 = [0] ∧
    (s.tile 0).portHead (portNo .vec 4) = none ∧ s.unitRuns 0 (.launch 0) = true ∧
    (s.tile 0).fab.switchDue = false ∧ (s.tile 0).cfg.origin = false ∧ (s.tile 0).drains = false ∧
    issueBudget 0 (gIn 5000) 5000 0 s = 5000 := by decide +kernel

theorem wit_issue_late :
    issueBudget 0 (gIn 0) 0 0 { issueS 0 with dev := [(rkey (pgCtx 0) 0x160, 0x100000)] } < 0 := by decide +kernel

theorem wit_issue_room (k : Token) (_ : k.head = true) (b : Bool) :
    (issueS (if b then 0 else 5000)).outRoom 0 .vec 0 k = true := by
  show (issueS (if b then 0 else 5000)).linkRoom 0 0 .vec = true
  revert b
  decide +kernel

/-- Port 0's queue of 2 lines holds a token; port 0 has stood 1,024 cycles under LIMIT = 1. -/
def dqS : State := fabS [(16, packW [(14, 0), (7, 2)])] { ports := [(0, { queue := [{}] })] }
def progS : State :=
  one ((({ tile0 with fab := {
    ports := [(0, { watch := 1024 })], landings := [(0, { watch := 1024 })] } } : Tile)).setReg 0 0x140 1)

theorem wit_queue_progress : dqS.present 0 = true ∧ dqS.unitRuns 0 (.port (portNo .vec 0)) = true ∧
    ((dqS.tile 0).port 0).queue = [{}] ∧ (progS.tile 0).fabLimit = 1 ∧
    (progS.tile 0).fabLimit * 1024 ≤ ((progS.tile 0).port 0).watch ∧
    (progS.tile 0).fabLimit * 1024 ≤ ((progS.tile 0).landing 0).watch := by decide +kernel

/-- Steering unit 0 in state 0 with operation `op`, its condition and its data waiting; its sequencer stands as q. -/
def steerS (op : Nat) (v : Nat) (q : Seqr) : State :=
  let s := fabS [(256, 1), (257, packW [(3, op)])]
    { ports := [(28, { fifo := [kData] }), (29, { fifo := [kData] }), (30, { fifo := [{ data := BitVec.ofNat 512 v }] })] }
  s.onTile 0 (fun x => x.setSeqr 0 0 q)

theorem wit_steering : ∀ (o : Fin 6) (v : Fin 2), SteerAt 0 0 (o + 1) (steerS (o + 1) v {}) ∧
    ((steerS (o + 1) v {}).tile 0).portHead (steerPort 0 (steerPath (o + 1) (v == 1)).1) = some kData ∧
    ((steerS (o + 1) v {}).tile 0).portRoom (qPort ((steerS (o + 1) v {}).tile 0) 0 (o % 2)) = true ∧
    ((steerS (o + 1) v {}).tile 0).portRoom (portNo .ctl 5) = true ∧
    (((steerS (o + 1) v {}).tile 0).steerSt 0 0 0).grain = false := by
  unfold SteerAt
  decide +kernel

/-- A decision from the queue, of PASS, taken before, and of an open sequence. -/
theorem wit_decides : Decides 0 0 4 true true (steerS 4 1 {}) ∧ Decides 0 0 1 false false (steerS 1 1 {}) ∧
    Decides 0 0 3 true false (steerS 3 1 { cond := some true }) ∧
    Decides 0 0 2 true false (steerS 2 1 { opened := true, sel := true }) := by
  refine ⟨.inr (.inr (.inr ⟨?_, by decide, ?_, rfl, { data := 1 }, ?_, ?_⟩)), .inr (.inl ?_), .inr (.inr (.inl ?_)),
    .inl ?_⟩ <;> decide +kernel

/-- MERGE whose condition has come and whose data has not. -/
theorem wit_merge_waits : let s := (steerS 3 1 {}).onTile 0 (fun x => x.setPort 29 {})
    SteerAt 0 0 3 s ∧ (s.tile 0).portHead (steerPort 0 (steerPath 3 true).1) = none := by
  unfold SteerAt
  decide +kernel

theorem wit_plane_switch : let s := fabS [] { switchDue := true, switchOver := 1 }
    s.tileRuns 0 = true ∧ (s.tile 0).fab.switchDue = true ∧ 1 ≤ (s.tile 0).fab.switchOver := by decide +kernel

/-! ## Chapter 07: messages, counters, channels -/

/-- Message m, complete, at the head of tile 0's inbox. -/
def inS (m : Msg) (x : Tile) : State := { one x with inbox := [(0, [{ msg := m, complete := true }])] }
/-- A message of OP `op` from tile 16 of context 0. -/
def msgOp (op : Nat) (w1 : Word) : Msg := { op := op, src := 16, dest := 0, w1 := w1, tag := 3 }

/-- Window 0: lines 0 to 31, mode `m`, owned by context 0. -/
def winT (m : Nat) : Tile := tile0.setReg 1 0x180 (packW [(14, 0), (15, 32), (2, m)])
def writeM : Msg := { msgOp 1 (winW1 0 64 64) with payload := List.replicate 64 7 }

theorem wit_write : WriteReady 0 writeM (inS writeM (winT 1)) := by
  unfold WriteReady MsgReady
  decide +kernel

/-- The window is closed; the last of its lines lies in a bank that is off. -/
theorem wit_write_turned_away : winCheck (winT 0) writeM 64 64 = some .winClosed ∧
    MsgReady 0 1 writeM (inS writeM (winT 0)) ∧
    (let x := (winT 1).setReg 1 0x100 0
     MsgReady 0 1 writeM (inS writeM x) ∧ winCheck x writeM 64 64 = none ∧ x.linesOn ((x.win 0).base * 64 + 64) 64 = false) := by
  unfold MsgReady
  decide +kernel

def hpushM : Msg := { msgOp 3 (winW1 1 0 4) with payload := leBytes 4 (mkHandle 0 0 1).toNat }
theorem wit_pad_hpush : MsgReady 0 2 (msgOp 2 (winW1 0 64 0)) (inS (msgOp 2 (winW1 0 64 0)) (winT 2)) ∧
    winCheck (winT 2) (msgOp 2 (winW1 0 64 0)) 64 64 = none ∧ (winT 2).linesOn 64 64 = true ∧
    MsgReady 0 3 hpushM (inS hpushM (winT 1)) ∧ hpushM.mlen = 4 ∧
    (winT 1).pushRes 1 (BitVec.ofNat 32 (leNat hpushM.payload)) = .ok ∧
    ({ winT 1 with hq := [(1, List.replicate 16 0)] } : Tile).pushRes 1 (BitVec.ofNat 32 (leNat hpushM.payload)) = .full := by
  unfold MsgReady
  decide +kernel

/-- A WRITE shorter than it says; a PAD to a closed window and to one whose bank is off; a handle out of its window. -/
def shortM : Msg := { msgOp 1 (winW1 0 64 64) with payload := List.replicate 3 7 }
def padM : Msg := msgOp 2 (winW1 0 64 0)
def offT : Tile := (winT 2).setReg 1 0x100 0
theorem wit_turned_away_forms : ((inS shortM (winT 1)).headMsg 0).map (·.msg) = some shortM ∧ shortM.mlen ≠ shortM.payload.length ∧
    MsgReady 0 2 padM (inS padM (winT 0)) ∧ winCheck (winT 0) padM padM.off 64 = some .winClosed ∧
    MsgReady 0 2 padM (inS padM offT) ∧ winCheck offT padM padM.off 64 = none ∧
    offT.linesOn ((offT.win padM.win).base * 64 + padM.off) 64 = false ∧
    MsgReady 0 3 hpushM (inS hpushM tile0) ∧ tile0.pushRes 1 (BitVec.ofNat 32 (leNat hpushM.payload)) = .bounds := by
  unfold MsgReady
  decide +kernel

/-- Counter messages of amount 2 at counter 0, whose value is 1, and at one whose value is 5. -/
def cntM (op : Nat) : Msg := msgOp op (cntW1 0 0 false 2 1 0 0 false false)
def cntS (op v : Nat) : State := inS (cntM op) (tile0.setCounter 0 { value := v })

theorem wit_counters : ∀ (o : Fin 5) (v : Fin 2), CounterReady 0 ([8, 9, 10, 12, 14].getD o 0)
    (cntM ([8, 9, 10, 12, 14].getD o 0)) (cntS ([8, 9, 10, 12, 14].getD o 0) (1 + 4 * v)) := by
  unfold CounterReady MsgReady
  decide +kernel

/-- A CLAIM that would pass the top, and one at a saturated counter; a CRESET of the management die. -/
def satS : State := inS (cntM 10) (tile0.setCounter 0 { value := 0xFFFFFF, satHi := true })
def mgtReset : Msg := { cntM 14 with src := unitMgt, sctx := 5, priv := true }
theorem wit_claim_saturated : CounterReady 0 10 (cntM 10) (cntS 10 0xFFFFFE) ∧ CounterReady 0 10 (cntM 10) satS ∧
    (satS.tile 0 |>.counter 0).satHi = true ∧ CounterReady 0 14 mgtReset (inS mgtReset tile0) := by
  unfold CounterReady MsgReady
  repeat' apply And.intro
  all_goals decide +kernel

theorem wit_claim_wait : ((cntS 10 5).tile 0 |>.counter 0).satHi = false ∧ (cntS 10 5).unitExists 16 = true ∧
    ((cntS 12 1).tile 0 |>.counter 0).waiters.findIdx? (·.isNone) = some 0 := by decide +kernel

/-- A counter that a restart lost; a frozen tile; a tile whose context restarts. -/
theorem wit_held_counters : ∀ op ∈ [8, 9, 10, 12, 14],
    MsgReady 0 op (cntM op) (inS (cntM op) (tile0.setCounter 0 { lost := true })) ∧
    TurnsAway 0 op 3 (cntM op) (inS (cntM op) { tile0 with cfg := { tile0.cfg with frozen := true } }) ∧
    TurnsAway 0 op 2 (cntM op) (inS (cntM op) { tile0 with cfg := { tile0.cfg with contained := true } }) := by
  unfold MsgReady TurnsAway
  decide +kernel

/-- CINC at the top saturates (R234). -/
theorem test_inc_saturates : (Counter.inc { value := 0xFFFFFE } 2).1.value = 0xFFFFFF ∧
    (Counter.inc { value := 0xFFFFFE } 2).1.satHi = true ∧ (Counter.inc { value := 0xFFFFFE } 1).1.satHi = false ∧
    (Counter.dec { value := 1 } 2).1.value = 0 ∧ (Counter.dec { value := 1 } 2).1.satLo = true := by decide

/-- Answers at tile 0. -/
def crespM : Msg := { msgOp 0x0B (cntW1 0 0 false 5 1 0 0 false false) with tag := 3 }
theorem wit_answers : AnswerReady 0 0x0B crespM (inS crespM (winT 1)) ∧ crespM.status ≠ 3 ∧
    (winT 1).linesOn 0 8 = true ∧ AnswerReady 0 0x0D (msgOp 0x0D 0) (inS (msgOp 0x0D 0) tile0) ∧
    (msgOp 0x0D 0).statEn = false ∧ AnswerReady 0 4 (msgOp 4 0) (inS (msgOp 4 0) tile0) := by
  unfold AnswerReady
  decide +kernel

/-- CREL with OWNER_LOST, which its waiter takes or not, and refused; CRESP and CREL answered FROZEN. -/
theorem wit_refusals : ∀ (st : Fin 4) (lost : Bool),
    let m := { msgOp 0x0D (cntW1 0 0 false 0 0 0 0 lost false) with status := st.val }
    AnswerReady 0 0x0D m (inS m tile0) ∧ m.lostOk = lost ∧ m.status = st.val ∧
    AnswerReady 0 0x0B { crespM with status := 3 } (inS { crespM with status := 3 } tile0) := by
  unfold AnswerReady
  decide +kernel

/-- A message for context 0, which is not RUNNING as the tile knows, or not the owner. -/
theorem wit_turned_away : (∃ rs, turnAway { tile0 with mp := { runStates := rs } } (msgOp 8 0) = some 3) ∧
    turnAway { tile0 with cfg := { tile0.cfg with owned := false } } (msgOp 8 0) = some 2 :=
  ⟨⟨[(0, 4)], by decide +kernel⟩, by decide +kernel⟩

/-- Record 0 of kind `kd` names tile 16 and its window 0; its running state is k. -/
def recT (kd : Nat) (k : ChRec) (x : Tile) : Tile := (x.setReg 2 0x200 (packW [(2, kd), (13, 16)])).setCh 0 k
def openrM : Msg := msgOp 0x11 (chW1 0 0 32 16)

theorem wit_channels : MsgReady 0 0x10 (msgOp 0x10 0) (inS (msgOp 0x10 0) (winT 2)) ∧
    openAccepts (winT 2) (msgOp 0x10 0) = some 0 ∧
    AnswerReady 0 0x11 openrM (inS openrM (recT 2 { st := .opening } tile0)) ∧
    ((recT 2 { st := .opening } tile0).ch 0).st = .opening ∧
    MsgReady 0 0x14 (msgOp 0x14 0) (inS (msgOp 0x14 0) (recT 3 { st := .bound, peer := 16 } (winT 2))) ∧
    (recT 3 { st := .bound, peer := 16 } (winT 2)).recvOf 0 = some 0 ∧
    AnswerReady 0 0x15 (msgOp 0x15 0) (inS (msgOp 0x15 0) (recT 2 { st := .closing } tile0)) ∧
    ((recT 2 { st := .closing } tile0).ch 0).st = .closing := by
  unfold MsgReady AnswerReady
  decide +kernel

/-- CH_OPEN where no channel window stands; CH_OPENR to a record with a close command, and refusals; CH_CLOSE of
another than the peer. -/
theorem wit_channel_refusals : MsgReady 0 0x10 (msgOp 0x10 0) (inS (msgOp 0x10 0) tile0) ∧
    openAccepts tile0 (msgOp 0x10 0) = none ∧
    ((recT 2 { st := .opening, closeReq := true } tile0).ch 0).closeReq = true ∧
    AnswerReady 0 0x11 openrM (inS openrM (recT 2 { st := .opening, closeReq := true } tile0)) ∧
    (∀ st ∈ [5, 4, 2], let m := { openrM with status := st }
      AnswerReady 0 0x11 m (inS m (recT 2 { st := .opening } tile0))) ∧
    MsgReady 0 0x14 (msgOp 0x14 0) (inS (msgOp 0x14 0) (recT 3 { st := .bound, peer := 17 } (winT 2))) ∧
    (recT 3 { st := .bound, peer := 17 } (winT 2)).recvOf 0 = some 0 := by
  unfold MsgReady AnswerReady
  decide +kernel

def credM (op : Nat) : Msg := msgOp op (chW1 0 0 8 0)
def credT : Tile := recT 2 { st := .opened, credit := 24, size := 32 } tile0
theorem wit_credit : MsgReady 0 0x13 (credM 0x13) (inS (credM 0x13) credT) ∧
    MsgReady 0 0x12 (credM 0x12) (inS (credM 0x12) credT) ∧
    (credT.ch 0).credit + (credM 0x13).lines ≤ (credT.ch 0).size := by
  unfold MsgReady
  decide +kernel

/-- More credit than the ring has lines; an ACK of no operation of a record, and one that loses an open record. -/
theorem wit_credit_ack : (let x := recT 2 { st := .opened, credit := 25, size := 32 } tile0
      MsgReady 0 0x13 (credM 0x13) (inS (credM 0x13) x) ∧ MsgReady 0 0x12 (credM 0x12) (inS (credM 0x12) x) ∧
      (x.ch 0).size < (x.ch 0).credit + (credM 0x13).lines) ∧
    (let x := { recT 2 { st := .opened } tile0 with mp := { (recT 2 { st := .opened } tile0).mp with
        sent := [{ msg := { msgOp 1 0 with tag := 3 }, rec_ := some 0 }] } }
     let m := { msgOp 4 0 with status := 2 }
     AnswerReady 0 4 m (inS m x) ∧ (x.sentOp 3).bind (·.rec_) = some 0 ∧ (x.ch 0).st = .opened ∧
     (x.sentOp 3).any (fun o => o.msg.op == 0x10) = false) := by
  unfold MsgReady AnswerReady
  decide +kernel

/-- A handle of one line of window 0 waits in queue 0 for record 0. -/
def sendS (kd : Nat) (k : ChRec) : State := one { recT kd k (winT 1) with hq := [(0, [mkHandle 0 0 1])] }
def kOpen : ChRec := { st := .opened, credit := 2, ptr := 30, size := 32, maxmsg := 16 }

theorem wit_records : DirectReady 0 0 (mkHandle 0 0 1) (sendS 1 {}) ∧
    ChannelReady 0 0 (mkHandle 0 0 1) (sendS 2 kOpen) ∧ (sendS 2 {}).mgt.boot = 2 ∧
    recKind ((sendS 2 {}).tile 0 |>.chrec 0) = 2 ∧ (sendS 2 {}).unitExists 16 = true := by
  unfold DirectReady ChannelReady
  decide +kernel

/-- A DIRECT record to export engine 0, whose buffer is full and whose next message waits in the network. -/
def heldUpS : State :=
  let s := sendS 1 {}
  { s.onTile 0 (fun x => x.setReg 2 0x200 (packW [(2, 1), (13, gxUnit 0)])) with
    gx := [(0, { held := [{ port := 0, ctx := 0, stream := 0, addr := 0, bytes := List.replicate 65536 0 }] })]
    routers := [(rkeyOf (gxUnit 0 / 256 * 256) 0,
      packets { op := 1, src := 0, dest := gxUnit 0, w1 := winW1 0 0 64, payload := List.replicate 64 0 })] }

theorem wit_held_up : heldUpS.present 0 = true ∧ recKind ((heldUpS.tile 0).chrec 0) = 1 ∧
    ((heldUpS.tile 0).hqueue (recHq ((heldUpS.tile 0).chrec 0))).head? = some (mkHandle 0 0 1) ∧
    heldUpS.heldUp (recDest ((heldUpS.tile 0).chrec 0)) = true := by decide +kernel

/-- Every state in which a command meets a SEND record. -/
theorem wit_channel_commands : ∀ st ∈ [ChState.closed, .lost, .opening, .opened], let s := sendS 2 { st := st }
    s.present 0 = true ∧ (s.tile 0).clk.pstate ≠ .off ∧ ((s.tile 0).ch 0).st = st ∧
    s.unitExists (recDest ((s.tile 0).chrec 0)) = true ∧ (s.tile 0).recFrozen 0 = false := by decide +kernel

/-- Record 0 is the exit of slot 0 of landing port 0, whose request arrived with 5 ns. -/
def exitS (cyc : Nat) : State :=
  let s := sendS 1 {}
  { s.onTile 0 (fun x => { x with
      clk := { x.clk with cyc := cyc }
      fab := { landings := [(0, { cur := some 0, recs := [(0, some { budget := 5, seq := 9 })] })] } }) with
    dev := [(rkey (pgCtx 0) 0x140, 1)] }

theorem wit_exits : ∀ late : Bool, let s := exitS (if late then 100 else 0)
    DirectReady 0 0 (mkHandle 0 0 1) s ∧ (s.exitBudget 0 0).map (fun e => decide (0 ≤ e.2.1)) = some (!late) := by
  unfold DirectReady
  decide +kernel

/-- A handle that fits no message at either kind of record; one in LOST. -/
theorem wit_toolong : ∀ kd ∈ [1, 2], let s := (sendS kd kOpen).onTile 0 (fun x => { x with hq := [(0, [mkHandle 0 0 65])] })
    s.unitRuns 0 (.record 0) = true ∧ recKind ((s.tile 0).chrec 0) = kd ∧
    ((s.tile 0).hqueue (recHq ((s.tile 0).chrec 0))).head? = some (mkHandle 0 0 65) ∧ 64 < hLen (mkHandle 0 0 65) ∧
    chMaySend ((s.tile 0).ch 0) = true ∧ ((sendS 2 { st := .lost }).tile 0 |>.ch 0).st = .lost := by decide +kernel

/-- A record at the end of its watch; an operation answered FROZEN 1,024 cycles ago; a FENCED one. -/
def stuckS : State :=
  one { (tile0.setReg 2 0x200 (packW [(24, 2), (16, 1)])).setCh 0 { watch := 1024 } with
    clk := { tile0.clk with cyc := 1024 }
    mp := { recs := [(0, { watch := 1024 })], sent := [{ msg := msgOp 8 0, frozenAt := some 0 }],
            fenced := [⟨msgOp 8 0, 16, [], none⟩] } }

theorem wit_waiting : recWlimit ((stuckS.tile 0).chrec 0) = 1 ∧ ((stuckS.tile 0).ch 0).watch = 1024 ∧
    (stuckS.tile 0).sentOp 3 = some { msg := msgOp 8 0, frozenAt := some 0 } ∧
    (stuckS.tile 0).mp.fenced.find? (fun f => f.tags.isEmpty) = some ⟨msgOp 8 0, 16, [], none⟩ ∧
    (stuckS.tile 0).cfg.halted = false ∧ stuckS.unitExists 0 = true ∧
    bit (packW [(38, 5), (1, 1)]) 38 = true ∧ bit (packW [(38, 5)]) 38 = false := by decide +kernel

/-! ## Chapter 11: commit groups -/

/-- An origin with a marker to inject and one injected; a tile with a marker at its north input. -/
def originS : State :=
  one { words [(2, 0x10000000000)] tile0 with cg := { closed := [5], inject := true }, fab := { injBoundary := 1 } }
def markS : State := fabS [(2, 0x1000000000)] { ports := [(21, { fifo := [{ data := 24, ord := 1, bound := true }] })] }

theorem wit_markers : originS.tileRuns 0 = true ∧ (originS.tile 0).origin = true ∧ (originS.tile 0).cg.closed ≠ [] ∧
    (List.range 4).all (fun la => !((originS.tile 0).launch la).openSeq) = true ∧
    ∀ b : Bool, let s := if b then markS else originS
      s.collects 0 12 (decide (0 < (s.tile 0).fab.injBoundary)) = true ∧ (s.tile 0).swapMeetsFiring = false ∧
      (s.tile 0).syncHolds = false ∧ ∀ d : Fin 4, (s.tile 0).markOut d = false := by decide +kernel

/-- Participant 0 is COMMIT_PENDING and swaps windows 0 and 1, whose entries differ. -/
def swapS : State :=
  let x := (winT 1).setReg 1 0x188 (packW [(14, 32), (15, 1), (2, 1)])
  { markS with tiles := [(0, { (((words [(2, 0x1000000000)] x).setOwn 2 0x320 3).setPart 0 { st := 3 }) with
    fab := { ports := [(21, { fifo := [{ data := 24, ord := 1, bound := true }] })] } })] }
theorem wit_swap : swapS.tileRuns 0 = true ∧ swapS.collects 0 12 (decide (0 < (swapS.tile 0).fab.injBoundary)) = true ∧
    (swapS.tile 0).swapMeetsFiring = false ∧ (swapS.tile 0).syncHolds = false ∧ swapsOf (swapS.tile 0) 0 % 2 = 1 ∧
    swapsOf (swapS.tile 0) 1 % 2 = 0 ∧ ((swapS.tile 0).win 0).base ≠ ((swapS.tile 0).win 1).base := by decide +kernel

/-- A SYNC participant that is staged holds the marker. -/
theorem wit_sync : let s := one ((tile0.setOwn 2 0x320 (packW [(1, 1), (60, 0xFFFFFFFFFFFFFFF)])).setPart 0 { st := 2 })
    (s.tile 0).syncHolds = true := by decide +kernel

/-- Participant 0: threshold 1 on counter 0, decisions at counter 1, coordinator tile 16. -/
def partS (k : CgPart) (x : Tile) : State :=
  one ((x.setOwn 2 0x320 (packW [(1, 1), (8, 0), (3, 0), (4, 0), (24, 1), (4, 1), (13, 16)])).setPart 0 k)

theorem wit_participants : ∀ b : Bool, let s := partS { st := 1 } ((tile0.setCounter 0 { value := 1 }).setCounter 1 { value := 1 })
    s.tileRuns 0 = true ∧ ((s.tile 0).part 0).st = 1 ∧ cpStt ((s.tile 0).cgp 0) ≠ 0 ∧
    cpStt ((s.tile 0).cgp 0) ≤ ((s.tile 0).counter (cpStc ((s.tile 0).cgp 0))).value ∧
    s.unitExists (cpCoord ((s.tile 0).cgp 0)) = true ∧
    ((s.tile 0).counter (cpDc ((s.tile 0).cgp 0))).epoch = ((s.tile 0).part 0).round ∧
    ((s.tile 0).counter (cpDc ((s.tile 0).cgp 0))).value ≠ 0 ∧ (b || true) = true := by decide +kernel

theorem wit_participant_held : let s := partS { st := 2 } ((tile0.setCounter 1 { value := 1, lost := true }).setCounter 0 { value := 1, lost := true })
    s.tileRuns 0 = true ∧ (s.tile 0).counterHeld (cpDc ((s.tile 0).cgp 0)) = true ∧
    ((s.tile 0).counter (cpDc ((s.tile 0).cgp 0))).epoch = ((s.tile 0).part 0).round ∧
    ((s.tile 0).counter (cpDc ((s.tile 0).cgp 0))).value ≠ 0 ∧
    ((partS { st := 3 } tile0).tile 0 |>.part 0).st = 3 := by decide +kernel

/-- A coordinator under AUTO whose one participant is staged; one at the timeout of its round. -/
def coordS (k : CgCoord) (v : Word) : State :=
  one ({ (tile0.setOwn 2 0x300 v).setCounter 0 { value := 1 } with
    cg := { coord := k }, clk := { tile0.clk with cyc := 1024 } })
def autoW : Word := packW [(1, 1), (1, 1), (4, 0), (11, 1)]
def timeW : Word := packW [(37, 1), (16, 1)]

theorem wit_coordinators : (coordS { st := 1 } autoW).tileRuns 0 = true ∧ bit ((coordS { st := 1 } autoW).tile 0).cgc 36 = false ∧
    cgNpart ((coordS { st := 1 } autoW).tile 0).cgc ≤ ((coordS { st := 1 } autoW).tile 0).staged ∧
    bit ((coordS { st := 1 } autoW).tile 0).cgc 1 = true ∧ ((coordS { st := 1 } autoW).tile 0).cgTimedOut = false ∧
    ((coordS { st := 1, firstAck := some 0 } timeW).tile 0).cgTimedOut = true := by decide +kernel

/-- A good coordinator setup of group 1; a participant that swaps windows 0 and 1. -/
def setupW : Word := packW [(1, 1), (5, 0), (11, 1), (36, 0), (8, 1)]
theorem wit_group_setup_bad : cgcBad (one tile0) 0 (1 &&& 0x1FFFFFFFFFFFFFFF) = true ∧ bit (1 : Word) 0 = true ∧
    ¬ partGood ((one tile0).tile 0) (packW [(1, 1), (60, 0xFFFFFFFFFFFFFFF)]) ∧ partGood ((one tile0).tile 0) 1 := by
  unfold partGood
  decide +kernel

/-- A coordinator whose GO counter stands at 1, its acknowledgements missing or there; one in IDLE. -/
def goW (n : Nat) : Word := packW [(1, 1), (1, 0), (4, 0), (11, n)] ||| BitVec.ofNat 64 (2 ^ 36 + 2 ^ 32)
theorem wit_go_counter : ∀ n : Fin 2, let s := (coordS { st := 1 } (goW n)).onTile 0 (fun x => x.setCounter 1 { value := 1 })
    bit (s.tile 0).cgc 36 = true ∧ 1 ≤ ((s.tile 0).counter (cgGocnt (s.tile 0).cgc)).value ∧
    cgGocnt (s.tile 0).cgc ≠ cgSc (s.tile 0).cgc ∧ (s.tile 0).cgTimedOut = false ∧ (s.tile 0).cg.coord.go = false ∧
    (cgNpart (s.tile 0).cgc ≤ (s.tile 0).staged ∨ (s.tile 0).staged < cgNpart (s.tile 0).cgc) ∧
    (s.tile 0).counterHeld (cgGocnt (s.tile 0).cgc) = false ∧
    (s.onTile 0 (fun x => { x with clk := { x.clk with pstate := .idle } })).cyclesPass 0 = true := by decide +kernel

theorem wit_group_setup : cgcBad (one tile0) 0 (setupW &&& 0x1FFFFFFFFFFFFFFF) = false ∧ bit setupW 0 = true ∧
    ((one tile0).tile 0).cg.coord.st = 0 ∧ cpInject ((3 : Word) &&& 0x1FFFFFFFFFFFFFFF) ≠ 3 ∧ bit (3 : Word) 0 = true ∧
    ((((winT 1).setReg 1 0x188 (packW [(14, 32), (15, 1), (2, 1)])).win 0).mode = 1) ∧
    ((((winT 1).setReg 1 0x188 (packW [(14, 32), (15, 1), (2, 1)])).win 1).mode = 1) ∧
    cpSwap ((3 : Word) &&& 0x1FFFFFFFFFFFFFFF) = 1 := by decide +kernel

/-! ## Chapter 09: castings -/

/-- A plaintext header for die column 0 of die 0 with a body of `len` bytes. -/
def hdr0 (len : Nat) : List Byte :=
  leBytes 8 (0xC0A5 + 2 ^ 16) ++ leBytes 8 len ++ leBytes 48 0
/-- Context 0 BOUND with a session on port 0, half 0 on, its pour p. -/
def castS (p : Pour) : State :=
  { mgt := { boot := 2 }, ctxs := [(0, { st := .bound })], dev := [(rkey pgPwr 0x200, BitVec.ofNat 64 (2 ^ 52))]
    pwr := { halves := [(0, { on := true })] }
    cast := { pours := [(0, p)], sess := [(0, some { port := 0 })] } }

theorem wit_header : (castS { inb := hdr0 16 }).session 0 = some { port := 0 } ∧ (castS { inb := hdr0 16 }).hdrCheck 0 (hdr0 16) = none ∧ (hdr0 16).length = 64 ∧
    (castS {}).hdrCheck 0 (leBytes 64 0) = some .castFormat ∧
    (castS {}).hdrCheck 0 ((leBytes 8 (0xC0A5 + 2 ^ 17)) ++ (hdr0 16).drop 8) = some .castVersion := by
  decide +kernel

/-- 16 body bytes, and the tag R276 gives them. -/
def body0 : List Byte := leBytes 8 0 ++ leBytes 8 (7 * 2 ^ 56 + 2)
def seg0 : List Byte := ((castS {}).openSeg (hdr0 16) 0 body0).1

theorem wit_segment : segCount (hdr0 16) = 1 ∧ segLen (hdr0 16) 0 = 16 ∧ (body0 ++ seg0).length = 32 ∧
    (castS {}).openSeg (hdr0 16) 0 ((body0 ++ seg0).take 16) = (((body0 ++ seg0).drop 16).take 16, body0) ∧
    ((castS {}).openSeg (hdr0 16) 0 body0).1 ≠ leBytes 16 0 := by decide +kernel

theorem wit_stuck_stream : ({ st := .pouring, hdr := hdr0 16, segs := 1, inb := leBytes 32 0 } : Pour).stuck = true ∧
    segCount (hdr0 16) = 1 := by decide +kernel

theorem wit_final : ({ st := .pouring, hdr := hdr0 16, segs := 1, ended := true } : Pour).stuck = false ∧
    ((castS {}).finalTag (hdr0 16) seg0).length = 16 := by decide +kernel

/-- A mould whose tiles are all marker origins; one whose plane sequence has two steps without a dwell. -/
def originT : Tile := { cfg := { wordsB := [(2, 0x10000000000)], liveSet := false } }
def brokenT : Tile := originT.setShadowReg 0 0x108 2
def closedS (x : Tile) : State :=
  { castS { st := .pouring, hdr := hdr0 16, finalOk := true } with
    tiles := (List.range 16).map (fun r => (16 * r, x)) }

theorem originT_checks : originT.fabricClosed = true ∧ originT.queuesClosed = true ∧ originT.windowsClosed = true ∧
    originT.tablesClosed = true := by decide +kernel

theorem closedS_tiles : ∀ t ∈ (closedS originT).mouldTiles (hdrMould (hdr0 16)), (closedS originT).tile t = originT := by
  decide +kernel

theorem wit_closing : (closedS originT).closingCheck ((closedS originT).mouldTiles (hdrMould (hdr0 16))) = none := by
  have h := closedS_tiles
  have n : ((closedS originT).mouldTiles (hdrMould (hdr0 16))).all (fun t => originT.nestsClosed t) = true := by
    decide +kernel
  have k : (closedS originT).markersClosed ((closedS originT).mouldTiles (hdrMould (hdr0 16))) = true := by
    decide +kernel
  obtain ⟨a, b, c, d⟩ := originT_checks
  have all (f : Nat → Tile → Bool) (hf : ((closedS originT).mouldTiles (hdrMould (hdr0 16))).all (fun t => f t originT) = true) :
      ((closedS originT).mouldTiles (hdrMould (hdr0 16))).all (fun t => f t ((closedS originT).tile t)) = true := by
    rw [List.all_eq_true] at hf ⊢
    exact fun t ht => by rw [h t ht]; exact hf t ht
  unfold State.closingCheck
  rw [all (fun _ x => x.fabricClosed) (by simp [a]), all (fun _ x => x.queuesClosed) (by simp [b]),
    all (fun _ x => x.windowsClosed) (by simp [c]), all (fun _ x => x.tablesClosed) (by simp [d]),
    all (fun t x => x.nestsClosed t) n, k]
  rfl

theorem wit_closing_fails :
    (closedS brokenT).closingCheck ((closedS brokenT).mouldTiles (hdrMould (hdr0 16))) = some .castFabricInvalid ∧
    ((closedS brokenT).mouldTiles (hdrMould (hdr0 16))).all (closedS brokenT).cfgQuiet = true ∧
    ((closedS originT).mouldTiles (hdrMould (hdr0 16))).all (closedS originT).cfgQuiet = true ∧
    ((closedS originT).mouldCols (hdrMould (hdr0 16))).all (fun k => ([] : List Nat).contains k) = false := by
  decide +kernel

/-- A pour before this command word. -/
def cmdP (w : Word) (rest : List Word) : Pour :=
  { st := .pouring, hdr := hdr0 16, moulded := true, words := w :: rest }

theorem wit_commands : CmdAt 0 0 (cmdP 0 []) 0 [] (castS (cmdP 0 [])) ∧
    CmdAt 0 1 { cmdP 0x0100000000000000 [] with moulded := false } 0x0100000000000000 []
      (castS { cmdP 0x0100000000000000 [] with moulded := false }) ∧
    fld (0x0100000000000000 : Word) 0 20 = fld (hdrW (hdr0 16) 3) 0 20 ∧
    CmdAt 0 2 (cmdP 0x0200000000000004 []) 0x0200000000000004 [] (castS (cmdP 0x0200000000000004 [])) ∧
    CmdAt 0 6 (cmdP 0x0600000000000001 []) 0x0600000000000001 [] (castS (cmdP 0x0600000000000001 [])) ∧
    CmdAt 0 7 { cmdP 0x0700000000000002 [] with armed := true, done := [0] } 0x0700000000000002 []
      (castS { cmdP 0x0700000000000002 [] with armed := true, done := [0] }) ∧
    fld (0x0700000000000002 : Word) 0 32 * 8 = hdrLen (hdr0 16) ∧ 7 < cmdOp 0x0800000000000000 ∧
    CmdAt 0 3 { cmdP 0x0300000000000001 [] with far := some 0 } 0x0300000000000001 []
      (castS { cmdP 0x0300000000000001 [] with far := some 0 }) ∧
    within 0x0300000000000001 0xFF00000000001FFF = true := by
  unfold CmdAt
  repeat' apply And.intro
  all_goals decide +kernel

/-- ARM that names group 1, whose coordinator is tile 0 or is not there; a run of frames past the last FAR. -/
def groupS (ts : SMap Tile) : State := { castS (cmdP 0x0600000000000101 []) with tiles := ts }
def coordT : Tile := { (tile0.setOwn 2 0x300 setupW) with cg := { coord := { st := 1 } } }
theorem wit_arm_group : CmdAt 0 6 (cmdP 0x0600000000000101 []) 0x0600000000000101 [] (groupS [(0, coordT)]) ∧
    (groupS [(0, coordT)]).coordOf 0 (fld (0x0600000000000101 : Word) 8 8) = some 0 ∧ cgNlist coordT.cgc = 0 ∧
    (groupS []).coordOf 0 (fld (0x0600000000000101 : Word) 8 8) = none ∧
    within (0x0600000000000101) 0xFF0000000000FF01 = true ∧ 0x1FFFF < 0x1FFFF + fld (0x0300000000000001 : Word) 0 13 := by
  unfold CmdAt
  repeat' apply And.intro
  all_goals decide +kernel

/-- HASH_CHECK with the SHA-256 of an empty body. -/
def hashWs : List Word := (groupsOf 8 4 (sha256 [])).map (fun b => BitVec.ofNat 64 (leNat b))
theorem wit_hash : CmdAt 0 5 (cmdP 0x0500000000000000 hashWs) 0x0500000000000000 hashWs
      (castS (cmdP 0x0500000000000000 hashWs)) ∧ 4 ≤ hashWs.length ∧
    (hashWs.take 4).flatMap (fun w => leBytes 8 w.toNat) = sha256 (cmdP 0x0500000000000000 hashWs).bodyBytes := by
  unfold CmdAt
  repeat' apply And.intro
  all_goals decide +kernel

/-- SHA-256 of the empty string begins e3b0c442 (its standard). -/
theorem test_sha_empty : (sha256 []).take 4 = [0xe3, 0xb0, 0xc4, 0x42] := by decide +kernel

/-- A frame of 256 zero words for tile 0, and one for a die column outside the mould. -/
def frameP (far : Nat) : Pour :=
  { cmdP 0 [] with words := List.replicate 256 0, left := 1, far := some far }
def cregW (off : Nat) : Word := packW [(13, 0), (2, 0), (12, off), (2, 0), (27, 0), (8, 4)]

theorem wit_frames : (castS (frameP 0)).targetCheck (hdrMould (hdr0 16)) 0 0 = none ∧
    (castS (frameP 2)).frameCheck (hdrMould (hdr0 16)) 0 2 (fun i => ((frameP 2).words.take 256).getD i 0) = none ∧
    (hdrMould (hdr0 16)).hasCol (256 / 4096) (256 / 256 % 16) = false ∧
    CmdAt 0 4 (cmdP (cregW 0x140) [7]) (cregW 0x140) [7] (castS (cmdP (cregW 0x140) [7])) ∧
    within (cregW 0x140) 0xFF0000001FFFFFFF = true ∧ (cregMask 0 0x140).isSome = true ∧
    cregValueOk 0 0x140 7 = true := by
  unfold CmdAt
  repeat' apply And.intro
  all_goals decide +kernel

/-- A configuration message for tile 0, its payload as long as its row asks. -/
def cM (op st : Nat) (w1 : Word) : Msg := cfgMsg op 0 0 w1 st (List.replicate (msgLen op w1) 0)
/-- Word 1 of a CFG_CREG of a table entry. -/
def tblW : Word := packW [(13, 0), (2, 3), (12, 0x138)]

theorem wit_cfg_messages : ∀ st : Fin 2,
    (∀ op ∈ [0x20, 0x21, 0x22, 0x23, 0x25, 0x27, 0x28], TileMsg 0 op (cM op st 0) (inS (cM op st 0) tile0)) ∧
    TileMsg 0 0x20 (cM 0x20 st 0) (inS (cM 0x20 st 0) {}) ∧ ((inS (cM 0x20 st 0) {}).tile 0).clk.pstate = .off ∧
    TileMsg 0 0x22 (cM 0x22 0 tblW) (inS (cM 0x22 0 tblW) tile0) ∧ fld tblW 13 2 = 3 ∧ fld tblW 15 12 = 0x138 := by
  unfold TileMsg
  decide +kernel

/-- The pour of the tile's owner is ARMED. -/
def armedS : State := { castS { st := .armed, hdr := hdr0 16 } with tiles := [(0, { cfg := { owned := true, fill := 1, readback := 1 } })] }
/-- A tile in RECASTING whose local marker is injected. -/
def passS : State :=
  one { words [(2, 0x10000000000)] tile0 with
    cfg := { (words [(2, 0x10000000000)] tile0).cfg with pour := .recasting, origin := true }, fab := { injRecast := true } }

theorem wit_exchange : (armedS.tile 0).cfg.fill = 1 ∧ (armedS.tile 0).cfg.readback = 1 ∧ (armedS.tile 0).owner = some 0 ∧
    (armedS.pour 0).st = .armed ∧ (hdrMould (armedS.pour 0).hdr).has 0 = true ∧
    passS.tileRuns 0 = true ∧ (passS.tile 0).cfg.origin = true ∧
    (List.range 4).all (fun la => !((passS.tile 0).launch la).openSeq) = true ∧
    passS.collects 0 13 (passS.tile 0).fab.injRecast = true ∧ (passS.tile 0).drained = true ∧
    (passS.tile 0).cfg.fill ≠ 1 ∧ (passS.tile 0).cg.coord.st < 2 ∧ (passS.tile 0).cfg.pour = .recasting := by
  decide +kernel

/-- Die column 0's report, or tile 0's exchange, waits at the configuration engine. -/
def engM (op st : Nat) : Msg := { op := op, src := 0, dest := unitCfg, status := st }
def engS (op status : Nat) (p : Pour) (st : CState) : State :=
  { castS p with inbox := [(unitCfg, [{ msg := engM op status, complete := true }])], ctxs := [(0, { st := st })] }
def lastP : Pour := { st := .recasting, hdr := hdr0 16, pending := [0] }
/-- A pour before its first column's report: its checks not done; all but the report done; on a group. -/
def stagedP : Fin 3 → Pour
  | 0 => { st := .pouring, hdr := hdr0 16 }
  | 1 => { st := .pouring, hdr := hdr0 16, closed := true, finalOk := true }
  | 2 => { st := .pouring, hdr := hdr0 16, closed := true, finalOk := true, group := 1, coord := 0 }

theorem wit_staged : ∀ (i : Fin 3) (st : Fin 7), let s := engS 0x24 st (stagedP i) .bound
    UnitMsg unitCfg 0x24 (engM 0x24 st) [] s ∧ (hdrMould (hdr0 16)).has 0 = true ∧ s.unitExists 0 = true ∧
    (s.mouldCols (hdrMould (hdr0 16))).all (fun k => ([] ++ [0]).contains k) = true := by
  intro i st
  refine ⟨lone_unit rfl ?_, ?_⟩ <;> revert i st <;> decide +kernel

theorem wit_done : ∀ st ∈ [CState.restarting, .bound, .running], let s := engS 0x26 0 lastP st
    UnitMsg unitCfg 0x26 (engM 0x26 0) [] s ∧ (s.ctx 0).st = st ∧
    lastP.pending.contains 0 = true ∧ lastP.pending.erase 0 = [] ∧
    ({ lastP with pending := [0, 16] } : Pour).pending.erase 0 ≠ [] ∧ s.entries 0 = [] ∧
    ({ s with dev := [(rkey (pgCtx 0) 0x140, 1)] } : State).entries 0 ≠ [] ∧
    fld ((castS {}).devReg pgCfg 0x188) 16 16 = 100 ∧ fld ((castS {}).devReg pgCfg 0x188) 0 16 = 500 := by
  intro st h
  refine ⟨lone_unit rfl ?_, ?_⟩ <;> revert st h <;> decide +kernel

/-- HASH_CHECK with a digest of zeros; a final tag that differs from zeros; participants held and not. -/
theorem wit_mismatches : CmdAt 0 5 (cmdP 0x0500000000000000 [0, 0, 0, 0]) 0x0500000000000000 [0, 0, 0, 0]
      (castS (cmdP 0x0500000000000000 [0, 0, 0, 0])) ∧
    ([0, 0, 0, 0] : List Word).flatMap (fun w => leBytes 8 w.toNat) ≠ sha256 (cmdP 0x0500000000000000 [0, 0, 0, 0]).bodyBytes ∧
    leBytes 16 0 ≠ (castS {}).finalTag (hdr0 16) seg0 ∧ ((partS { st := 3 } tile0).tile 0 |>.part 0).st = 3 ∧
    ((partS { st := 1 } tile0).tile 0).counterHeld 1 = false := by
  unfold CmdAt
  repeat' apply And.intro
  all_goals decide +kernel

/-! ## Chapter 10: contexts -/

/-- Context 0 in state st over the first die column, its tiles cold. -/
def ctxS (x : Ctx) : State := { mgt := { boot := 2 }, ctxs := [(0, { x with mould := some ⟨0, 0, 0, 0⟩ })], time := 10 ^ 10 }

theorem wit_context_commands : ∀ st : Fin 7,
    let k := [CState.free, .bound, .running, .preempting, .preempted, .restarting, .teardown].getD st .free
    (ctxS { st := k }).mgt.boot = 2 ∧ ((ctxS { st := k }).ctx 0).st = k ∧ ((ctxS { st := k }).pour 0).st ≠ .recasting ∧
    (ctxS { st := k }).stop.restart = none := by decide +kernel

theorem wit_contexts_rest : ((ctxS { st := .teardown, handling := { step := 5 } }).ctx 0).handling.step = 5 ∧
    (ctxS { st := .preempting }).drainDone 0 = true ∧ (ctxS { st := .preempting }).stop.fatal = false ∧
    fld ((ctxS { st := .preempting }).devReg (pgCtx 0) 0x110) 0 16 = 1000 ∧
    ((ctxS { st := .preempting }).ctx 0).drainAt + 1000 * 1000 ≤ (ctxS { st := .preempting }).time := by decide +kernel

theorem wit_preempt_held : let s := { ctxS { st := .running } with cast := { pours := [(0, { st := .recasting })] } }
    (s.ctx 0).st = .running ∧ (s.pour 0).st = .recasting := by decide +kernel

theorem wit_tables : (ctxS { st := .bound }).slotClash 0 0 (setFld 1 51 13 0) = false ∧
    ((ctxS { st := .running }).ctx 0).st ≠ .bound ∧ bit (0 : Word) 0 = false ∧ bit (1 : Word) 0 = true ∧
    fld ((ctxS {}).devReg (pgCtx 0) 0x1C8) 0 36 = 0 := by decide +kernel

/-- A message to the management die from tile 0, with context 0 as x. -/
def mM (op w st : Nat) : Msg := { op := op, src := 0, dest := unitMgt, w1 := BitVec.ofNat 64 w, status := st }
def mgtS (op w st : Nat) (x : Ctx) : State :=
  { ctxS x with inbox := [(unitMgt, [{ msg := mM op w st, complete := true }])] }
/-- It is there to be taken. -/
theorem wit_unit (op w st : Nat) (x : Ctx) (h : msgFault { msg := mM op w st, complete := true } = none) :
    UnitMsg unitMgt op (mM op w st) [] (mgtS op w st x) := lone_unit rfl h

/-- A message of the management die to tile 0. -/
def tM (op st : Nat) (w1 : Word) : Msg := mgtMsg op 0 0 w1 0 st []
theorem wit_mgt_messages : (∀ st : Fin 3, ∀ op ∈ [0x33, 0x35, 0x36], TileMsg 0 op (tM op st 0) (inS (tM op st 0) tile0)) ∧
    (∀ (st : Fin 3) (f : Bool), let x := { tile0 with cfg := { tile0.cfg with frozen := f }, cg := { coord := { st := 2 } } }
      TileMsg 0 0x35 (tM 0x35 st 0) (inS (tM 0x35 st 0) x)) := by
  unfold TileMsg
  decide +kernel

theorem wit_mgt_acks : (∀ w ∈ [0, 0x10001, 0x20001], ∀ op ∈ [0x34], msgFault { msg := mM op w 0, complete := true } = none) ∧
    msgFault { msg := mM 0x37 0 0, complete := true } = none ∧ (mgtS 0x37 0 0 {}).stop.fatal = false ∧
    ([0] : List Nat).erase 0 = [] ∧ ([0, 16] : List Nat).erase 0 ≠ [] ∧
    lostState ((mgtS 0x34 0x10001 0 { st := .running }).ctx 0).st = false ∧
    (mgtS 0x34 0x10001 0 { st := .running }).rides 0 1 = false ∧
    lostState ((mgtS 0x34 0x10001 0 { st := .teardown }).ctx 0).st = true := by decide +kernel

/-- Context 0 releases (1) or restarts (2), its last entry tile still to acknowledge. -/
def armX (n : Nat) : Ctx := { st := if n = 1 then .running else .restarting, armFor := n, armWait := [0] }
theorem wit_arm_acks : ∀ n ∈ [1, 2], let s := mgtS 0x37 0 0 (armX n)
    (s.ctx 0).armFor = n ∧ (s.ctx 0).armWait.erase 0 = [] ∧ (s.ctx 0).handling.again = false ∧
    (s.ctx 0).pend = false ∧ s.stop.restart = none := by decide +kernel

/-- The notice of group 1, whose round the ARMED pour of context 0 rides on. -/
def rideS (w : Nat) : State :=
  { mgtS 0x34 w 0 { st := .running } with cast := { pours := [(0, { st := .armed, hdr := hdr0 16, group := 1, armed := true })] } }
theorem wit_rides : ∀ w ∈ [0x10001, 0x20001], (rideS w).rides 0 1 = true ∧ ((rideS w).pour 0).round = fld (mM 0x34 w 0).w1 8 8 ∧
    fld (mM 0x34 w 0).w1 0 8 = 1 ∧ fld (mM 0x34 w 0).w1 16 2 = w / 0x10000 ∧ ((rideS w).pour 0).st = .armed := by
  decide +kernel

/-- An armed entry tile of context 0 after the release. -/
def disarmS : State :=
  { ctxS { st := .running, armedAt := [0] } with tiles := [(0, { tile0 with cfg := { tile0.cfg with hold := some 5 } })] }
theorem wit_disarm : disarmS.present 0 = true ∧ (disarmS.ctx 0).armedAt.contains 0 = true ∧
    (disarmS.ctx 0).armFor = 0 ∧ (disarmS.ctx 0).noticed.contains 0 = false ∧
    (disarmS.ctx 0).releasedAt + disarmS.maxEntryNs 0 ≤ disarmS.time ∧
    (let s := ctxS { st := .running, armedAt := [0], noticed := [0] }; (s.ctx 0).noticed.contains 0 = true) := by
  decide +kernel

/-- The disarm notice at tile 0, and its answer at the management die. -/
def disarmM : Msg := { tM 0x36 0 0x100000000 with tag := 1 }
def disarmA : Msg := { mM 0x37 0 0 with tag := 1 }
theorem wit_disarm_messages : TileMsg 0 0x36 disarmM (inS disarmM tile0) ∧ bit disarmM.w1 32 = true ∧
    msgFault { msg := disarmA, complete := true } = none ∧ disarmA.tag = 1 ∧
    ((ctxS { st := .running, armedAt := [0], noticed := [0] }).ctx disarmA.sctx).noticed.contains disarmA.src = true := by
  unfold TileMsg
  decide +kernel

/-! ## Chapter 11: restarts -/

theorem wit_steps : ∀ (n : Fin 8) (td : Bool),
    let m := tM 0x38 0 (packW [(3, n), (1, b2n td)])
    TileMsg 0 0x38 m (inS m tile0) ∧ m.sctx < 8 ∧ bit m.w1 3 = td ∧ fld m.w1 0 3 = n ∧
    (inS m tile0).stop.fatal = false ∧ ((inS m tile0).tile 0).cfg.pour ≠ .recasting ∧
    ((inS m tile0).tile 0).bankOn (bankOf ((inS m tile0).tile 0).ilv 64) = true := by
  unfold TileMsg
  decide +kernel

theorem wit_step_acks : ∀ (n : Fin 4) (last : Bool),
    let x : Ctx := { st := .restarting, handling := { step := n + 2, waiting := if last then [0] else [0, 16] } }
    msgFault { msg := mM 0x39 (n + 2) 0, complete := true } = none ∧ (mgtS 0x39 (n + 2) 0 x).stop.fatal = false ∧
    bit (mM 0x39 (n + 2) 0).w1 3 = false ∧ fld (mM 0x39 (n + 2) 0).w1 0 3 = x.handling.step ∧
    x.handling.waiting.contains 0 = true ∧ (x.handling.waiting.erase 0 = [] ↔ last = true) := by
  decide +kernel

theorem wit_stuck : (ctxS { st := .restarting, handling := { start := 5 } }).stop.fatal = false ∧
    ((ctxS { st := .restarting, handling := { start := 5 } }).ctx 0).handling.start + 1000000 ≤ 10 ^ 10 ∧
    ({ ctxS {} with stop := { restart := some 7 } } : State).stop.restart = some 7 := by decide +kernel

/-- A context that restarts has 1,000 µs (R355). -/
theorem test_restart_timeout_guard :
    execRestartTimeout 0 (ctxS { st := .restarting, handling := { start := 10 ^ 10 } }) =
      .next (ctxS { st := .restarting, handling := { start := 10 ^ 10 } }) :=
  congrArg _ (if_neg (by decide +kernel))

/-! ## Chapter 12: gradient export -/

/-- Stream 0 of context 0 on engine 0: FP8 E4M3, 22 lines apart, 2 messages expected. -/
def gxW (mask : Nat) : Word := packW [(1, 1), (2, 0), (1, 0), (3, 0), (1, mask), (18, 0), (16, 22), (20, 2)]
def gxM : Msg := { op := 1, src := 0, dest := gxUnit 0, w1 := winW1 0 0 2112, payload := List.replicate 2112 0 }
def gxS (mask count : Nat) : State :=
  { mgt := { boot := 2 }, ctxs := [(0, { st := .running })], inbox := [(gxUnit 0, [{ msg := gxM, complete := true }])]
    dev := [(rkey (pgCtx 0) 0x400, gxW mask), (rkey (pgCtx 0) 0x418, BitVec.ofNat 64 count)] }

theorem wit_gradient_ready (mask count : Nat) : RimReady (gxUnit 0) (fun m => m.op == 0x01) gxM [] (gxS mask count) :=
  ⟨_, lone_rim rfl rfl rfl rfl, rfl, by decide +kernel⟩

/-- One whose packets came out of place. -/
def gxBroken : InMsg := { msg := gxM, complete := true, broken := true }
theorem wit_gradient_broken : RimHolds (gxUnit 0) (fun m => m.op == 0x01) gxBroken []
      { gxS 0 0 with inbox := [(gxUnit 0, [gxBroken])] } ∧ msgFault gxBroken = some .msgOp :=
  ⟨lone_rim rfl rfl rfl rfl, by decide +kernel⟩

theorem wit_gradients : ∀ (mask count : Fin 2), gxM.op = 1 ∧ (gxS mask count).unitExists gxM.src = true ∧
    gxCheck (gxS mask count) 0 gxM = none ∧ gxEtype (gxW mask) < 6 ∧
    ((fld ((gxS mask count).gxstat 0 0) 0 20 + 1) % 2 ^ 20 = fld (gxW mask) 42 20 ↔ count = 1) ∧
    bit (gxW mask) 7 = (mask == 1) ∧ gxCheck (gxS mask count) 1 gxM = some .gxStream := by decide +kernel

/-- A context whose mask lists word 0 as clear. -/
theorem wit_gradient_mask : ∃ mk, ({ gxS 1 0 with gxMask := mk } : State).gxMaskBit 0 0 = false :=
  ⟨[(0, 0)], by decide +kernel⟩

/-- A record of a stream whose port is UP in role CONTROL with credit. -/
def recG : GxRec := { port := 0, ctx := 0, stream := 0, addr := 64, bytes := List.replicate 64 0 }
def sendG : State := { gx := [(0, { held := [recG] })], lnm := [(0, { st := .up, role := .control, grant0 := 3, grant1 := 3 })] }
theorem wit_record_send : pickRec sendG [] (sendG.gx.get 0 {}).held = some (recG, []) := by decide +kernel

theorem wit_record_waits : pickRec { sendG with lnm := [] } [] (sendG.gx.get (0 : Fin 4).val {}).held = none := by
  decide +kernel

theorem wit_gx_setup : gxSetupOk (gxS 0 0) 1 0 (gxW 0) = true ∧ bit (gxW 0) 0 = true ∧
    bit ((gxS 0 0).gxcfg 1 0) 0 = false ∧ bit ((gxS 0 0).gxcfg 0 0) 0 = true ∧ bit (0 : Word) 0 = false := by
  decide +kernel

/-! ## Chapter 13: movers and tiers -/

/-- Mover 0 over a trained stack; context 0 maps its first 4,096-byte page for reads and writes; tile 0
grants 64 lines of window 0. -/
def movS (v : Mover) : State :=
  { mgt := { boot := 2 }, ctxs := [(0, { st := .running })], time := 10000
    mov := [(0, { v with grants := [(0, (64, 0))] })], mem := { hbm := [(0, { trained := true })] }
    dev := [(rkey (pgCtx 0) 0x1C0, BitVec.ofNat 64 (0x10000000000 + 27)), (rkey (pgCtx 0) 0x1C8, 1)] }
/-- A LOAD (1) or STORE (2) of 128 bytes from tile 0, its completion counted or staged as `en` says. -/
def dW (op en : Nat) : List Word := [BitVec.ofNat 64 (op + 16 * en), 0x10000000000, 128, 0, 0, 0, 0, 0]
def dsc (op en : Nat) : Desc := { src := 0, ctx := 0, ws := dW op en }
def movM (w n : Nat) (bs : List Byte) : Msg := { op := 1, src := 0, dest := movUnit 0, w1 := winW1 w 0 n, payload := bs }
def descM (op : Nat) : Msg := movM 0 64 ((dW op 0).flatMap (fun w => leBytes 8 w.toNat))
def dataM : Msg := movM 1 64 (List.replicate 64 9)
def movIn (m : Msg) (v : Mover) : State := { movS v with inbox := [(movUnit 0, [{ msg := m, complete := true }])] }

theorem wit_descriptors : ∀ bad : Bool, let m := descM (if bad then 3 else 1)
    RimReady (movUnit 0) (takesDescs (movIn m {}) 0) m [] (movIn m {}) ∧ m.win = 0 ∧ m.payload.length = 64 * 1 ∧
    m.mlen = 64 * 1 ∧ (movIn m {}).unitExists 0 = true ∧ (movIn m {}).stop.fatal = false ∧
    descCheck (movIn m {}) 0 (descOf {} m 0) = (if bad then some .movFormat else none) := by
  intro bad
  refine ⟨⟨_, lone_rim rfl rfl ?_ ?_, rfl, ?_⟩, ?_⟩ <;> revert bad <;> decide +kernel

/-- A message of window 2, and one with a bad payload. -/
def badIn : InMsg := { msg := descM 1, complete := true, bad := true }
theorem wit_descriptors_refused : RimReady (movUnit 0) (takesDescs (movIn (movM 2 0 []) {}) 0) (movM 2 64 (List.replicate 64 0)) []
      (movIn (movM 2 64 (List.replicate 64 0)) {}) ∧
    RimHolds (movUnit 0) (takesDescs (movIn (descM 1) {}) 0) badIn [] { movS {} with inbox := [(movUnit 0, [badIn])] } ∧
    msgFault badIn = some .msgUncorrectable :=
  ⟨⟨_, lone_rim rfl rfl (by decide +kernel) (by decide +kernel), rfl, by decide +kernel⟩,
    lone_rim rfl rfl (by decide +kernel) (by decide +kernel), by decide +kernel⟩

/-- STORE data of n bytes for a STORE of 128; without a STORE. -/
def dataN (n : Nat) : Msg := movM 1 n (List.replicate n 9)
theorem wit_store : ∀ n ∈ [64, 192], let s := movIn (dataN n) { queue := [dsc 2 0] }
    RimReady (movUnit 0) (fun m => m.op == 0x01 && m.win == 1) (dataN n) [] s ∧ s.movRuns 0 = true ∧
    (s.mover 0).storeOf 0 = some 0 ∧ (s.mover 0).queue[0]? = some (dsc 2 0) ∧ (dataN n).mlen = (dataN n).payload.length ∧
    (n = 64 → (dataN n).payload.length ≤ (dsc 2 0).len - (dsc 2 0).pos - (dsc 2 0).waiting) ∧
    (n = 192 → (dsc 2 0).len - (dsc 2 0).pos - (dsc 2 0).waiting < (dataN n).payload.length) ∧
    ((movIn (dataN n) {}).mover 0).storeOf 0 = none := by
  intro n h
  refine ⟨⟨_, lone_rim rfl rfl ?_ ?_, rfl, ?_⟩, ?_⟩ <;> revert n h <;> decide +kernel

/-- A LOAD, good or with a bad granule; a STORE whose data message is whole; a range whose stack is lost. -/
def loadS : State := movS { queue := [dsc 1 0] }
def badS : State := { loadS with mem := { loadS.mem with bad := [(memKey 0 64 / 64, true)] } }
def fillD : Desc := { dsc 2 0 with fill := [(0, dataN 64)] }
def fillS : State := movS { queue := [fillD] }

theorem wit_piece : loadS.movRuns 0 = true ∧ loadS.nextPiece 0 (loadS.mover 0) = some (0, 0, 0) ∧
    (dsc 1 0).load = true ∧ loadS.rangeOk 0 (dsc 1 0).addr (dsc 1 0).len = true ∧
    cdiv (min (pieceSize 0) ((dsc 1 0).len - (dsc 1 0).pos)) 64 = 2 ∧
    (∀ g : Fin 2, loadS.loadBad 0 (dsc 1 0) ((dsc 1 0).addr + (dsc 1 0).pos + 64 * g) = false) ∧
    (List.range 2).find? (fun g => badS.loadBad 0 (dsc 1 0) ((dsc 1 0).addr + (dsc 1 0).pos + 64 * g)) = some 1 ∧
    badS.memAt 0 0x10000000040 = some (0, 64) := by decide +kernel

theorem wit_store_piece : fillS.movRuns 0 = true ∧ fillS.nextPiece 0 (fillS.mover 0) = some (0, 0, 0) ∧
    fillD.load = false ∧ (dataN 64).op = 0x01 ∧ fillS.rangeOk 0 fillD.addr fillD.len = true ∧
    ((dataN 64).payload.drop fillD.part).take (pieceSize 0) = List.replicate 64 9 ∧ fillD.pos + 64 ≤ fillD.len ∧
    fillD.part + 64 = (dataN 64).payload.length ∧ fillS.unitExists (dataN 64).src = true := by decide +kernel

/-- A STORE whose data came in two messages, behind one of another tile for the same bytes whose data came later. -/
def twoD : Desc := { dsc 2 0 with fill := [(0, dataN 64), (1, dataN 64)] }
def laterD : Desc := { dsc 2 0 with src := 16, fill := [(2, { dataN 64 with src := 16 })] }
def twoS : State := movS { queue := [laterD, twoD] }
theorem wit_store_pieces : twoS.movRuns 0 = true ∧ twoS.nextPiece 0 (twoS.mover 0) = some (0, 0, 1) ∧
    (twoS.mover 0).queue[1]? = some twoD ∧ twoD.load = false ∧ twoS.rangeOk 0 twoD.addr twoD.len = true ∧ FillOk twoD ∧
    NoneOwed (twoS.mover 0) 1 twoD ∧ (∀ x ∈ twoD.fill, twoS.unitExists x.2.src = true) ∧
    twoD.fill.head? = some (0, dataN 64) ∧ (fillD.fill = [(0, dataN 64)] ∧ fillD.pos = 0) := by
  unfold FillOk NoneOwed
  refine ⟨by decide +kernel, by decide +kernel, by decide +kernel, by decide +kernel, by decide +kernel,
    ⟨by decide +kernel, by decide +kernel, ?_, by decide, by decide +kernel⟩, by decide +kernel, by decide +kernel,
    by decide +kernel, by decide +kernel⟩
  intro x h
  obtain rfl : x = (0, dataN 64) := by simpa [twoD] using h.symm
  decide +kernel

theorem wit_lost_range : let s := { loadS with mem := {} }
    s.movRuns 0 = true ∧ s.nextPiece 0 (s.mover 0) = some (0, 0, 0) ∧ s.rangeOk 0 (dsc 1 0).addr (dsc 1 0).len = false ∧
    (movS {}).nextPiece 0 ((movS {}).mover 0) = none := by decide +kernel

theorem wit_complete : ∀ (en : Fin 5) (early spoiled : Bool),
    let d : Desc := { dsc 2 en with pos := 128, spoiled := spoiled }
    let q := (if early then [dsc 2 0] else []) ++ [d]
    let s := movS { queue := q }
    (s.mover 0).queue.findIdx? (fun d => !d.done && d.complete) = some (b2n early) ∧
    (∀ e ∈ (s.mover 0).queue, e.done = false) ∧ d.stageEn = (en == 4) ∧ d.doneEn = (en % 2 == 1) ∧
    s.unitExists d.sunit = true ∧ s.unitExists d.cunit = true := by decide +kernel

theorem wit_mover_frozen :
    ((movS { incs := [{ msg := dataM, frozenAt := some 9000 }] }).mover 0).thawed 10000 = some dataM ∧
    (movS {}).unitExists dataM.dest = true := by decide +kernel

theorem wit_scrub : (movS {}).memAt 0 0x10000000040 = some (0, 64) ∧ (movS {}).stop.fatal = false ∧
    fld ((movS {}).devReg (pgHbm 0) 0x108) 0 16 = 24 ∧ (movS {}).granBad 0 0x10000000040 = false := by decide +kernel

/-- Link 0 in state st; two READY links of port 1 asked to interleave. -/
def cxlS (st : CxlSt) : State :=
  { mgt := { boot := 2 }
    mem := { cxl := [(0, { st := st, width := 1, cap := 64 }), (2, { st := .ready, cap := 64 }), (3, { st := .ready, cap := 64 })]
             ilv := [(1, true)] } }
/-- The same, the first page of link 0's range mapped by context 0. -/
def cxlMapped (st : CxlSt) : State :=
  { cxlS st with dev := [(rkey (pgCtx 0) 0x1C0, BitVec.ofNat 64 (0x40000000000 + 31)), (rkey (pgCtx 0) 0x1C8, 1)] }

/-- Both links of port 1 ONLINE or OFFLINING, interleaved. -/
def ilvS (st : CxlSt) : State :=
  { mgt := { boot := 2 }
    mem := { cxl := [(2, { st := st, cap := 64 }), (3, { st := st, cap := 64 })], ilv := [(1, true)], twoWay := [(1, true)] } }
theorem wit_cxl_two_way : ∀ st ∈ [CxlSt.online, .offlining], (ilvS st).mem.twoWay.get 1 false = true ∧
    ((ilvS st).cxl 2).st = st ∧ ((ilvS st).cxl 3).st = st ∧
    (∀ h : Fin 2, (ilvS st).mappedTo ((ilvS st).linkRange 1 h).1 ((ilvS st).linkRange 1 h).2 = []) ∧
    (cxlS .ready).canInterleave 1 = true ∧
    ({ cxlS .empty with mem := { (cxlS .empty).mem with wide := [(0, true)] } } : State).mem.wide.get 0 false = true := by
  decide +kernel

theorem wit_cxl : ∀ st : Fin 6,
    let k := [CxlSt.empty, .enumerating, .ready, .online, .offlining, .rejected].getD st .empty
    ((cxlS k).cxl 0).st = k ∧ (cxlS k).mem.wide.get 0 false = false ∧ (cxlS k).mem.twoWay.get 0 false = false ∧
    (cxlS k).canInterleave 0 = false ∧ (cxlS k).canInterleave 1 = true ∧ (cxlS k).mem.twoWay.get 1 false = false ∧
    (cxlS k).mappedTo ((cxlS k).linkRange 0 0).1 ((cxlS k).linkRange 0 0).2 = [] ∧
    (cxlMapped k).mappedTo ((cxlS k).linkRange 0 0).1 ((cxlS k).linkRange 0 0).2 = [0] := by decide +kernel

/-- R23 and R396: the slots of the tiers. -/
theorem test_slots : slotBase 0 = 0x010000000000 ∧ slotBase 20 = 0x020000000000 ∧ slotBase 24 = 0x040000000000 := by
  decide

/-! ## Chapter 14: Laniem ports -/

/-- Port 0 as q; management serves. -/
def lnmS (q : LnmPort) : State := { mgt := { boot := 2 }, time := 10 ^ 12, lnm := [(0, q)] }

theorem wit_port_states : ∀ st : Fin 8,
    let k := [LState.disabled, .dark, .lock, .eq, .align, .hello, .up, .down].getD st .dark
    ((lnmS { st := k, goodCtl := 4, badSf := 3 }).port 0).st = k ∧
    (∀ n, trainLimit k = some n → 0 + n ≤ (lnmS { st := k }).time) ∧
    fld ((lnmS { st := k }).devReg (pgLnm 0) 0x120) 8 8 = 10 := by
  intro st
  refine ⟨?_, ?_, ?_⟩
  · revert st; decide +kernel
  · intro n h
    have : n ≤ 20000000 := by
      revert h
      generalize [LState.disabled, .dark, .lock, .eq, .align, .hello, .up, .down].getD st .dark = k
      cases k <;> simp [trainLimit] <;> omega
    show 0 + n ≤ 10 ^ 12
    omega
  · revert st; decide +kernel

/-- A partner of kind 1 that offers CONTROL. -/
def helloR (vmin vmax agreed : Nat) : HelloRec :=
  { vmin := vmin, vmax := vmax, kind := 1, port := 0, cap := 32, buf0 := 4096, buf1 := 0, id := 7, agreed := agreed, res := false }

theorem wit_hello : ∀ (a b : Fin 2), let q : LnmPort := { st := .hello, sentAgreed := a, partner := if b = 1 then some (helloR 1 1 1) else none }
    ((lnmS q).port 0).st = .hello ∧ (helloR 1 1 b).res = false ∧ 4096 ≤ (helloR 1 1 b).buf0 ∧ (helloR 1 1 b).vmin ≤ 1 ∧
    1 ≤ (helloR 1 1 b).vmax ∧ ((helloR 1 1 b).agreed = 1 ↔ b = 1) ∧ (q.sentAgreed = 1 ↔ a = 1) ∧ q.helloAt = none ∧
    ¬ ((helloR 2 3 b).vmin ≤ 1 ∧ 1 ≤ (helloR 2 3 b).vmax) := by decide +kernel

/-- A control block; a port with packet 5 unacknowledged. -/
def cbW (valid nak down : Bool) : CtlBlock :=
  { valid := valid, ackSeq := 4, nakSeq := 5, cred0 := 9, cred1 := 9, lstate := 6, nak := nak, down := down }
def upQ : LnmPort := { st := .up, role := .control, replay := [(4, ⟨1, 0, {}, none⟩), (5, ⟨1, 0, {}, none⟩)] }

theorem wit_control_blocks : ((lnmS upQ).port 0).st = .up ∧ (cbW true false false).valid = true ∧
    (cbW true true false).nak = true ∧ ((lnmS upQ).port 0).replayPos = none ∧
    (acked (cbW true true false).ackSeq ((lnmS upQ).port 0).replay).findIdx? (fun e => e.1 == 5) = some 0 ∧
    ((lnmS upQ).port 0).replays = 0 ∧ (cbW true false true).down = true ∧ (cbW false false false).valid = false ∧
    ((lnmS {}).port 0).st ≠ .up ∧ ¬ ((⟨true, 1, {}⟩ : Arrived).crcOk = true ∧ (3 : Nat) = ((lnmS upQ).port 0).rxSeq) ∧
    (lnmS upQ).stop.fatal = false ∧ typeHasRow (5 : BitVec 8).toNat = false ∧
    ((lnmS { downReq := true }).port 0).downReq = true := by decide +kernel

theorem wit_lost_clocks : (lnmS upQ).brd.pwren = false ∧
    ({ lnmS upQ with brd := { pwren := true } } : State).brd.pwren = true ∧ ((lnmS upQ).port (2 * (4 - 4))).st = .up ∧
    ((lnmS upQ).port (2 * (4 - 4) + 1)).st ≠ .up ∧ ((lnmS upQ).cxl (2 * 3)).st ≠ .online ∧
    ((lnmS upQ).cxl (2 * 3 + 1)).st ≠ .offlining := by decide +kernel

/-- A window WRITE of `n` bytes to window 0 of tile 0, its first packet; a tier write. -/
def winTgt (n : Nat) : Word := packW [(13, 0), (4, 0), (20, 0), (13, n)]
def winPk (n : Nat) : LnmPkt :=
  { ackreq := true, first := true, last := n ≤ 1024, tkind := 1, bytes := min n 1024, tag := 3, target := winTgt n,
    payload := List.replicate (min n 1024) 5 }
def tierPk : LnmPkt := { first := true, last := true, tkind := 0, bytes := 64, target := 0x10000000000, payload := List.replicate 64 5 }
/-- Port 0 UP under CONTROL, permitting context 0 or not, window 0 of tile 0 granted 64 lines. -/
def inQ (cfg : Word) (q : LnmPort) : State :=
  { lnmS { q with st := .up, role := .control, grants := [(0, (64, 0))] } with dev := [(rkey (pgLnm 0) 0x100, cfg)] }

theorem wit_partner_writes : PacketIn 0 1 (winPk 64) (inQ 0x70 {}) ∧ ((inQ 0x70 {}).port 0).asm = none ∧
    pktFits (winPk 64) 0 = true ∧ tgtLen (winPk 64).target ≤ 1024 ∧ (inQ 0x70 {}).heldAt 0 0 = false ∧
    (inQ 0x70 {}).permits 0 0 = true ∧ (inQ 0x70 {}).grantCovers 0 0 (winPk 64).target = true ∧
    queueBytes (((inQ 0x70 {}).port 0).ctxq.get 0 []) + (winPk 64).payload.length ≤ 32768 ∧
    (inQ 0 {}).permits 0 0 = false ∧ (winPk 64).ackreq = true ∧ PacketIn 0 1 (winPk 2048) (inQ 0x70 {}) ∧
    pktFits (winPk 2048) 0 = true ∧ 1024 < tgtLen (winPk 2048).target := by
  unfold PacketIn
  repeat' apply And.intro
  all_goals decide +kernel

/-- The port holds the context's requests, its hold buffer empty or full. -/
def holdS (q : LnmPort) : State :=
  { inQ 0x70 q with dev := [(rkey (pgLnm 0) 0x100, 0x70), (rkey (pgLnm 0) 0x130, 1)] }
theorem wit_held_writes : PacketIn 0 1 (winPk 64) (holdS {}) ∧ (holdS {}).permits 0 0 = true ∧
    (holdS {}).heldAt 0 0 = true ∧ queueBytes (((holdS {}).port 0).holdq.get 0 []) + (winPk 64).payload.length ≤ 65536 := by
  unfold PacketIn
  repeat' apply And.intro
  all_goals decide +kernel

theorem wit_partner_other : PacketIn 0 1 tierPk (inQ 0x70 {}) ∧ tierPk.tkind = 0 ∧ ((inQ 0x70 {}).port 0).role = .control ∧
    bit ((inQ 0x70 {}).lnmCfg 0) 5 = true ∧ (moverOf (fld tierPk.target 0 48)).isSome = true ∧
    PacketIn 0 2 { status := 5 } (inQ 0x70 {}) := by
  unfold PacketIn
  repeat' apply And.intro
  all_goals decide +kernel

/-- A session of port 0 with this much stream spent; ended or not; CFG_OPEN at a link of another role. -/
theorem wit_session_data : ∀ ended : Bool, let e : Session := { port := 0, ended := ended, spent := 65530, granted := 65536 }
    let s := { inQ 0x70 {} with cast := { sess := [(0, some e)] } }
    s.session 0 = some e ∧ e.spent + 4 ≤ e.granted ∧ e.granted < e.spent + 8 ∧ PacketIn 0 7 { bytes := 4, payload := List.replicate 4 1 } s ∧
    (let r := { s with lnm := [(0, { st := .up, role := .peer })] }
     (r.port 0).st = .up ∧ r.stop.fatal = false ∧ (r.port 0).role ≠ .control ∧ hdrOk 6 {} = true) := by
  unfold PacketIn
  decide +kernel

theorem wit_sessions : ∀ typ : Fin 3, PacketIn 0 (6 + typ) { bytes := 8, payload := List.replicate 8 1 } (inQ 0x70 {}) ∧
    bit ((inQ 0x70 {}).lnmCfg 0) 4 = true ∧ bit ((inQ 0 {}).lnmCfg 0) 4 = false ∧ (inQ 0x70 {}).session 0 = none ∧
    ((inQ 0x70 {}).pour 0).st = .idle ∧ (castS {}).session 0 = some { port := 0 } ∧ 0 + 8 ≤ 65536 + 0 := by
  unfold PacketIn
  decide +kernel

/-- A queued window write and a queued tier write of context 0. -/
def inW (tier : Bool) : InWrite :=
  { tctx := 0, tag := 3, ackreq := true, target := if tier then 0x10000000000 else winTgt 64, pkts := 1,
    bytes := List.replicate 64 5, tier := tier }

theorem wit_issue : ∀ tier : Bool, let s := inQ 0x70 { ctxq := [(0, [inW tier])] }
    s.stop.fatal = false ∧ turnOf s 0 = some 0 ∧ (s.port 0).cur.get 0 [] = [] ∧
    s.nextWrite 0 0 = some (inW tier, false) ∧ (inW tier).tctx = 0 ∧ (inW tier).tier = tier ∧
    s.grantCovers 0 0 (inW false).target = true ∧ moverOf (fld (inW true).target 0 48) = some 0 ∧
    (setPort 0 { s.port 0 with grants := [] } s).grantCovers 0 0 (inW false).target = false ∧ turnOf (inQ 0x70 {}) 0 = none := by
  decide +kernel

theorem queue_of (n : Nat) : queueBytes [{ inW false with bytes := List.replicate n 0 }] = n := by simp [queueBytes]
theorem wit_hold_full : ∃ q, 65536 < queueBytes q + (winPk 64).payload.length :=
  ⟨[{ inW false with bytes := List.replicate 65500 0 }], by rw [queue_of]; decide⟩

/-- The second packet of a message waits for its context's turn. -/
theorem wit_issue_goes_on : let k := (packets { dataM with payload := List.replicate 300 1, w1 := winW1 1 0 300 }).getD 1 { msg := dataM, pkt := 0, first := true, last := true }
    let s := inQ 0x70 { cur := [(0, [k])] }
    turnOf s 0 = some 0 ∧ (s.port 0).cur.get 0 [] = [k] := by decide +kernel

def issQ : LnmPort := { issued := [{ msg := dataM, tag := 1, ackreq := false, frozenAt := some 5 }] }
theorem wit_issued_frozen : (((inQ 0x70 issQ).port 0).issued.find? (fun i => match i.frozenAt with
      | some t => decide (t + 1000 ≤ (inQ 0x70 issQ).time)
      | none => false)).isSome = true := by decide +kernel

/-- A write of tile 0 to egress window 0 of port 0, of 64 lines for context 0. -/
def egM : Msg := { op := 1, src := 0, dest := lnmUnit 0, w1 := winW1 0 0 64, payload := List.replicate 64 1 }
def egW : Word := packW [(1, 1), (3, 0), (2, 0), (14, 64)]
/-- The message in the inbox of an UP port, and of one without a link, its window configured as w. -/
def egS (w : Word) (up : Bool) (im : InMsg) : State :=
  let s := inQ 0 {}
  { (if up then s else setPort 0 {} s) with
      dev := [(rkey (pgLnm 0) 0x200, w)], inbox := [(lnmUnit 0, [im])] }
def egIn : InMsg := { msg := egM, complete := true }
theorem wit_egress_ready (w : Word) (up : Bool) : RimReady (lnmUnit 0) (fun m => m.op == 0x01) egM [] (egS w up egIn) ∧
    RimHolds (lnmUnit 0) (fun m => m.op == 0x01) { egIn with broken := true } [] (egS w up { egIn with broken := true }) :=
  ⟨⟨_, lone_rim rfl rfl rfl rfl, rfl, by decide +kernel⟩, lone_rim rfl rfl rfl rfl⟩

theorem wit_egress_cases : ((egS egW true egIn).port 0).takes = true ∧ ((egS egW false egIn).port 0).takes = false ∧
    bit egW 5 = false ∧ egressOk (egW ||| 0x20) egM = true ∧ bit (egW ||| 0x20) 5 = true ∧
    (egS egW false egIn).unitExists 0 = true ∧ msgFault { egIn with broken := true } = some .msgOp := by decide +kernel

theorem wit_egress : egressOk egW egM = true ∧ egressOk 0 egM = false ∧ (inQ 0 {}).unitExists 0 = true ∧
    ((inQ 0 {}).port 0).takes = true ∧ egressSetupOk egW 0 = true ∧ egressSetupOk egW 8 = false ∧
    bit egW 0 = true := by decide +kernel

def outO : OutPkt := ⟨1, 0, tierPk, none⟩
theorem wit_transmit : let s := inQ 0 { outq := [outO], grant0 := 3 }
    (s.port 0).st = .up ∧ (s.port 0).replayPos = none ∧ s.sourcePkt 0 0 = some (outO, .inl 0) ∧ outO.ackOf = none ∧
    after (s.port 0).rrSrc ((List.range 9).filter (fun k => match s.sourcePkt 0 k with
      | some (o, _) => (s.port 0).maySend o
      | none => false)) = some 0 := by decide +kernel

/-- An event record waits at a port in role CONTROL; a replay is at its packet, for the first and the eighth time. -/
theorem wit_transmit_events : let s := inQ 0 { evq := [⟨List.replicate 8 0⟩], grant0 := 3, grant1 := 3 }
    after (s.port 0).rrSrc ((List.range 9).filter (fun k => match s.sourcePkt 0 k with
      | some (o, _) => (s.port 0).maySend o
      | none => false)) = some 8 ∧ (s.sourcePkt 0 8).map (fun x => (x.1.ackOf, x.2)) = some (none, .inr 1) := by decide +kernel

theorem wit_replay : ∀ n : Bool, let s := inQ 0 { replay := [(5, outO)], replayPos := some 0, replaySeq := 5, replays := if n then 8 else 1 }
    (s.port 0).st = .up ∧ (s.port 0).replayPos = some 0 ∧ (s.port 0).replay[0]? = some (5, outO) ∧
    (s.port 0).replaySeq = 5 ∧ (8 ≤ (s.port 0).replays ↔ n = true) := by decide +kernel

/-- A packet that acknowledges a tile's message. -/
theorem wit_transmit_ack : let s := inQ 0 { outq := [{ outO with ackOf := some egM }], grant0 := 3 }
    s.sourcePkt 0 0 = some ({ outO with ackOf := some egM }, .inl 0) ∧ s.unitExists egM.src = true ∧ egM.op = 0x01 := by
  decide +kernel

/-- R434: a packet of 64 payload bytes takes three blocks. -/
theorem test_blocks : pktBlocks tierPk = 3 := by decide +kernel

/-! ## Chapter 15: power -/

/-- Half 0 on, as x; the power manager as p otherwise; context 0 as c on its mould. -/
def pwS (x : Half) (p : Power) (c : Ctx) : State :=
  { up with time := 10 ^ 12, pwr := { p with halves := [(0, { x with on := true })] },
            ctxs := [(0, { c with mould := some ⟨0, 15, 0, 0⟩, live := true })], tiles := [(0, tile0)] }
def hF (f : Nat) : Half := { freq := f }
def runC (fl : Nat) : Ctx := { st := .running, floor := fl }

theorem wit_clock_guard : (pwS (hF 700) {} {}).present 0 = true ∧
    ((pwS (hF 700) {} {}).tile 0).clk.pstate ≠ .off ∧
    64 * ((pwS (hF 700) {} {}).tile 0).clk.per < 5991937 ∧ 5991936 ≤ 64 * ((pwS (hF 700) {} {}).tile 0).clk.per := by
  decide +kernel

theorem wit_frequency_loop : ((pwS (hF 500) {} {}).half 0).on = true ∧ (pwS (hF 500) {} {}).overridden 0 = false ∧
    (pwS (hF 500) {} {}).floorOf 0 ≤ (pwS (hF 500) {} {}).ceilOf 0 ∧
    ((pwS (hF 500) {} {}).half 0).freq < (pwS (hF 500) {} {}).wantF 0 ∧
    (pwS { freq := 600, capF := 300 } {} {}).wantF 0 < 600 ∧ (pwS (hF 700) {} {}).wantF 0 = 700 ∧
    (pwS { freq := 600, hot := 1 } {} {}).overridden 0 = true ∧
    (pwS (hF 500) {} (runC 710)).ceilOf 0 < (pwS (hF 500) {} (runC 710)).floorOf 0 := by decide +kernel

def smp (vin iin pavg : Nat) : PowerSample :=
  { vin := vin, iin := iin, pin := 4000, pavg := pavg, iavg := 1000, eovh := 0, halves := [] }

theorem wit_cap_loop : (pwS (hF 500) {} {}).capMissed (smp 4000 1000 4201) = true ∧
    (pwS (hF 500) {} {}).pwr.capFrom = none ∧ (pwS (hF 500) {} {}).capPick = some 0 ∧
    (pwS (hF 500) { capFrom := some 5 } {}).pwr.capFrom = some 5 ∧ 5 + 1000000 ≤ (pwS (hF 500) {} {}).time ∧
    (pwS (hF 500) {} {}).pwr.capTold = false ∧ (pwS (hF 500) {} {}).capMissed (smp 4000 1000 4200) = false ∧
    (pwS { freq := 500, capF := 675 } {} {}).capRaise = some 0 := by decide +kernel

theorem wit_thermal_loop : (pwS (hF 500) {} {}).target = 900 ∧
    (pwS (hF 500) {} {}).floorOf 0 < ((pwS (hF 500) {} {}).half 0).freq ∧
    ((pwS { freq := 100, missFrom := some 5 } {} {}).half 0).freq ≤ (pwS { freq := 100, missFrom := some 5 } {} {}).floorOf 0 ∧
    ((pwS { freq := 100, missFrom := some 5 } {} {}).half 0).missFrom = some 5 ∧
    ((pwS { freq := 100, missFrom := some 5 } {} {}).half 0).missTold = false := by decide +kernel

theorem wit_overrides : ((pwS (hF 500) {} {}).half 0).on = true ∧ ((pwS (hF 500) {} {}).half 0).hot = 0 ∧
    1150 < (smp 4000 1151 0).iin ∧ (pwS (hF 500) { curFrom := some 5, vltFrom := some 5 } {}).pwr.curFrom = some 5 ∧
    (pwS (hF 500) { vltFrom := some 5 } {}).pwr.vltFrom = some 5 ∧ 5 + 100000 ≤ (pwS (hF 500) {} {}).time ∧
    (pwS (hF 500) {} {}).pwr.cur = 0 ∧ (pwS (hF 500) {} {}).pwr.vlt = 0 ∧ (smp 3499 0 0).vin < 3500 ∧ 4500 < (smp 4501 0 0).vin ∧
    ((pwS { freq := 500, hot := 1 } {} {}).half 0).hot = 1 ∧ ((pwS { freq := 500, hot := 2 } {} {}).half 0).hot = 2 ∧
    ((pwS { freq := 500, hot := 2 } {} {}).half 0).freq < (pwS { freq := 500, hot := 2 } {} {}).wantF 0 ∧
    (pwS (hF 500) {} {}).present 0 = true ∧ halfOf 0 = 0 := by decide +kernel

theorem wit_trips : (pwS (hF 500) {} {}).stop.fatal = false ∧ (smp 3299 0 0).vin < 3300 ∧ 4700 < (smp 4701 0 0).vin ∧
    3300 ≤ (smp 3300 0 0).vin ∧ (smp 4700 0 0).vin ≤ 4700 := by decide +kernel

theorem wit_half_rails : (pwS (hF 500) {} {}).mgt.boot = 2 ∧ BoundsOk ((pwS (hF 500) {} {}).halfCfg 0) ∧
    (pwS (hF 500) {} {}).halfRefuser 0 = some 0x1000 ∧ ({ pwS (hF 500) {} {} with tiles := [] } : State).halfRefuser 0 = none ∧
    ((pwS (hF 500) {} {}).half 1).on = false ∧ BoundsOk ((pwS (hF 500) {} {}).halfCfg 1) := by
  unfold BoundsOk
  decide +kernel

/-- Tile 0 with this clock; a token in its input makes an arrival. -/
def slS (k : TileClk) (tok : Bool) (c : Ctx) : State :=
  { pwS (hF 500) {} c with tiles := [(0, { tile0 with clk := k, fab := if tok then
      { ports := [(0, { fifo := [{ slot := 0 }] })] } else {} })] }

theorem wit_sleep : let a := slS { pstate := .active, idleCnt := 65535 } false {}
    let b := slS { pstate := .idle, napCnt := 65535 * 1024 } false {}
    a.present 0 = true ∧ a.idleTile 0 = true ∧ (slS { pstate := .active } true {}).idleTile 0 = false ∧
    fld (a.halfCfg 0) 20 16 ≤ 65535 ∧ fld (b.halfCfg 0) 36 16 ≠ 0 ∧ fld (b.halfCfg 0) 36 16 * 1024 ≤ 65535 * 1024 ∧
    b.noNap 0 = false ∧ (slS { pstate := .idle } false (runC 300)).noNap 0 = true ∧
    (slS { pstate := .idle, napCheck := true, cyc := 16 } false {}).arrival 0 = false ∧
    (slS { pstate := .idle, napCheck := true } true {}).arrival 0 = true ∧
    (slS { pstate := .nap } true {}).arrival 0 = true := by decide +kernel

/-- The device without work in state d, a change of state under way as e. -/
def dvS (d : Nat) (e : Option Entering) (dev : SMap Word) : State :=
  { mgt := { boot := 2 }, time := 10 ^ 15, brd := { v40 := true }, dev := dev,
    pwr := { dstate := d, entering := e, didleFrom := some 0 } }

theorem wit_device_states : let s := dvS 0 none [(rkey pgPwr 0x108, 3)]
    s.mgt.boot = 2 ∧ s.pwr.dstate = 0 ∧ s.pwr.entering = none ∧ s.idleRefuser = none ∧ s.standbyRefuser = none ∧
    bit (s.devReg pgPwr 0x108) 0 = true ∧ s.pwr.didleFrom = some 0 ∧
    0 + fld (s.devReg pgPwr 0x108) 1 16 * 1000000 ≤ s.time ∧ (pwS (hF 500) {} (runC 0)).idleRefuser.isSome = true ∧
    (pwS (hF 500) {} (runC 0)).standbyRefuser.isSome = true ∧ s.mgt.saving = none := by decide +kernel

theorem wit_wakes : let s := dvS 1 none [(rkey pgPwr 0x120, 0x01), (rkey pgPwr 0x140, 0x101)]
    bit (s.devReg pgPwr 0x140) 8 = true ∧ bit (s.devReg pgPwr 0x120) 0 = true ∧ s.brd.v40 = true ∧
    bit ((dvS 1 none [(rkey pgPwr 0x140, 0x01)]).devReg pgPwr 0x140) 0 = true ∧
    bit ((dvS 1 none [(rkey pgPwr 0x140, 0x01)]).devReg pgPwr 0x140) 8 = false ∧
    bit ((dvS 1 none [(rkey pgPwr 0x140, 0xFE)]).devReg pgPwr 0x140) 0 = false := by decide +kernel

/-- Every comparator on, alarms and a watched port as each needs. -/
def cmpS : State :=
  { dvS 1 none [(rkey pgPwr 0x130, 1), (rkey pgPwr 0x138, 1), (rkey pgPwr 0x140, 0x14000000FF), (rkey (pgLnm 0) 0x100, 1)] with
    lnm := [(0, { st := .dark })], pwr := { dstate := 1, nwNs := 10 ^ 12 } }

theorem wit_comparators : ∀ e ∈ [((0 : Fin 8), 0), (1, 300), (2, 1), (3, 4), (4, 1), (5, 0), (6, 0), (7, 0)],
    cmpS.brd.v40 = true ∧ bit (cmpS.devReg pgPwr 0x140) e.1 = true ∧ cmpS.cmpFires e.1 e.2 = true ∧
    bit (cmpS.devReg pgPwr 0x140) (8 + e.1) = false := by decide +kernel

/-- A boot image of no bytes after its header, and what meets it. -/
def imgW : BootWorld := { image := leBytes 4 0x4D475246 ++ leBytes 2 1 ++ List.replicate 58 0 }

theorem wit_boot : let s : State := { brd := { v40 := true, rstn := true } }
    s.mgt.flash = [] ∧ s.mgt.flashNew = [] ∧ imageOk (flashSpan imgW.image 0 64) = true ∧
    imageOk (flashSpan [] 0 64) = false ∧ s.brd.pwren = false ∧ s.brd.v40 = true := by decide +kernel

/-- A wake latched while the change of state commits; a stack whose self-refresh exit fails. -/
theorem wit_latched : (dvS 0 (some { target := 1, commit := true, latched := wakeBit 9 }) []).pwr.entering =
      some { target := 1, commit := true, latched := wakeBit 9 } ∧ wakeBit 9 ≠ 0 ∧
    (0 : Fin 36) ∈ ({ imgW with srFail := [0] } : BootWorld).srFail ∧
    (dvS 0 (some { target := 2, commit := true }) []).mgt.saving = none ∧
    (slS { pstate := .idle, napCheck := true } true {}).arrival 0 = true ∧
    (let s := { dvS 2 none [(rkey pgPwr 0x120, 0x01), (rkey pgPwr 0x140, 0x101)] with brd := { v40 := true, pwren := true, rstn := true } }
     s.brd.pwren = true ∧ bit (s.devReg pgPwr 0x140) 8 = true ∧ s.pwr.dstate = 2) := by decide +kernel

/-- R454: at 700 MHz a cycle takes 93,623 · 2^-16 ns, rounded up. -/
theorem test_period : periodOf 700 = 93623 := by decide +kernel

theorem wit_nap_refused : (slS { pstate := .idle, refused := true } false (runC 300)).noNap 0 = true ∧
    fld (({ slS {} false {} with dev := [(rkey pgPwr 0x200, 0)] } : State).halfCfg 0) 36 16 = 0 := by decide +kernel

/-! ## Chapters 16 and 17: root of trust, register accesses -/

/-- Management serves with no context; its die as m. -/
def mgS (m : Mgt) (dev : SMap Word) : State :=
  { mgt := { m with boot := 2 }, time := 10 ^ 12, dev := dev, pwr := { vin := 4000 } }

theorem wit_saves : (mgS {} []).mgt.saving = none ∧ (mgS { saving := some {} } []).mgt.saving = some {} ∧
    (mgS { saving := some {} } []).mgt.saveAgain = false ∧ (mgS { saveAgain := true } []).mgt.saveAgain = true := by
  decide +kernel

theorem wit_fuses : ∀ k : Fin 5, let s := mgS { fuses := { prog := 1 } } [(rkey pgFus 0x110, packW [(3, k), (5, if k = 0 then 1 else 0)])]
    s.mgt.fuseOp = none ∧ s.fuseSel.kind = k ∧ s.fuseRefused s.fuseSel = false ∧
    ({ s with pwr := {} } : State).fuseRefused s.fuseSel = true ∧
    (mgS { fuseOp := some s.fuseSel } []).mgt.fuseOp = some s.fuseSel := by decide +kernel

/-- A report being signed for `src`. -/
def repR (src : Nat) : Report := { req := { src := src, nonce := 0, tctx := 0, tag := 0 }, seq := 0, body := [], sig := [] }

theorem wit_reports : bit (0x1C : Word) 4 = true ∧ 12 ≤ fld (0x1C : Word) 0 4 ∧ bit (0x1B : Word) 4 = true ∧
    fld (0x1B : Word) 0 4 < 12 ∧ (mgS {} []).mgt.signing = none ∧ (mgS {} []).mgt.attQ = [] ∧
    (mgS { signing := some (repR 8) } []).mgt.signing = some (repR 8) ∧ (repR 8).req.src = 8 ∧
    (mgS { attQ := [(repR 0).req] } []).mgt.attQ = [(repR 0).req] := by decide +kernel

def attPk (n : Nat) : LnmPkt := { bytes := n, payload := List.replicate n 1 }
theorem wit_partner_reports : ∀ b : Bool, PacketIn 0 0x0A (attPk (if b then 32 else 0)) (inQ 0x70 {}) ∧
    ((inQ 0x70 {}).port 0).asm = none ∧ (attPk 32).payload.length = 32 ∧ (attPk 0).payload = [] ∧
    ((inQ 0x70 {}).port 0).attBusy = false ∧ ((inQ 0x70 { attBusy := true }).port 0).attBusy = true ∧
    (inQ 0x70 {}).mgt.certs = [] := by
  unfold PacketIn
  decide +kernel

theorem wit_debug_unlock : let s := mgS { fuses := { policy := 2, dbgHash := BitVec.ofNat 256 (leNat (sha256 [])) } } []
    s.jtagMode = 1 ∧ s.mgt.unlockAt ≤ s.time ∧ leNat (sha256 []) = s.mgt.fuses.dbgHash.toNat ∧
    leNat (sha256 []) ≠ (mgS { fuses := { policy := 2 } } []).mgt.fuses.dbgHash.toNat ∧ (mgS {} []).jtagMode ≠ 1 := by
  decide +kernel

theorem wit_management : (mgS {} []).stop.fatal = false ∧ ({ mgt := { boot := 3 } } : State).mgt.flashNew.length < 64 ∧
    ({ mgS {} [] with brd := { sbsel := true } } : State).brd.da = none ∧ (mgS {} []).brd.sbsel = false := by decide +kernel

theorem wit_paths : (∀ p : Fin 10, PathFree p (mgS {} [])) ∧ DevicePage pgPwr (mgS {} []) ∧
    (mgS {} []).jtagMode = 0 ∧ (∀ p : Fin 2, (mgS {} []).pathOpen p = true) ∧ (inQ 0x78 {}).pathOpen 2 = true ∧ (inQ 0x78 {}).mgt.boot = 2 ∧
    (mgS { fuses := { policy := 2 } } []).jtagMode ≠ 0 ∧ (mgS {} []).mgt.unlocked = false ∧
    (0xFFFFF000 : Nat) < 2 ^ 48 ∧ (mgS {} []).pageKind (0x7FFF000 / 4096) = none := by
  unfold PathFree DevicePage OthersServed
  decide +kernel

/-- A one-packet register request to `PG_ERRMASK` of PG_PWR. -/
def regPk (n : Nat) : LnmPkt :=
  { bytes := n, target := BitVec.ofNat 64 (pgPwr * 4096 + 0x030), payload := List.replicate n 1, first := true, last := true }

theorem wit_partner_registers : ∀ b : Bool, let s := inQ 0x78 {}
    PathFree (2 + 0) s ∧ DevicePage pgPwr s ∧ (regPk 0).tkind = 0 ∧ fld (regPk 0).target 0 48 = pgPwr * 4096 + 0x030 ∧
    ({ s with lnm := [(0, { st := .up, role := .peer })] } : State).port 0 = { st := .up, role := .peer } ∧
    hdrOk (if b then 3 else 4) (regPk (if b then 0 else 8)) = true ∧ s.stop.fatal = false ∧
    bit (s.lnmCfg 0) 3 = true ∧ bit ((inQ 0x70 {}).lnmCfg 0) 3 = false ∧ (s.port 0).asm = none ∧
    PacketIn 0 (if b then 3 else 4) (regPk (if b then 0 else 8)) s ∧ (regPk 8).payload.length = 8 := by
  unfold PathFree DevicePage PacketIn OthersServed
  decide +kernel

/-- A message of management to tile 0 about register `off` of its TSP page, and an answer of tile 0. -/
def mgtM (op off : Nat) : Msg := mgtMsg op 0 0 (packW [(2, 1), (12, off)]) 0 0 (leBytes (msgLen op 0) 7)
def respM (st : Nat) : Msg := { op := 0x32, src := 0, dest := unitMgt, status := st, payload := leBytes 8 7 }
def mgmS (op off : Nat) (ps : PState) : State :=
  inS (mgtM op off) { tile0 with clk := { tile0.clk with pstate := ps } }
def respS (st : Nat) : State :=
  { mgS { flying := [(0, some (sideAccess true false 0 0))] } [] with
    inbox := [(unitMgt, [{ msg := respM st, complete := true }])] }

theorem wit_tile_pages : TileMsg 0 0x30 (mgtM 0x30 0x30) (mgmS 0x30 0x30 .active) ∧
    TileMsg 0 0x31 (mgtM 0x31 0x30) (mgmS 0x31 0x30 .active) ∧
    TileMsg 0 0x31 (mgtM 0x31 0x100) (mgmS 0x31 0x100 .off) ∧ ((mgmS 0x31 0x100 .off).tile 0).clk.pstate = .off := by
  unfold TileMsg
  decide +kernel

theorem wit_responses : ∀ st ∈ [0, 5], UnitMsg unitMgt 0x32 (respM st) [] (respS st) ∧ (respM st).status = st ∧
    (respM st).tag = 0 ∧ (respS st).mgt.flying.get 0 none = some (sideAccess true false 0 0) ∧
    (sideAccess true false 0 0).path = 0 ∧ (respS st).mgt.accQ.get 0 [] = [] := by
  intro st h
  refine ⟨lone_unit rfl ?_, ?_⟩ <;> revert st h <;> decide +kernel

/-- Tile 0 halted by management, its fuse policy as p. -/
def dbgS (p : BitVec 8) (h : Bool) : State :=
  { one { tile0 with cfg := { tile0.cfg with halted := h } } with
    mgt := { boot := 2, fuses := { policy := p } }, hdrs := if h then [(pgTile 0 0, { halt := true })] else [] }

theorem wit_debug_windows : PathFree 0 (dbgS 0 true) ∧ (dbgS 0 true).present 0 = true ∧
    (dbgS 0 true).mgt.fuses.policy.toNat / 8 % 2 = 0 ∧ ((dbgS 0 true).tile 0).linesOn 0xFFFF8 8 = true ∧
    fld ((dbgS 0 true).tctState 0) 15 1 = 1 ∧ (dbgS 8 true).mgt.fuses.policy.toNat / 8 % 2 = 1 ∧
    fld ((dbgS 0 false).tctState 0) 15 1 = 0 ∧ (dbgS 0 true).stop.fatal = false ∧ ((dbgS 0 true).tile 0).cfg.frozen = false := by
  unfold PathFree OthersServed
  decide +kernel

/-- A packet from tile 0 at its own router, for tile 1 or for itself. -/
def rtS (dest : Nat) : State :=
  { one tile0 with routers := [(rkeyOf 0 0, packets { dataM with src := 0, dest := dest, payload := [] })] }

theorem wit_routers : ∀ b : Bool, let d := if b then 1 else 0
    let p := (packets { dataM with src := 0, dest := d, payload := [] }).getD 0 { msg := dataM, pkt := 0, first := true, last := true }
    (rtS d).present 0 = true ∧ (rtS d).granted 0 d = some 0 ∧ (rtS d).offer 0 0 = some (p, []) ∧
    p.msg.taken = true ∧ (rtS d).joins p = true ∧ ({ p with first := false } : Packet).first = false ∧
    (rtS d).joins { p with first := false } = false ∧ (rtS d).granted 0 5 = none ∧ tidDie p.msg.dest < 20 ∧
    ({ p.msg with op := 0x3F } : Msg).taken = false := by decide +kernel

/-- R499: the identification code has bit 0 set and manufacturer and part as the spec lists them. -/
theorem test_idcode : (List.range 8).map (fun i => (0x1A250E4F : Nat).testBit i) =
    [true, true, true, true, false, false, true, false] := by decide +kernel

/-! ## Further forms of ports, power and register accesses -/

/-- A HELLO whose header breaks R431, at a link that waits for hello records and at one that is UP; D-idle and its entry. -/
theorem wit_bad_hello : ∀ st ∈ [LState.hello, .up, .dark], ((lnmS { st := st }).port 0).st = st ∧ (lnmS { st := st }).stop.fatal = false ∧
    hdrOk 0x0D { res := true } = false ∧ hdrOk 0x0D {} = true := by decide +kernel

theorem wit_port_wakes : ∀ e ∈ [((1 : Nat), (none : Option Entering)), (0, some { target := 1 }), (0, some { target := 1, commit := true }), (0, none)],
    let s := { inQ 0x70 {} with pwr := { dstate := e.1, entering := e.2 } }
    PacketIn 0 1 (winPk 64) s ∧ s.pwr.entering = e.2 ∧ s.pwr.dstate = e.1 ∧ s.stop.fatal = false := by
  unfold PacketIn
  decide +kernel

/-- The clock of a tile in OFF is that of its half, or of 400 MHz. -/
theorem wit_clock_of_off : ∀ on : Bool, let s := { pwS (hF 500) {} {} with tiles := [], pwr := { halves := [(0, { freq := 500, on := on })] } }
    s.present 0 = true ∧ (s.tile 0).clk.pstate = .off ∧ (s.half 0).on = on := by decide +kernel

def ampM : PowerSample := { smp 4000 1000 4000 with iavg := 1101 }
theorem wit_cap_timers : let s (c a : Option Nat) (told : Bool) := pwS (hF 500) { capFrom := c, ampFrom := a, capTold := told, ampTold := told } {}
    1100 < ampM.iavg ∧ (s none none false).overCap ampM = false ∧ (s none none false).capMissed ampM = true ∧
    (s (some 5) none false).overCap (smp 4000 1000 4201) = true ∧ (s (some 5) none false).pwr.capTold = false ∧
    (s none (some 5) false).pwr.ampFrom = some 5 ∧ (s none (some 5) false).pwr.ampTold = false ∧
    5 + 1000000 ≤ (s none none false).time ∧ (s none (some (10 ^ 12 - 5)) false).time < 10 ^ 12 - 5 + 1000000 := by decide +kernel

theorem wit_voltage_step : (pwS (hF 500) { vlt := 1 } {}).pwr.vlt = 1 ∧ (smp 3599 0 0).vin < 3600 ∧ 4400 < (smp 4401 0 0).vin ∧
    ((pwS (hF 500) { vlt := 1 } {}).half 0).on = true := by decide +kernel

/-- 40 V, PWREN, RST_N and the clocks as they stand before step 2. -/
def brdS (v40 pwren rstn : Bool) : State := { time := 10 ^ 12, brd := { v40 := v40, pwren := pwren, rstn := rstn, lostClk := [(3, true)] } }
theorem wit_power_up : NotBooted (brdS true true false) ∧ (∀ a b c : Bool, (brdS a b c).brd.v40 = a ∧ (brdS a b c).brd.pwren = b ∧
      (brdS a b c).brd.rstn = c ∧ (brdS a b c).mgt.flash = []) ∧ (1000000 : Nat) ≤ ({ imgW with steady := 1000000 } : BootWorld).steady ∧
    ({ imgW with steady := 999999 } : BootWorld).steady < 1000000 ∧ GoodImage { imgW with steady := 1000000 } (brdS true true false) := by
  unfold NotBooted GoodImage
  decide +kernel

/-- A transfer with its PEC in SMBus mode; 40 V is there and comparator 5 is on or off. -/
def xfrPec (code : Nat) (bs : List Byte) : Byte :=
  pecOf (BitVec.ofNat 8 (2 * 0x4C) :: BitVec.ofNat 8 code :: BitVec.ofNat 8 bs.length :: bs)
def sbS (i3c : Bool) (m : Mgt) (dev : SMap Word) : State :=
  { mgS m (dev ++ [(rkey pgPwr 0x140, 0)]) with brd := { v40 := true, sbsel := i3c } }

theorem wit_sideband : ∀ i3c : Bool, SidebandFree (sbS i3c {} []) ∧ DevicePage pgPwr (sbS i3c {} []) ∧
    (∀ e ∈ [((0x10 : Nat), addrDataBytes 0x7FF0 7), (0x11, addrBytes 0x7FF0), (0x13, addrDataBytes 0x7FF0 7), (0x14, addrBytes 0x7FF0)],
      Carries e.1 e.2 ⟨e.1, e.2⟩ (xfrPec e.1 e.2) (sbS i3c {} [])) ∧
    ¬ Carries 0x11 (addrBytes 8) ⟨0x11, addrBytes 8⟩ (xfrPec 0x11 (addrBytes 8) + 1) (sbS false {} []) ∧
    (sbS i3c {} []).sideband = true ∧ ({ sbS i3c {} [] with mgt := {} } : State).sideband = false ∧
    (sbS i3c { flying := [(0, some (sideAccess true false 0 0))] } []).mgt.flying.get 0 none = some (sideAccess true false 0 0) := by
  unfold SidebandFree PathFree DevicePage OthersServed Carries addrDataBytes addrBytes
  decide +kernel

/-- The address match is watched, and may wake the device from D-idle. -/
theorem wit_sideband_wakes : ∀ on : Bool, let s := { sbS true {} [(rkey pgPwr 0x140, if on then 0x2020 else 0x20)] with pwr := { dstate := 1 } }
    bit (s.devReg pgPwr 0x140) 5 = true ∧ bit (s.devReg pgPwr 0x140) 13 = on ∧ s.brd.v40 = true ∧ s.sideband = true ∧
    s.stop.fatal = false ∧ s.pwr.entering = none ∧ s.pwr.dstate = 1 := by decide +kernel

/-- A path whose access awaits its answer. -/
theorem wit_path_busy : let s := mgS { flying := [(1, some (sideAccess true false 0 0))] } []
    s.pathOpen 1 = true ∧ s.mgt.flying.get 1 none = some (sideAccess true false 0 0) ∧ OthersServed 1 s ∧
    (s.mgt.accQ.get 1 []).length < 15 ∧ (mgS {} []).mgt.pathBusy 1 = false := by
  unfold OthersServed
  decide +kernel

theorem wit_register_kinds : ∀ on : Bool, let s := one { tile0 with clk := { tile0.clk with pstate := if on then .active else .off } }
    s.mgt.boot = 2 ∧ (∀ p : Fin 2, s.pathOpen p = true) ∧ (∀ p : Fin 2, s.mgt.pathBusy p = false) ∧ s.present 0 = true ∧
    (s.tile 0).clk.pstate = (if on then .active else .off) ∧ (s.tile 0).cfg.owned = true := by decide +kernel

theorem wit_table_read : ∀ shadow : Bool, let x := tile0.setReg 3 0x130 (if shadow then 0x3000 else 0x1000)
    let m := mgtMsg 0x30 0 0 (packW [(2, 3), (12, 0x138)]) 0 0 []
    TileMsg 0 0x30 m (inS m x) ∧ m.w1 = packW [(2, 3), (12, 0x138)] ∧ ((inS m x).tile 0).clk.pstate ≠ .off ∧
    (tblSel (((inS m x).tile 0).reg 3 0x130)).1 ≠ 3 ∧ ((inS m x).tile 0).cfg.pour = .idle ∧
    TileMsg 0 0x30 (mgtM 0x30 0x40) (mgmS 0x30 0x40 .active) := by
  unfold TileMsg
  decide +kernel

/-- A debug window on tile 0, halted, over a bank that is on or off. -/
def dbgB (halt on : Bool) (p : BitVec 8) : State :=
  let s := dbgS p halt
  { s with brd := { v40 := true, sbsel := true }, dev := [(rkey pgPwr 0x140, 0)], tiles := [(0, if on then s.tile 0 else { s.tile 0 with cfg := { (s.tile 0).cfg with live := [] } })] }
theorem wit_debug_transfers : ∀ on : Bool, SidebandFree (dbgB true on 0) ∧ ((dbgB true on 0).tile 0).linesOn 64 8 = on ∧
    fld ((dbgB true on 0).tctState 0) 15 1 = 1 ∧ fld ((dbgB false on 0).tctState 0) 15 1 = 0 ∧
    Carries 0x13 (addrDataBytes (0x080000000000 + 64) 7) ⟨0x13, addrDataBytes (0x080000000000 + 64) 7⟩
      (xfrPec 0x13 (addrDataBytes (0x080000000000 + 64) 7)) (dbgB true on 0) := by
  unfold SidebandFree PathFree OthersServed Carries addrDataBytes
  decide +kernel
/-! ## The whole device -/

theorem wit_step : (mgS {} []).pending = [] ∧ ({ mgS {} [] with pending := [.save] } : State).pending = [.save] ∧
    ({} : State).present 0x1400 = false := by decide +kernel

theorem wit_invariant : Inv {} ({} : State) := by
  exact ⟨⟨fun _ => by simp [SMap.get], fun _ => by simp [SMap.get], by decide, by decide, by decide, by decide⟩, by decide, by decide,
    by decide, by decide⟩

theorem wit_bounds : Bounds ({} : State) := by
  refine ⟨fun t => ⟨fun c => ?_, fun q => ?_, fun r h => ?_⟩, fun m => ?_, fun c d _ _ _ => ⟨fun m n h => ?_, fun m h => ?_, fun h => ?_⟩,
    fun c d i j hc _ hi _ _ h => ?_, fun i h => ?_⟩
  · simp [State.tile, SMap.get, Tile.cold, Tile.counter]
  · simp [State.tile, SMap.get, Tile.cold, Tile.hqueue]
  · exact absurd h (by simp [State.tile, SMap.get, Tile.cold, Tile.ch])
  · simp [State.mover, SMap.get, Mover.held]
  · exact absurd h (by simp [State.ctx, SMap.get])
  · exact absurd h (by simp [State.ctx, SMap.get])
  · exact absurd rfl h
  · have k : ∀ c : Fin 8, ∀ i : Fin 8, bit (({} : State).slotA c i) 0 = false := by decide +kernel
    exact absurd h (by simpa using k ⟨c, hc⟩ ⟨i, hi⟩)
  · exact absurd h (by simp)

theorem wit_packets : ∀ x ∈ [({ msg := { dataM with src := 5 } } : InMsg), { msg := dataM, complete := true }],
    x.complete = true ∨ x.msg.src ≠ dataM.src := by decide +kernel

/-- An idle device lets a nanosecond pass. -/
theorem test_tick : (match Machine.step (mgS {} []) with | .next s => some s.time | _ => none) = some (10 ^ 12 + 1) := by
  decide +kernel

/-! ## Well-formedness: an ill-formed term for each check -/

/-- A tile number, an access beyond the scratchpad or its line, an upset out of range, a switch input, a port. -/
theorem wf_tile_operands : ∀ c ∈ [Instr.cinc 5120, .scratchpadAccess 0 [{ who := 0, addr := 2 ^ 20, store := none }] [],
    .scratchpadAccess 0 [{ who := 0, addr := 0, store := some [(64, 0, 0)] }] [], .lnBwd 0 0 [⟨2 ^ 48, true⟩], .switchTokenMove 0 .vec 12,
    .switchTokenMove 0 .sca 9, .delayQueueMove 0 34, .progress 0 38, .frozenResend 0 (2 ^ 32),
    .shadowEccError 0 (2 ^ 48)], c.wf = false := by decide +kernel

/-- A unit address, a memory unit, a refresh rate, a scrubbed address. -/
theorem wf_units : ∀ c ∈ [Instr.packetRoute 8192 0 [], .packetRoute 0 8192 [], .ack 8192, .chGrant 8192,
    .refreshRateChange 20 ⟨0, 0⟩, .refreshRateChange 31 ⟨0, 0⟩, .refreshRateChange 48 ⟨0, 0⟩, .refreshRateChange 0 ⟨3, 0⟩,
    .patrolScrub 0 (2 ^ 48) []], c.wf = false := by decide +kernel

/-- A link width, an expander's capacity, header fields, a hello record, a control block. -/
theorem wf_links : ∀ c ∈ [Instr.cxlLinkUp 0 0 3, .lnmWrite 0 { tctx := 8 }, .wack 0 { pkt := 4 },
    .cfgData 0 { bytes := 2048 }, .hello 0 (helloR 256 0 0), .hello 0 (helloR 0 256 0),
    .controlBlock 0 { cbW true false false with lstate := 8 }, .packetDrop 0 (2 ^ 32) ⟨false, 1, {}⟩], c.wf = false := by
  decide +kernel

/-- A sample, a temperature, a clock, a key, register addresses, pages, paths, I3C addresses. -/
theorem wf_device : ∀ c ∈ [Instr.vinFault (smp 8192 0 0), .currentOverride (smp 0 2048 0), .thermTrip 64 2048,
    .referenceClockLost 9, .dbgunlock [] [], .mgtacc false (2 ^ 48) 0, .halt 65536, .haltRelease 65536,
    .pgVerWrite 10 0 0, .pgVerWrite 0 65536 0, .regWrite ⟨256, []⟩ 0, .regRead ⟨256, []⟩ 0,
    .dbgWrite ⟨256, []⟩ 0, .dbgRead ⟨256, []⟩ 0, .registerWrite 10 0 0, .setdasa 128 0, .setdasa 0 128, .entdaa 128], c.wf = false := by
  decide +kernel

/-- Well-formed neighbours pass. -/
theorem wf_accepts : ∀ c ∈ [Instr.cinc 5119, .switchTokenMove 0 .vec 11, .packetRoute 8191 0 [], .refreshRateChange 19 ⟨2, 0⟩,
    .refreshRateChange 32 ⟨0, 0⟩, .thermTrip 64 2047, .entdaa 127, .regWrite ⟨255, [1]⟩ 0], c.wf = true := by decide +kernel

/-! ## Values that the spec works out -/

/-- The dot product of chapter 04 over elements 0 to 2 in BF16 with FP32 output: its word and the flags. -/
def dot32 (a1 b1 a2 : Nat) (sat : Bool) : Nat × Nat :=
  let e (l : List Nat) := l.map (fun c => (⟨bf16L.decode c, zeroVal⟩ : Elt))
  let (v, tg) := blockValue (MDesc.ofWords (packW [(4, 0), (5, 1), (5, 1)]) 0) 0 (e [0x7180, a1, a2]) (e [0x7180, b1, 0x4000])
  let (h, l) := combine (accVal (freshWord 1)) (accVal (freshWord 1)) v true
  let (r, fl) := tagResult tg h l
  let (c, f1) := fp32L.encode .rne sat r
  (c, (fl.or f1).toNat)

theorem test_dot_products : dot32 0x7FC1 0x3F80 0x3FC0 false = (0x7FC00000, 0) ∧
    dot32 0x7F81 0x3F80 0x3FC0 false = (0x7FC00000, 1) ∧ dot32 0 0x3F80 0x3FC0 false = (0x7F800000, 0xA) ∧
    dot32 0 0x3F80 0x3FC0 true = (0x7F7FFFFF, 2) ∧ dot32 0x7F80 0 0x3FC0 false = (0x7FC00000, 1) ∧
    dot32 0xFF80 0x3F80 0x3FC0 false = (0xFF800000, 0) ∧ dot32 0xFF80 0x3F80 0x7F80 false = (0x7FC00000, 1) := by
  decide +kernel

/-- R514: the page identification of MGT and of the TSC page of tile 0x1125. -/
theorem test_page_ids : pageId .mgt pgMgt = 0x0000000101000001 ∧ pageId .tsc 0xC496 = 0x1125000101110082 := by
  decide +kernel

/-- R520: the fault record of a DEADLINE of slot 2, as chapter 17 reads it back. -/
theorem test_deadline_record : (match (deadline 0x0639 2 0x1A2B (-10) none (one tile0)).hdr (pgTile 0x0639 0) with
    | h => h.info) = 0x000014000034568B ∧ pgTile 0x0639 0 = 0x98E4 := by decide +kernel

end Sys2Proof.Tests
end

section
/-! Every command completes where its tile is (O55). -/

namespace Sys2Proof.Proofs

open Machine

/-- The dies of the tiles are those below 20 (R2). -/
theorem tidDie_lt_iff (u : Nat) : tidDie u < 20 ↔ u < 20 * 256 := by
  simp only [tidDie]; omega

/-- A command over a tile answers by whether the tile is there, and by nothing else (R18). -/
theorem exec_of_tile {c : Instr} {t : Nat} (hc : c.tile = some t) (s : State) :
    ∃ s', Machine.exec c s = if s.present t then .next s' else .fault .noSuchTile := by
  cases c
  case packetRoute node out ecc =>
    obtain ⟨hr, rfl⟩ : ¬ (20 * 256 ≤ node ∧ node < 0x1900) ∧ node = t := by simpa [Instr.tile] using hc
    exact ⟨_, if_neg fun h => hr ⟨by simp only [tidDie] at h; omega, h.1⟩⟩
  case ack u =>
    obtain ⟨hu, rfl⟩ : u < 20 * 256 ∧ u = t := by simpa [Instr.tile] using hc
    exact ⟨_, if_pos ((tidDie_lt_iff u).mpr hu)⟩
  case chGrant u =>
    obtain ⟨hu, rfl⟩ : u < 20 * 256 ∧ u = t := by simpa [Instr.tile] using hc
    exact ⟨_, if_pos ((tidDie_lt_iff u).mpr hu)⟩
  all_goals cases hc
  all_goals exact ⟨_, rfl⟩

/-- A command over no tile always has a next state. -/
theorem exec_of_no_tile {c : Instr} (hc : c.tile = none) (s : State) : ∃ s', Machine.exec c s = .next s' := by
  cases c
  case packetRoute node out ecc =>
    have hr : 20 * 256 ≤ node ∧ node < 0x1900 := by simpa [Instr.tile] using hc
    exact ⟨_, if_pos ⟨hr.2, by simp only [tidDie]; omega⟩⟩
  case ack u =>
    have hu : 20 * 256 ≤ u := by simpa [Instr.tile] using hc
    exact ⟨_, if_neg (by rw [tidDie_lt_iff]; omega)⟩
  case chGrant u =>
    have hu : 20 * 256 ≤ u := by simpa [Instr.tile] using hc
    exact ⟨_, if_neg (by rw [tidDie_lt_iff]; omega)⟩
  all_goals cases hc
  all_goals exact ⟨_, rfl⟩

theorem absentTilesFault : AbsentTilesFault := by
  intro c t s hc hp
  obtain ⟨s', h⟩ := exec_of_tile hc s
  simpa [hp] using h

theorem everyCommandCompletes : EveryCommandCompletes := by
  intro c s hp
  cases hc : c.tile with
  | none => exact exec_of_no_tile hc s
  | some t =>
    obtain ⟨s', h⟩ := exec_of_tile hc s
    exact ⟨s', by simpa [hp t hc] using h⟩

/-- Settles O55: a command is either one over a tile, which answers by the tile's presence, or one that always has a
next state. -/
theorem commandsCompleteWhereTheirTileIs : Obligations.CommandsCompleteWhereTheirTileIs :=
  ⟨absentTilesFault, everyCommandCompletes⟩

end Sys2Proof.Proofs
end

section
/-! An access to a register of a device page: what it leaves as it is, what it reports and how it ends (R9, R498). -/

namespace Sys2Proof.Proofs

open Machine

/-! ### What an access to a device page leaves as it is -/

theorem workStands_refl (s : State) : WorkStands s s := ⟨rfl, rfl, rfl, rfl, rfl, rfl, rfl, rfl, rfl⟩

theorem workStands_trans {a b c : State} (h : WorkStands a b) (g : WorkStands b c) : WorkStands a c := by
  obtain ⟨h1, h2, h3, h4, h5, h6, h7, h8, h9⟩ := h
  obtain ⟨g1, g2, g3, g4, g5, g6, g7, g8, g9⟩ := g
  exact ⟨g1.trans h1, g2.trans h2, g3.trans h3, g4.trans h4, g5.trans h5, g6.trans h6, g7.trans h7, g8.trans h8, g9.trans h9⟩

theorem WorkStands.time_eq {s s' : State} (h : WorkStands s s') : s'.time = s.time := by
  obtain ⟨-, -, -, -, -, -, -, ht, -⟩ := h
  exact ht

/-- Two headers with the same mask and the same revision asked for and granted (R515, R518). -/
def SameSettings (h h' : Hdr) : Prop := h'.mask = h.mask ∧ h'.req = h.req ∧ h'.grant = h.grant

/-- What an access to a device page changes beside the register it is for: reports, management's copies, and port p has
queued the packets l. -/
structure Beside (p : Nat) (l : List OutPkt) (s s' : State) : Prop where
  work : WorkStands s s'
  stop : s'.stop = s.stop
  mgt : s'.mgt = { s.mgt with copies := s'.mgt.copies }
  dev : ∀ pg off, rkey pg off ≠ rkey pgErr 0x110 → s'.devReg pg off = s.devReg pg off
  hdr : ∀ q, SameSettings (s.hdr q) (s'.hdr q)
  st : (s'.port p).st = (s.port p).st
  role : (s'.port p).role = (s.port p).role
  outq : (s'.port p).outq = (s.port p).outq ++ l

namespace Beside

theorem refl (p : Nat) (s : State) : Beside p [] s s :=
  ⟨workStands_refl s, rfl, rfl, fun _ _ _ => rfl, fun _ => ⟨rfl, rfl, rfl⟩, rfl, rfl, (List.append_nil _).symm⟩

theorem trans {p : Nat} {k l : List OutPkt} {a b c : State} (h : Beside p k a b) (g : Beside p l b c) :
    Beside p (k ++ l) a c where
  work := workStands_trans h.work g.work
  stop := g.stop.trans h.stop
  mgt := by rw [g.mgt, h.mgt]
  dev pg off hk := (g.dev pg off hk).trans (h.dev pg off hk)
  hdr q := by
    obtain ⟨h1, h2, h3⟩ := h.hdr q
    obtain ⟨g1, g2, g3⟩ := g.hdr q
    exact ⟨g1.trans h1, g2.trans h2, g3.trans h3⟩
  st := g.st.trans h.st
  role := g.role.trans h.role
  outq := by rw [g.outq, h.outq, List.append_assoc]

/-- The same where the second step queues nothing. -/
theorem then_ {p : Nat} {l : List OutPkt} {a b c : State} (h : Beside p l a b) (g : Beside p [] b c) : Beside p l a c := by
  simpa using h.trans g

/-- The same where the first step queues nothing. -/
theorem next {p : Nat} {l : List OutPkt} {a b c : State} (h : Beside p [] a b) (g : Beside p l b c) : Beside p l a c := by
  simpa using h.trans g

theorem foldl {ι : Type} {p : Nat} {f : State → ι → State} (h : ∀ s i, Beside p [] s (f s i)) :
    ∀ (l : List ι) (s : State), Beside p [] s (l.foldl f s)
  | [], s => refl p s
  | i :: l, s => (h s i).then_ (foldl h l (f s i))

end Beside

/-! ### Reports -/

theorem stat_beside (p pg off n : Nat) (s : State) : Beside p [] s (s.stat pg off n) :=
  ⟨workStands_refl s, rfl, rfl, fun _ _ _ => rfl, fun _ => ⟨rfl, rfl, rfl⟩, rfl, rfl, (List.append_nil _).symm⟩

theorem port_put_same (s : State) (p : Nat) (q : LnmPort) : (setPort p q s).port p = q := by
  simp [setPort, State.port]

theorem port_put_ne (s : State) {p r : Nat} (q : LnmPort) (h : r ≠ p) : (setPort p q s).port r = s.port r := by
  simp [setPort, State.port, SMap.get_put_ne, h]

/-- A port whose state, role and queue of packets stay. -/
theorem setPort_beside (p r : Nat) {q : LnmPort} {s : State} (hst : q.st = (s.port r).st)
    (hrole : q.role = (s.port r).role) (hq : q.outq = (s.port r).outq) : Beside p [] s (setPort r q s) := by
  have hp : ((setPort r q s).port p).st = (s.port p).st ∧ ((setPort r q s).port p).role = (s.port p).role ∧
      ((setPort r q s).port p).outq = (s.port p).outq := by
    by_cases h : p = r
    · subst h; rw [port_put_same]; exact ⟨hst, hrole, hq⟩
    · rw [port_put_ne s q h]; exact ⟨rfl, rfl, rfl⟩
  obtain ⟨h1, h2, h3⟩ := hp
  exact ⟨workStands_refl s, rfl, rfl, fun _ _ _ => rfl, fun _ => ⟨rfl, rfl, rfl⟩, h1, h2, by rw [h3, List.append_nil]⟩

theorem queueEvent_beside (p r kind : Nat) (c : Option Nat) (ws : List Word) (s : State) :
    Beside p [] s (queueEvent r kind c ws s) := by
  unfold queueEvent
  dsimp only
  split
  · exact setPort_beside p r rfl rfl rfl
  · refine Beside.then_ ?_ (stat_beside ..)
    exact setPort_beside p r rfl rfl rfl

theorem onHdr_beside (p pg : Nat) {f : Hdr → Hdr} (hf : ∀ h, SameSettings h (f h)) (s : State) :
    Beside p [] s (s.onHdr pg f) := by
  refine ⟨workStands_refl s, rfl, rfl, fun _ _ _ => rfl, fun q => ?_, rfl, rfl, (List.append_nil _).symm⟩
  by_cases h : q = pg
  · subst h; rw [onHdr_hdr_same]; exact hf _
  · rw [onHdr_hdr_ne _ _ h]; exact ⟨rfl, rfl, rfl⟩

theorem markErr_beside (p pg : Nat) (e : Err) (info : Word) (s : State) : Beside p [] s (markErr pg e info s) := by
  unfold markErr
  split
  · exact Beside.refl p s
  · exact onHdr_beside p pg (f := Hdr.mark s.time e info) (fun _ => ⟨rfl, rfl, rfl⟩) s

theorem setLog_beside (p : Nat) (g : ErrLog) (s : State) : Beside p [] s { s with log := g } :=
  ⟨workStands_refl s, rfl, rfl, fun _ _ _ => rfl, fun _ => ⟨rfl, rfl, rfl⟩, rfl, rfl, (List.append_nil _).symm⟩

theorem countLoss_beside (p : Nat) (v : Word) (s : State) : Beside p [] s (s.setDevReg pgErr 0x110 v) :=
  ⟨workStands_refl s, rfl, rfl, fun _ _ h => setDevReg_devReg_ne s v h, fun _ => ⟨rfl, rfl, rfl⟩, rfl, rfl,
    (List.append_nil _).symm⟩

theorem logOne_beside (p pg : Nat) (e : Err) (info : Word) (c : Option Nat) (a : Nat) (s : State) :
    Beside p [] s (logOne pg e info c a s).1 := by
  unfold logOne
  dsimp only
  refine Beside.then_ ?_ (Beside.foldl (fun s r => ?_) _ _)
  · split
    · exact (setLog_beside p _ s).then_ (countLoss_beside p _ _)
    · exact setLog_beside p _ s
  · split
    · exact queueEvent_beside ..
    · exact Beside.refl p s

/-- What the log does beside its entry where that overwrote an unread one: LOG_OVERFLOW stands at the ERR page (R365). -/
def afterOverflow (s : State) : State :=
  let s1 := markErr pgErr .logOverflow (errInfo .logOverflow [] false) s
  if bit (s.hdr pgErr).mask Err.logOverflow.bit then s1
  else (logOne pgErr .logOverflow (errInfo .logOverflow [] false) none 0 s1).1

/-- A CORRECTED error marks its page and, unless it is masked there, is logged; nothing handles it (R351, R365). -/
theorem raise_corrected_eq {e : Err} (hc : e.cls = .corrected) (pg : Nat) (items : List (Nat × Nat)) (c : Option Nat)
    (s : State) : raise pg e items c s =
      let s1 := markErr pg e (errInfo e items false) s
      let r := logOne pg e (errInfo e items false) none 0 s1
      if bit (s.hdr pg).mask e.bit then s1 else if r.2 && e != .logOverflow then afterOverflow r.1 else r.1 := by
  have hh : ∀ s, handleErr e none s = (0, s) := by
    intro s; unfold handleErr; split <;> simp [hc]
  simp [raise, raiseF, hc, hh, afterOverflow]

theorem afterOverflow_beside (p : Nat) (s : State) : Beside p [] s (afterOverflow s) := by
  unfold afterOverflow
  dsimp only
  split
  · exact markErr_beside ..
  · exact (markErr_beside ..).then_ (logOne_beside ..)

theorem raise_beside (p pg : Nat) {e : Err} (hc : e.cls = .corrected) (items : List (Nat × Nat)) (c : Option Nat)
    (s : State) : Beside p [] s (raise pg e items c s) := by
  rw [raise_corrected_eq hc]
  dsimp only
  have h1 := markErr_beside p pg e (errInfo e items false) s
  have h2 := h1.then_ (logOne_beside p pg e (errInfo e items false) none 0 _)
  split
  · exact h1
  · split
    · exact h2.then_ (afterOverflow_beside ..)
    · exact h2

theorem readFirst_beside (p pg off : Nat) (v : Word) (s : State) : Beside p [] s (readFirst pg off v s) := by
  have h0 : Beside p [] s { s with freeCtr := s.freeCtr + 1, mgt := { s.mgt with copies := s.mgt.copies.put (rkey pg off) v.toNat 0 } } :=
    ⟨workStands_refl s, rfl, rfl, fun _ _ _ => rfl, fun _ => ⟨rfl, rfl, rfl⟩, rfl, rfl, (List.append_nil _).symm⟩
  unfold readFirst
  dsimp only
  generalize (if Config.noticed s.freeCtr = true then v.toNat else s.mgt.copies.get (rkey pg off) 0) = old
  split
  · exact h0
  · exact h0.then_ (raise_beside p _ rfl _ _ _)

theorem readUnit_beside (p : Nat) (k : Kind) (pg off : Nat) (v : Word) (s : State) : Beside p [] s (readUnit k pg off v s) := by
  unfold readUnit
  split
  · exact Beside.foldl (fun s e => readFirst_beside ..) _ s
  · exact Beside.foldl (fun s e => readFirst_beside ..) _ s

/-! ### The end of an access -/

theorem outPkt_beside {p : Nat} {s : State} (hup : (s.port p).st = .up) (typ src : Nat) (pk : LnmPkt) (m : Option Msg) :
    Beside p [⟨typ, src, pk, m⟩] s (outPkt p typ src pk m s) := by
  have h : outPkt p typ src pk m s = setPort p { s.port p with outq := (s.port p).outq ++ [⟨typ, src, pk, m⟩] } s := if_pos hup
  rw [h]
  refine ⟨workStands_refl s, rfl, rfl, fun _ _ _ => rfl, fun _ => ⟨rfl, rfl, rfl⟩, ?_, ?_, ?_⟩ <;> rw [port_put_same]

/-- An access of a path that ends: nothing of the chip's work changes, and neither a header, a register of the device, nor
the accesses that wait. -/
structure Ended (s s' : State) : Prop where
  work : WorkStands s s'
  hdrs : s'.hdrs = s.hdrs
  dev : s'.dev = s.dev
  accQ : s'.mgt.accQ = s.mgt.accQ
  flying : s'.mgt.flying = s.mgt.flying
  ir : s'.mgt.ir = s.mgt.ir

theorem outPkt_ended (p typ src : Nat) (pk : LnmPkt) (m : Option Msg) (s : State) : Ended s (outPkt p typ src pk m s) := by
  unfold outPkt
  dsimp only
  split
  · exact ⟨workStands_refl s, rfl, rfl, rfl, rfl, rfl⟩
  · exact ⟨workStands_refl s, rfl, rfl, rfl, rfl, rfl⟩

theorem Ended.trans {a b c : State} (h : Ended a b) (g : Ended b c) : Ended a c :=
  ⟨workStands_trans h.work g.work, g.hdrs.trans h.hdrs, g.dev.trans h.dev, g.accQ.trans h.accQ, g.flying.trans h.flying,
    g.ir.trans h.ir⟩

theorem Ended.refl (s : State) : Ended s s := ⟨workStands_refl s, rfl, rfl, rfl, rfl, rfl⟩

theorem noteJtag_ended (a : Access) (s : State) : Ended s (noteJtag a s) := by
  unfold noteJtag
  split
  · exact ⟨workStands_refl s, rfl, rfl, rfl, rfl, rfl⟩
  · exact Ended.refl s

/-- A request that is not served is counted at its port (R522). -/
theorem portRefusal_ended (p st : Nat) (s : State) : Ended s (if st = 0 then s else portRefusal p s) := by
  split
  · exact Ended.refl s
  · exact ⟨workStands_refl s, rfl, rfl, rfl, rfl, rfl⟩

theorem accDone_ended (a : Access) (st : Nat) (v : Word) (s : State) : Ended s (accDone a st v s) := by
  have h1 : Ended s (if st = 0 then noteJtag a s else s) := by
    split
    · exact noteJtag_ended a s
    · exact Ended.refl s
  unfold accDone
  dsimp only
  generalize (if st = 0 then noteJtag a s else s) = s1 at h1 ⊢
  refine h1.trans ?_
  split
  · exact ⟨workStands_refl _, rfl, rfl, rfl, rfl, rfl⟩
  · split
    · exact ⟨workStands_refl _, rfl, rfl, rfl, rfl, rfl⟩
    · split
      · exact (portRefusal_ended ..).trans (outPkt_ended ..)
      · exact Ended.refl _

/-- The REGRESP that ends a partner's access (R441). -/
def regResp (a : Access) (tctx tag status : Nat) (v : Word) : OutPkt :=
  ⟨0x05, 8, { tctx := tctx, first := true, last := true, bytes := (if a.write then [] else leBytes 8 v.toNat).length,
              tag := tag, status := status, payload := if a.write then [] else leBytes 8 v.toNat }, none⟩

theorem accDone_answers {a : Access} {p tctx tag : Nat} {s : State} (hp : a.path = 2 + p) (ha : a.ans = some (tctx, tag))
    (hup : (s.port p).st = .up) (st : Nat) (v : Word) : Beside p [regResp a tctx tag st v] s (accDone a st v s) := by
  have hn : noteJtag a s = s := if_neg (by omega)
  have h2 : a.path - 2 = p := by omega
  have h0 : a.path ≠ 0 := by omega
  have h1 : a.path ≠ 1 := by omega
  simp only [accDone, hn, ite_self, h0, h1, if_false, ha, h2]
  have hs : Beside p [] s (if st = 0 then s else portRefusal p s) := by
    split
    · exact Beside.refl p s
    · exact stat_beside ..
  exact hs.next (outPkt_beside (by rw [hs.st, hup]) ..)

end Sys2Proof.Proofs
end

section
/-! Accesses to device pages over the management paths: the end of one, and the turn of a path (R507, R508). -/

namespace Sys2Proof.Proofs

open Machine

/-! ### Device pages -/

/-- An access to a register of a device page. -/
structure AtDevice (pg off : Nat) (a : Access) (s : State) : Prop where
  page : DevicePage pg s
  boot : s.mgt.boot = 2
  addr : a.addr = pg * 4096 + off
  off_lt : off < 4096
  aligned : off % 8 = 0
  dbg : a.dbg = false

/-- Which device pages there are does not depend on the state (R512). -/
theorem devicePage_of {pg : Nat} {s : State} (h : DevicePage pg s) (s' : State) : DevicePage pg s' := by
  obtain ⟨hlt, hk⟩ := h
  refine ⟨hlt, ?_⟩
  simpa only [State.pageKind, Nat.not_le.mpr hlt, false_and] using hk

/-- The kind of a device page, which no state changes. -/
def kindOf (pg : Nat) (s : State) : Kind := (s.pageKind pg).getD .mgt

/-- A write that the page has taken or refused ends (R507 cause 5). -/
def endWrite (a : Access) (r : Bool × State) : State := if r.1 then accRefuse a 5 r.2 else accDone a 0 0 r.2

section
variable {pg off : Nat} {a : Access} {s : State} (h : AtDevice pg off a s)
include h

theorem AtDevice.page_eq : a.addr / 4096 = pg := by
  have := h.addr; have := h.off_lt; omega

theorem AtDevice.off_eq : a.addr % 4096 = off := by
  have := h.addr; have := h.off_lt; omega

theorem AtDevice.below : a.addr < 0x8000000 := by
  have := h.addr; have := h.off_lt; have := h.page.1; omega

theorem AtDevice.allowed : s.accCheck a = none := by
  have hb := h.below
  have h8 : a.addr % 8 = 0 := by have := h.addr; have := h.aligned; omega
  have hk : (s.pageKind (a.addr / 4096)).isNone = false := by
    rw [h.page_eq, ← Option.not_isSome, h.page.2]; rfl
  have hd : (a.dbg || decide (a.addr ≥ 0x10000000)) = false := by
    rw [h.dbg, Bool.false_or]; exact decide_eq_false (by omega)
  simp [State.accCheck, h.boot, h8, hk, hd]

theorem serveAcc_write (hw : a.write = true) :
    serveAcc a s = endWrite a (actDev (kindOf pg s) pg off a.v s) := by
  have hb := h.below
  have hg := h.page.1
  unfold serveAcc
  rw [h.allowed]
  simp only [h.page_eq, h.off_eq, hw]
  rw [if_neg (by unfold dbgBase; omega), if_neg (by omega)]
  rfl

theorem serveAcc_read (hw : a.write = false) :
    serveAcc a s = accDone a 0 (s.readDev (kindOf pg s) pg off) (readDevThen (kindOf pg s) pg off s) := by
  have hb := h.below
  have hg := h.page.1
  unfold serveAcc
  rw [h.allowed]
  simp only [h.page_eq, h.off_eq, hw]
  rw [if_neg (by unfold dbgBase; omega), if_neg (by omega)]
  rfl
end

theorem writeDev_not_refused {off : Nat} (ho : 0x100 ≤ off) (k : Kind) (pg : Nat) (v : Word) (s : State) :
    (writeDev k pg off v s).1 = false := by
  simp [writeDev, Nat.not_lt.mpr ho]

/-- A write served whole comes to the same end as one that waited its turn. -/
theorem writeWhole_device {pg off path : Nat} {v : Word} {s : State}
    (h : AtDevice pg off { path := path, write := true, addr := pg * 4096 + off, v := v } s) :
    writeWhole path (pg * 4096 + off) v s =
      endWrite { path := path, write := true, addr := pg * 4096 + off, v := v } (actDev (kindOf pg s) pg off v s) := by
  have hb := h.below
  have hg := h.page.1
  have hp := h.page_eq
  have ho := h.off_eq
  dsimp only at hb hp ho
  have hd : ¬ pg * 4096 + off ≥ dbgBase := by unfold dbgBase; omega
  have ht : ¬ pg ≥ 0x8000 := by omega
  unfold writeWhole
  simp only [h.allowed, hp, ho, if_neg hd, if_neg ht]
  by_cases hl : off < 0x100
  · simp only [endWrite, hl, if_true]
    rfl
  · have hn : (actDev (kindOf pg s) pg off v s).1 = false := writeDev_not_refused (Nat.not_lt.mp hl) ..
    unfold kindOf at hn ⊢
    simp [endWrite, hn]

theorem writeOn_device {pg off path : Nat} {v : Word} {s : State} (hs : DevicePage pg s) (hb : s.mgt.boot = 2)
    (hl : off < 4096) (h8 : off % 8 = 0) (hopen : s.pathOpen path = true) (hfree : s.mgt.pathBusy path = false) :
    writeOn path (pg * 4096 + off) v s =
      endWrite { path := path, write := true, addr := pg * 4096 + off, v := v } (actDev (kindOf pg s) pg off v s) := by
  rw [← writeWhole_device ⟨hs, hb, rfl, hl, h8, rfl⟩]
  simp [writeOn, hopen, hfree]

/-! ### The turn of a path (R508) -/

/-- A path with an access that waits and no answer that it awaits is the next where no other could be. -/
theorem nextPath_eq {m : Mgt} {path : Nat} (hlt : path < 10) (hq : m.accQ.get path [] ≠ [])
    (hf : m.flying.get path none = none)
    (ho : ∀ p, p < 10 → p ≠ path → m.accQ.get p [] = [] ∨ m.flying.get p none ≠ none) : m.nextPath = some path := by
  have hmem : path ∈ (List.range 10).map (fun i => (m.turn + 1 + i) % 10) := by
    rw [List.mem_map]
    refine ⟨(path + 10 - (m.turn + 1) % 10) % 10, ?_, ?_⟩
    · rw [List.mem_range]; omega
    · omega
  unfold Mgt.nextPath
  cases hfd : List.find? _ ((List.range 10).map (fun i => (m.turn + 1 + i) % 10)) with
  | none =>
    rw [List.find?_eq_none] at hfd
    exact absurd (hfd path hmem) (by simp [hf, hq])
  | some p =>
    have hsat := List.find?_some hfd
    obtain ⟨i, -, hi⟩ := List.mem_map.mp (List.mem_of_find?_eq_some hfd)
    by_cases hp : p = path
    · rw [hp]
    · rcases ho p (by omega) hp with h | h
      · simp [h] at hsat
      · simp [h] at hsat

theorem nextPath_none {m : Mgt} (ho : ∀ p, p < 10 → m.accQ.get p [] = [] ∨ m.flying.get p none ≠ none) :
    m.nextPath = none := by
  unfold Mgt.nextPath
  rw [List.find?_eq_none]
  intro p hp
  rw [List.mem_map] at hp
  obtain ⟨i, -, rfl⟩ := hp
  rcases ho _ (Nat.mod_lt (m.turn + 1 + i) (by decide)) with h | h
  · simp [h]
  · simp [h, Option.isNone_iff_eq_none]


theorem servePaths_idle {s : State} (h : s.mgt.nextPath = none) : ∀ n, servePaths n s = s
  | 0 => rfl
  | n + 1 => by simp [servePaths, h]

theorem waiting_pos {m : Mgt} {path : Nat} (h : m.accQ.get path [] ≠ []) : m.waiting ≠ 0 := by
  unfold Mgt.waiting
  generalize m.accQ = q at h
  induction q with
  | nil => exact absurd rfl h
  | cons e q ih =>
    obtain ⟨j, l⟩ := e
    simp only [List.map_cons, List.sum_cons, SMap.get] at h ⊢
    split at h
    · exact fun h0 => h (List.length_eq_zero_iff.mp (Nat.eq_zero_of_add_eq_zero_right h0))
    · exact fun h0 => ih h (Nat.eq_zero_of_add_eq_zero_left h0)

/-- The state in which the one access that has arrived on a path is served: its turn has come. -/
def onTurn (a : Access) (s : State) : State :=
  setMgt (fun m => { m with accQ := (m.accQ.upd a.path [] (· ++ [a])).put a.path [] [], turn := a.path }) s

/-- An access that arrives on a free path is served at once, and nothing else is, where serving it leaves the other
paths' accesses as they are. -/
theorem submit_free {a : Access} {s : State} (hlt : a.path < 10) (hp : PathFree a.path s)
    (hq : (serveAcc a (onTurn a s)).mgt.accQ = (onTurn a s).mgt.accQ)
    (hf : (serveAcc a (onTurn a s)).mgt.flying = s.mgt.flying) : submit a s = serveAcc a (onTurn a s) := by
  obtain ⟨-, hempty, hfly, ho⟩ := hp
  have hget : (s.mgt.accQ.upd a.path [] (· ++ [a])).get a.path [] = [a] := by simp [hempty]
  have hne : ∀ p, p ≠ a.path → (s.mgt.accQ.upd a.path [] (· ++ [a])).get p [] = s.mgt.accQ.get p [] :=
    fun p h => SMap.get_upd_ne _ _ _ _ h
  unfold submit
  extract_lets s1
  have hnext : s1.mgt.nextPath = some a.path := by
    refine nextPath_eq hlt (by simp [s1, setMgt, hget]) hfly (fun p h1 h2 => ?_)
    have := ho p h1 h2
    simpa [s1, setMgt, hne p h2] using this
  obtain ⟨n, hn⟩ := Nat.exists_eq_succ_of_ne_zero (waiting_pos (m := s1.mgt) (path := a.path) (by simp [s1, setMgt, hget]))
  rw [hn, servePaths, hnext]
  have hs1 : s1.mgt.accQ.get a.path [] = [a] := hget
  simp only [hs1]
  refine servePaths_idle (nextPath_none fun p h1 => ?_) n
  have hs : setMgt (fun m => { m with accQ := m.accQ.put a.path [] [], turn := a.path }) s1 = onTurn a s := rfl
  rw [hs, hq, hf]
  by_cases h2 : p = a.path
  · left; simp [onTurn, setMgt, h2]
  · have := ho p h1 h2
    simpa [onTurn, setMgt, SMap.get_put_ne, h2, hne p h2] using this

/-- One that arrives on a path that awaits a tile's answer waits behind the others there. -/
theorem submit_waits {a b : Access} {s : State} (hf : s.mgt.flying.get a.path none = some b) (ho : OthersServed a.path s) :
    submit a s = setMgt (fun m => { m with accQ := m.accQ.upd a.path [] (· ++ [a]) }) s := by
  unfold submit
  refine servePaths_idle (nextPath_none fun p h1 => ?_) _
  by_cases h2 : p = a.path
  · right; simp [setMgt, h2, hf]
  · simpa [setMgt, SMap.get_upd_ne, h2] using ho p h1 h2

end Sys2Proof.Proofs
end

section
/-! Writes of `PG_ERRMASK` and `PG_VER`, JTAG accesses, and paths that are open or busy (R499, R508, R515, R518). -/

namespace Sys2Proof.Proofs

open Machine

/-! ### `PG_ERRMASK` and `PG_VER` (R515, R518) -/

/-- The header with another mask. -/
def withMask (v : Word) (h : Hdr) : Hdr := { h with mask := v }

theorem actDev_mask (k : Kind) (pg : Nat) (v : Word) (s : State) :
    actDev k pg 0x030 v s = (false, (readUnit k pg 0x030 v s).onHdr pg (withMask v)) := rfl

@[simp] theorem endWrite_taken (a : Access) (s : State) : endWrite a (false, s) = accDone a 0 0 s := rfl

@[simp] theorem endWrite_refused (a : Access) (s : State) : endWrite a (true, s) = accRefuse a 5 s := rfl

theorem maskIs_refl (pg : Nat) (s : State) : MaskIs pg (s.hdr pg).mask s s :=
  ⟨workStands_refl s, rfl, fun _ _ => rfl⟩

theorem maskIs_withMask (pg : Nat) (v : Word) (s : State) : MaskIs pg v s (s.onHdr pg (withMask v)) :=
  ⟨workStands_refl s, by rw [onHdr_hdr_same]; rfl, fun q h => by rw [onHdr_hdr_ne _ _ h]⟩

section
variable {p pg : Nat} {l : List OutPkt} {v : Word} {a b c : State}

theorem Beside.maskIs (h : Beside p l a b) (g : MaskIs pg v b c) : MaskIs pg v a c := by
  obtain ⟨gw, gm, go⟩ := g
  exact ⟨workStands_trans h.work gw, gm, fun q hq => (go q hq).trans (h.hdr q).1⟩

theorem Beside.maskKept (h : Beside p l a b) (pg : Nat) : MaskIs pg (a.hdr pg).mask a b := by
  rw [← (h.hdr pg).1]
  exact h.maskIs (maskIs_refl pg b)

theorem Ended.maskIs (h : Ended b c) (g : MaskIs pg v a b) : MaskIs pg v a c := by
  obtain ⟨gw, gm, go⟩ := g
  exact ⟨workStands_trans gw h.work, by rw [hdr_of_hdrs h.hdrs, gm], fun q hq => by rw [hdr_of_hdrs h.hdrs, go q hq]⟩
end

/-- A write of `PG_ERRMASK` that is served. -/
theorem endWrite_mask (a : Access) (k : Kind) (pg : Nat) (v : Word) (s : State) :
    MaskIs pg v s (endWrite a (actDev k pg 0x030 v s)) := by
  rw [actDev_mask]
  exact (accDone_ended a 0 0 _).maskIs ((readUnit_beside 0 k pg 0x030 v s).maskIs (maskIs_withMask pg v _))

theorem accRefuse_beside_ended (a : Access) (cause : Nat) (s : State) :
    ∃ s1, Beside 0 [] s s1 ∧ bit (s1.hdr pgMgt).err Err.regAccess.bit = true ∧ Ended s1 (accRefuse a cause s) :=
  ⟨_, raise_beside 0 pgMgt rfl _ none s, raise_bit (by decide) .., accDone_ended ..⟩

/-- The header with another revision asked for, and revision 1 granted at most (R515). -/
def withRevision (r : Nat) (h : Hdr) : Hdr := { h with req := r, grant := min r 1 }

theorem actDev_ver {v : Word} (hv : fld v 0 16 ≠ 0) (k : Kind) (pg : Nat) (s : State) :
    actDev k pg 0x010 v s = (false, (readUnit k pg 0x010 v s).onHdr pg (withRevision (fld v 0 16))) := by
  simp only [actDev, writeDev, writeHdr, writeVer, hv]
  rfl

theorem actDev_ver_zero {v : Word} (hv : fld v 0 16 = 0) (k : Kind) (pg : Nat) (s : State) :
    actDev k pg 0x010 v s = (true, readUnit k pg 0x010 v s) := by
  simp [actDev, writeDev, writeHdr, writeVer, hv]

/-- A write of `PG_VER` that names a revision. -/
theorem endWrite_ver {v : Word} (hv : fld v 0 16 ≠ 0) (a : Access) (k : Kind) (pg : Nat) (s : State) :
    MaskIs pg (s.hdr pg).mask s (endWrite a (actDev k pg 0x010 v s)) ∧
    ((endWrite a (actDev k pg 0x010 v s)).hdr pg).req = fld v 0 16 ∧
    ((endWrite a (actDev k pg 0x010 v s)).hdr pg).grant = 1 := by
  have hb := readUnit_beside 0 k pg 0x010 v s
  rw [actDev_ver hv, endWrite_taken]
  generalize readUnit k pg 0x010 v s = s1 at hb
  have hd := accDone_ended a 0 0 (s1.onHdr pg (withRevision (fld v 0 16)))
  have hp : (accDone a 0 0 (s1.onHdr pg (withRevision (fld v 0 16)))).hdr pg = withRevision (fld v 0 16) (s1.hdr pg) := by
    rw [hdr_of_hdrs hd.hdrs, onHdr_hdr_same]
  refine ⟨hd.maskIs ⟨hb.work, ?_, fun q hq => ?_⟩, by rw [hp]; rfl, ?_⟩
  · rw [onHdr_hdr_same]; exact (hb.hdr pg).1
  · rw [onHdr_hdr_ne _ _ hq]; exact (hb.hdr q).1
  · rw [hp]; exact Nat.min_eq_right (Nat.one_le_iff_ne_zero.mpr hv)

/-- One that names none is refused. -/
theorem endWrite_ver_zero {v : Word} (hv : fld v 0 16 = 0) (a : Access) (k : Kind) (pg : Nat) (s : State) :
    MaskIs pg (s.hdr pg).mask s (endWrite a (actDev k pg 0x010 v s)) ∧
    ((endWrite a (actDev k pg 0x010 v s)).hdr pg).req = (s.hdr pg).req ∧
    ((endWrite a (actDev k pg 0x010 v s)).hdr pg).grant = (s.hdr pg).grant ∧
    bit ((endWrite a (actDev k pg 0x010 v s)).hdr pgMgt).err Err.regAccess.bit = true := by
  rw [actDev_ver_zero hv, endWrite_refused]
  obtain ⟨s1, hb, hbit, he⟩ := accRefuse_beside_ended a 5 (readUnit k pg 0x010 v s)
  have hb' := (readUnit_beside 0 k pg 0x010 v s).then_ hb
  obtain ⟨-, hreq, hgrant⟩ := hb'.hdr pg
  have hh := hdr_of_hdrs he.hdrs
  exact ⟨he.maskIs (hb'.maskKept pg), by rw [hh, hreq], by rw [hh, hgrant], by rw [hh]; exact hbit⟩

/-! ### Accesses that wait their turn -/

/-- That its turn has come changes nothing of the chip's work and no mask. -/
theorem maskIs_of_onTurn {pg : Nat} {v : Word} {a : Access} {s s' : State} (h : MaskIs pg v (onTurn a s) s') :
    MaskIs pg v s s' := h

/-- Serving an access to a mask leaves the paths' accesses as they are. -/
theorem serveAcc_mask_write {pg : Nat} {a : Access} {s : State} (h : AtDevice pg 0x030 a s) (hw : a.write = true) (p : Nat) :
    ∃ s1, Beside p [] s s1 ∧ serveAcc a s = accDone a 0 0 (s1.onHdr pg (withMask a.v)) :=
  ⟨_, readUnit_beside p .., serveAcc_write h hw⟩

theorem serveAcc_mask_read {pg : Nat} {a : Access} {s : State} (h : AtDevice pg 0x030 a s) (hw : a.write = false) :
    serveAcc a s = accDone a 0 (s.hdr pg).mask s := by
  rw [serveAcc_read h hw]
  simp [State.readDev, State.readHdr, readDevThen]

theorem submit_mask_write {pg : Nat} {a : Access} {s : State} (hlt : a.path < 10) (hp : PathFree a.path s)
    (h : AtDevice pg 0x030 a s) (hw : a.write = true) (p : Nat) :
    ∃ s1, Beside p [] (onTurn a s) s1 ∧ submit a s = accDone a 0 0 (s1.onHdr pg (withMask a.v)) := by
  obtain ⟨s1, hb, hs⟩ := serveAcc_mask_write (s := onTurn a s) ⟨h.page, h.boot, h.addr, h.off_lt, h.aligned, h.dbg⟩ hw p
  have hd := accDone_ended a 0 0 (s1.onHdr pg (withMask a.v))
  refine ⟨s1, hb, ?_⟩
  rw [submit_free hlt hp, hs]
  · rw [hs, hd.accQ, onHdr_mgt, hb.mgt]
  · rw [hs, hd.flying, onHdr_mgt, hb.mgt]; rfl

theorem submit_mask_read {pg : Nat} {a : Access} {s : State} (hlt : a.path < 10) (hp : PathFree a.path s)
    (h : AtDevice pg 0x030 a s) (hw : a.write = false) :
    submit a s = accDone a 0 (s.hdr pg).mask (onTurn a s) := by
  have hs := serveAcc_mask_read (s := onTurn a s) ⟨h.page, h.boot, h.addr, h.off_lt, h.aligned, h.dbg⟩ hw
  have hd := accDone_ended a 0 ((onTurn a s).hdr pg).mask (onTurn a s)
  rw [submit_free hlt hp, hs]
  · rfl
  · rw [hs, hd.accQ]
  · rw [hs, hd.flying]; rfl

/-! ### JTAG (R499) -/

theorem mgtacc_open {s : State} (hb : s.mgt.boot = 2) (hm : s.jtagMode = 0) (w : Bool) {addr : Nat} (ha : addr < 2 ^ 48)
    (v : Word) : Machine.exec (.mgtacc w addr v) s =
      .next (submit { path := 1, write := w, addr := addr, v := v } (loadIr 0x11 s)) := by
  have ho : (s.sideband && s.jtagOpen) = true := by simp [State.sideband, State.jtagOpen, hb, hm]
  show Host.Outcome.next (if s.sideband && s.jtagOpen then _ else s) = _
  rw [if_pos ho, Nat.mod_eq_of_lt ha]

theorem mgtacc_closed {s : State} (hm : s.jtagMode ≠ 0) (hu : s.mgt.unlocked = false) (w : Bool) (addr : Nat) (v : Word) :
    Machine.exec (.mgtacc w addr v) s = .next s := by
  have ho : (s.sideband && s.jtagOpen) = false := by simp [State.jtagOpen, hm, hu]
  show Host.Outcome.next (if s.sideband && s.jtagOpen then _ else s) = _
  rw [ho]; rfl

theorem accDone_jtag_read {a : Access} (hp : a.path = 1) (hw : a.write = false) (v : Word) (s : State) :
    (accDone a 0 v s).brd.tdo = bitsOf (leBytes 8 v.toNat) := by
  simp [accDone, hp, hw, setBrd]

theorem maskIs_of_loadIr {pg i : Nat} {v : Word} {s s' : State} (h : MaskIs pg v (loadIr i s) s') : MaskIs pg v s s' := h

theorem jtag_reaches_masks {pg : Nat} {s : State} (hpg : DevicePage pg s) (hf : PathFree 1 s) (hm : s.jtagMode = 0)
    (v : Word) :
    Completes (.mgtacc true (pg * 4096 + 0x030) v) s (fun s' => MaskIs pg v s s' ∧ s'.mgt.ir = 0x11) ∧
    Completes (.mgtacc false (pg * 4096 + 0x030) v) s (fun s' => MaskIs pg (s.hdr pg).mask s s' ∧
      s'.brd.tdo = bitsOf (leBytes 8 (s.hdr pg).mask.toNat)) := by
  have hb := hf.1
  have ha : pg * 4096 + 0x030 < 2 ^ 48 := by have := hpg.1; omega
  have hat : ∀ w, AtDevice pg 0x030 { path := 1, write := w, addr := pg * 4096 + 0x030, v := v } (loadIr 0x11 s) :=
    fun w => ⟨hpg, hb, rfl, by decide, by decide, rfl⟩
  constructor
  · obtain ⟨s1, h1, hs⟩ := submit_mask_write (p := 0) (show 1 < 10 by decide) hf (hat true) rfl
    have hd := accDone_ended { path := 1, write := true, addr := pg * 4096 + 0x030, v := v } 0 0 (s1.onHdr pg (withMask v))
    refine ⟨_, mgtacc_open hb hm true ha v, ?_, ?_⟩
    · rw [hs]
      exact maskIs_of_loadIr (maskIs_of_onTurn (hd.maskIs (h1.maskIs (maskIs_withMask pg v s1))))
    · rw [hs, hd.ir, onHdr_mgt, h1.mgt]; rfl
  · have hs := submit_mask_read (show 1 < 10 by decide) hf (hat false) rfl
    refine ⟨_, mgtacc_open hb hm false ha v, ?_, ?_⟩
    · rw [hs]
      exact maskIs_of_loadIr (maskIs_of_onTurn ((accDone_ended ..).maskIs (maskIs_refl pg _)))
    · rw [hs]
      exact accDone_jtag_read rfl rfl ..

/-! ### Writes on any path (R508, R515) -/

theorem registerWrite_device {pg off path : Nat} {v : Word} {s : State} (hs : DevicePage pg s) (hb : s.mgt.boot = 2)
    (hl : off < 4096) (h8 : off % 8 = 0) (hopen : s.pathOpen path = true) (hfree : s.mgt.pathBusy path = false) :
    Machine.exec (.registerWrite path (pg * 4096 + off) v) s =
      .next (endWrite { path := path, write := true, addr := pg * 4096 + off, v := v } (actDev (kindOf pg s) pg off v s)) := by
  have ha : pg * 4096 + off < 2 ^ 48 := by have := hs.1; omega
  show Host.Outcome.next (writeOn path ((pg * 4096 + off) % 2 ^ 48) v s) = _
  rw [Nat.mod_eq_of_lt ha, writeOn_device hs hb hl h8 hopen hfree]

theorem pgVerWrite_device {pg path : Nat} {v : Word} {s : State} (hs : DevicePage pg s) (hb : s.mgt.boot = 2)
    (hopen : s.pathOpen path = true) (hfree : s.mgt.pathBusy path = false) :
    Machine.exec (.pgVerWrite path pg v) s =
      .next (endWrite { path := path, write := true, addr := pg * 4096 + 0x010, v := v } (actDev (kindOf pg s) pg 0x010 v s)) := by
  have ha : pg < 2 ^ 16 := by have := hs.1; omega
  show Host.Outcome.next (writeOn path (pg % 2 ^ 16 * 4096 + 0x010) v s) = _
  rw [Nat.mod_eq_of_lt ha, writeOn_device hs hb (by decide) (by decide) hopen hfree]

theorem open_paths_write {pg path : Nat} {s : State} (hpg : DevicePage pg s) (hb : s.mgt.boot = 2)
    (hopen : s.pathOpen path = true) (hfree : s.mgt.pathBusy path = false) (v : Word) :
    Completes (.registerWrite path (pg * 4096 + 0x030) v) s (MaskIs pg v s) ∧
    (fld v 0 16 ≠ 0 → Completes (.pgVerWrite path pg v) s (fun s' => MaskIs pg (s.hdr pg).mask s s' ∧
      (s'.hdr pg).req = fld v 0 16 ∧ (s'.hdr pg).grant = 1)) ∧
    (fld v 0 16 = 0 → Completes (.pgVerWrite path pg v) s (fun s' => MaskIs pg (s.hdr pg).mask s s' ∧
      (s'.hdr pg).req = (s.hdr pg).req ∧ (s'.hdr pg).grant = (s.hdr pg).grant ∧
      bit (s'.hdr pgMgt).err Err.regAccess.bit = true)) :=
  ⟨⟨_, registerWrite_device hpg hb (by decide) (by decide) hopen hfree, endWrite_mask ..⟩,
    fun hv => ⟨_, pgVerWrite_device hpg hb hopen hfree, endWrite_ver hv ..⟩,
    fun hv => ⟨_, pgVerWrite_device hpg hb hopen hfree, endWrite_ver_zero hv ..⟩⟩

theorem busy_paths_hold {pg path : Nat} {b : Access} {s : State} (hpg : DevicePage pg s)
    (hopen : s.pathOpen path = true) (hf : s.mgt.flying.get path none = some b) (v : Word) :
    (path = 0 → Completes (.registerWrite path (pg * 4096 + 0x030) v) s (· = s)) ∧
    (path ≠ 0 → OthersServed path s → (s.mgt.accQ.get path []).length < 15 →
      Completes (.registerWrite path (pg * 4096 + 0x030) v) s (fun s' => WorkStands s s' ∧ s'.hdrs = s.hdrs ∧
        s'.mgt.accQ.get path [] = s.mgt.accQ.get path [] ++
          [{ path := path, write := true, addr := pg * 4096 + 0x030, v := v }])) := by
  have ha : (pg * 4096 + 0x030) % 2 ^ 48 = pg * 4096 + 0x030 := by have := hpg.1; omega
  have hbusy : s.mgt.pathBusy path = true := by simp [Mgt.pathBusy, hf]
  have hex : ∀ s', writeOn path (pg * 4096 + 0x030) v s = s' →
      Machine.exec (.registerWrite path (pg * 4096 + 0x030) v) s = .next s' := by
    rintro _ rfl
    show Host.Outcome.next (writeOn path ((pg * 4096 + 0x030) % 2 ^ 48) v s) = _
    rw [ha]
  refine ⟨fun h0 => ⟨s, hex s ?_, rfl⟩, fun h0 ho hlen => ⟨_, hex _ rfl, ?_⟩⟩
  · subst h0
    simp [writeOn, hopen, hbusy]
  · have hw : writeOn path (pg * 4096 + 0x030) v s = submit { path := path, write := true, addr := pg * 4096 + 0x030, v := v } s := by
      have : ¬ (path ≥ 2 ∧ (s.mgt.accQ.get path []).length ≥ 15) := by omega
      simp [writeOn, hopen, hbusy, h0, this]
    rw [hw, submit_waits hf ho]
    exact ⟨workStands_refl s, rfl, by simp [setMgt]⟩

end Sys2Proof.Proofs
end

section
/-! Packets of VC0 at a port: the device wakes, broken messages are answered, requests of a partner are served (R432, R441, R468). -/

namespace Sys2Proof.Proofs

open Machine

/-! ### A packet of VC0 wakes the device (R468) -/

theorem foldl_mem {ι : Type} {f : State → ι → State} (h : ∀ s i, ∃ m, f s i = { s with mem := m }) :
    ∀ (l : List ι) (s : State), ∃ m, l.foldl f s = { s with mem := m }
  | [], s => ⟨s.mem, rfl⟩
  | i :: l, s => by
    obtain ⟨m, hm⟩ := h s i
    obtain ⟨m', hm'⟩ := foldl_mem h l (f s i)
    exact ⟨m', by rw [List.foldl_cons, hm', hm]⟩

/-- Self-refresh is the memories' alone (R410). -/
theorem setSr_eq (on : Bool) (s : State) : ∃ m, setSr on s = { s with mem := m } := by
  unfold setSr
  obtain ⟨m, hm⟩ := foldl_mem (f := fun s d => if (s.hbm d).trained then setHbm d { s.hbm d with sr := on } s else s)
    (fun s d => by split <;> exact ⟨_, rfl⟩) (List.range 20) s
  dsimp only
  rw [hm]
  obtain ⟨m', hm'⟩ := foldl_mem (f := fun s c => if (s.ddr c).trained then setDdr c { s.ddr c with sr := on } s else s)
    (fun s c => by split <;> exact ⟨_, rfl⟩) (List.range 16) { s with mem := m }
  exact ⟨m', hm'⟩

/-- What a wake event of VC0 leaves alone: headers, ports with their settings, stops and the management die. -/
structure SamePorts (s s' : State) : Prop where
  hdrs : s'.hdrs = s.hdrs
  lnm : s'.lnm = s.lnm
  stop : s'.stop = s.stop
  mgt : s'.mgt = s.mgt
  cfg : ∀ r, s'.lnmCfg r = s.lnmCfg r

theorem setDevReg_lnmCfg (s : State) (off r : Nat) (v : Word) (ho : off < 4096) :
    (s.setDevReg pgPwr off v).lnmCfg r = s.lnmCfg r :=
  setDevReg_devReg_ne s v (by simp only [rkey, pgLnm, pgPwr]; omega)

theorem SamePorts.trans {a b c : State} (h : SamePorts a b) (g : SamePorts b c) : SamePorts a c :=
  ⟨g.hdrs.trans h.hdrs, g.lnm.trans h.lnm, g.stop.trans h.stop, g.mgt.trans h.mgt, fun r => (g.cfg r).trans (h.cfg r)⟩

theorem samePorts_refl (s : State) : SamePorts s s := ⟨rfl, rfl, rfl, rfl, fun _ => rfl⟩

theorem samePorts_pwr (w : Power) (s : State) : SamePorts s { s with pwr := w } := ⟨rfl, rfl, rfl, rfl, fun _ => rfl⟩

theorem samePorts_mem (m : Tiers) (s : State) : SamePorts s { s with mem := m } := ⟨rfl, rfl, rfl, rfl, fun _ => rfl⟩

theorem samePorts_setDevReg (off : Nat) (v : Word) (s : State) (ho : off < 4096) :
    SamePorts s (s.setDevReg pgPwr off v) :=
  ⟨rfl, rfl, rfl, rfl, fun r => setDevReg_lnmCfg s off r v ho⟩

theorem samePorts_noteSet (k : Nat) (v : Word) (s : State) : SamePorts s (noteSet k v s) :=
  ⟨rfl, rfl, rfl, rfl, fun _ => rfl⟩

theorem setWake_samePorts (i : Nat) (s : State) : SamePorts s (setWake i s) := by
  unfold setWake
  exact (samePorts_setDevReg 0x120 _ s (by decide)).trans (samePorts_noteSet ..)

theorem acctAbort_samePorts (s : State) : SamePorts s (acctAbort 2 s) := by
  unfold acctAbort
  exact samePorts_setDevReg _ _ s (by decide)

theorem leaveIdle_samePorts (s : State) : SamePorts s (leaveIdle s) := by
  unfold leaveIdle setL1
  obtain ⟨m, h⟩ := setSr_eq false { s with pwr := { s.pwr with dstate := 0 } }
  rw [h]
  exact (samePorts_pwr _ s).trans ((samePorts_mem m _).trans (samePorts_mem _ _))

theorem vc0Wake_samePorts (s : State) : SamePorts s (vc0Wake s) := by
  unfold vc0Wake
  split
  · split
    · exact samePorts_refl s
    · split
      · exact (samePorts_pwr _ s).trans (acctAbort_samePorts _)
      · exact (samePorts_pwr _ s).trans (setWake_samePorts 8 _)
  · split
    · exact (setWake_samePorts 8 s).trans (leaveIdle_samePorts _)
    · exact samePorts_refl s

theorem woken_samePorts (typ : Nat) (s : State) : SamePorts s (woken typ s) := by
  unfold woken
  split
  · exact vc0Wake_samePorts s
  · exact samePorts_refl s

theorem SamePorts.port {s s' : State} (h : SamePorts s s') (p : Nat) : s'.port p = s.port p := by
  simp [State.port, h.lnm]

/-! ### Packets at a port (R432, R438) -/

theorem Beside.lnmCfg {p : Nat} {l : List OutPkt} {s s' : State} (h : Beside p l s s') (r : Nat) :
    s'.lnmCfg r = s.lnmCfg r :=
  h.dev _ _ (by simp only [rkey, pgLnm, pgErr]; omega)

/-- A WACK that the packet c asks for (R439). -/
def wackPkt (c tag status : Nat) : OutPkt :=
  ⟨0x02, 8, { tctx := c, first := true, last := true, tag := tag, status := status }, none⟩

theorem sendWack_beside {p : Nat} {s : State} (hup : (s.port p).st = .up) (c tag status : Nat) :
    Beside p [wackPkt c tag status] s (sendWack p c tag status s) := by
  unfold sendWack
  dsimp only
  have hs : Beside p [] s (if status = 4 ∨ status = 5 then portRefusal p s else s) := by
    split
    · exact stat_beside ..
    · exact Beside.refl p s
  exact hs.next (outPkt_beside (by rw [hs.st, hup]) ..)

theorem proto_beside {p : Nat} {s : State} (hup : (s.port p).st = .up) (typ : Nat) (k : LnmPkt) :
    Beside p (protoAck k) s (proto p typ k s) := by
  unfold proto protoAck
  dsimp only
  have hs := (raise_beside p (pgLnm p) (e := .lnmProto) rfl (lnmItems typ k) none s).then_ (stat_beside p (pgLnm p) 0x58 1 _)
  split
  · exact hs.next (sendWack_beside (by rw [hs.st, hup]) ..)
  · exact hs

theorem breakMsg_beside {p : Nat} {s : State} (hup : (s.port p).st = .up) (typ : Nat) (k : LnmPkt) :
    Beside p (brokenAck p s) s (breakMsg p typ k s) := by
  unfold breakMsg brokenAck
  cases hasm : (s.port p).asm with
  | none => exact Beside.refl p s
  | some w =>
    dsimp only
    have h1 : Beside p [] s (onPort p (fun q => { q with asm := none }) s) := setPort_beside p p rfl rfl rfl
    have h2 := h1.then_ (proto_beside (by rw [h1.st, hup]) typ { k with ackreq := false })
    split
    · exact h2.next (sendWack_beside (by rw [h2.st, hup]) ..)
    · exact h2

/-- The port once a packet has come: SEQ has moved on and its blocks are freed (R433, R434). -/
def seqMoved (typ : Nat) (k : LnmPkt) (q : LnmPort) : LnmPort :=
  { q with rxSeq := (q.rxSeq + 1) % 2 ^ 32, nak := false,
           freed0 := if vcOf typ = 0 then (q.freed0 + pktBlocks k) % 2 ^ 32 else q.freed0,
           freed1 := if vcOf typ = 1 then (q.freed1 + pktBlocks k) % 2 ^ 32 else q.freed1 }

/-- The state in which a packet of VC0 that is no window WRITE takes effect: the message it breaks has been answered. -/
theorem recv_vc0 {p typ : Nat} {k : LnmPkt} {s : State} (hup : (s.port p).st = .up) (hf : s.stop.fatal = false)
    (hvc : vcOf typ = 0) (ht : typ ≠ 1) (f : State → State) :
    ∃ s1, Beside p (brokenAck p s) (woken typ s) s1 ∧
      recv p typ k f s = if roleTakes (s.port p).role typ && hdrOk typ k then f s1 else proto p typ k s1 := by
  have hw := woken_samePorts typ s
  have hb : brokenAck p (setPort p (seqMoved typ k (s.port p)) (woken typ s)) = brokenAck p s := by
    unfold brokenAck; rw [port_put_same]; rfl
  have h1 : Beside p [] (woken typ s) (setPort p (seqMoved typ k (s.port p)) (woken typ s)) :=
    setPort_beside p p (by rw [hw.port]; rfl) (by rw [hw.port]; rfl) (by rw [hw.port]; rfl)
  have hup1 : ((setPort p (seqMoved typ k (s.port p)) (woken typ s)).port p).st = .up := by rw [port_put_same]; exact hup
  refine ⟨_, hb ▸ h1.next (breakMsg_beside hup1 typ k), ?_⟩
  simp [recv, hup, hf, hvc, ht, woken, seqMoved]

/-! ### Register requests of a partner (R441) -/

theorem otherRole_control {p typ : Nat} {s : State} (h : (s.port p).role = .control) (k : LnmPkt) (f : State → State) :
    otherRole p typ k f s = s := by simp [otherRole, h]

theorem otherRole_other {p typ : Nat} {k : LnmPkt} {s : State} (hup : (s.port p).st = .up) (hf : s.stop.fatal = false)
    (hr : (s.port p).role ≠ .control) (hk : hdrOk typ k = true) (f : State → State) : otherRole p typ k f s = f s := by
  simp [otherRole, hup, hf, hr, hk]

theorem pathFree_of_mgt {path : Nat} {s s' : State} {c : SMap Nat} (hm : s'.mgt = { s.mgt with copies := c }) (h : PathFree path s) :
    PathFree path s' := by
  obtain ⟨hb, hq, hf, ho⟩ := h
  unfold PathFree OthersServed
  rw [hm]
  exact ⟨hb, hq, hf, ho⟩

theorem regRequest_allowed {p : Nat} {k : LnmPkt} {s : State} (hp : PathFree (2 + p) s) (hk : k.tkind = 0)
    (ha : bit (s.lnmCfg p) 3 = true) (w : Bool) : regRequest p w k s = submit (partnerAccess p w k) s := by
  obtain ⟨-, hq, hf, -⟩ := hp
  simp [regRequest, hq, hf, hk, ha]

theorem regRequest_denied {p : Nat} {s : State} (ha : bit (s.lnmCfg p) 3 = false) (w : Bool) (k : LnmPkt) :
    regRequest p w k s = accDone (partnerAccess p w k) 5 0 s := by
  simp [regRequest, ha]

/-- REGRESP to a request that is served, with its data (R441). -/
def regServed (k : LnmPkt) (bs : List Byte) : OutPkt :=
  ⟨0x05, 8, { tctx := k.tctx, first := true, last := true, bytes := bs.length, tag := k.tag, payload := bs }, none⟩

/-- What a partner's request comes to: the mask of the page, and what its port has queued. -/
structure Answers (p pg : Nat) (v : Word) (l : List OutPkt) (s s' : State) : Prop where
  mask : MaskIs pg v s s'
  outq : (s'.port p).outq = (s.port p).outq ++ l
  role : (s'.port p).role = (s.port p).role

theorem Beside.answers {p : Nat} {l : List OutPkt} {s s' : State} (h : Beside p l s s') (pg : Nat) :
    Answers p pg (s.hdr pg).mask l s s' := ⟨h.maskKept pg, h.outq, h.role⟩

theorem denied_beside {p : Nat} {s : State} (hup : (s.port p).st = .up) (k : LnmPkt) (w : Bool) :
    Beside p [regRefused k (if w then 0 else 8)] s (accDone (partnerAccess p w k) 5 0 s) := by
  have h := accDone_answers (a := partnerAccess p w k) rfl rfl hup 5 0
  cases w <;> exact h

section
variable {p pg : Nat} {k : LnmPkt} {s : State} (hp8 : p < 8) (hpg : DevicePage pg s) (hp : PathFree (2 + p) s)
  (haddr : fld k.target 0 48 = pg * 4096 + 0x030) (hup : (s.port p).st = .up)
include hp8 hpg hp haddr hup

theorem partner_reads_mask : Answers p pg (s.hdr pg).mask [regServed k (leBytes 8 (s.hdr pg).mask.toNat)] s
    (submit (partnerAccess p false k) s) := by
  have hat : AtDevice pg 0x030 (partnerAccess p false k) s := ⟨hpg, hp.1, haddr, by decide, by decide, rfl⟩
  rw [submit_mask_read (show 2 + p < 10 by omega) hp hat rfl]
  have h := accDone_answers (a := partnerAccess p false k) (s := onTurn (partnerAccess p false k) s) rfl rfl hup 0 (s.hdr pg).mask
  exact ⟨maskIs_of_onTurn (h.maskKept pg), h.outq, h.role⟩

theorem partner_writes_mask : Answers p pg (BitVec.ofNat 64 (leNat k.payload)) [regServed k []] s
    (submit (partnerAccess p true k) s) := by
  have hat : AtDevice pg 0x030 (partnerAccess p true k) s := ⟨hpg, hp.1, haddr, by decide, by decide, rfl⟩
  obtain ⟨s1, hb, hs⟩ := submit_mask_write (show 2 + p < 10 by omega) hp hat rfl p
  have hup1 : (s1.port p).st = .up := hb.st.trans hup
  have h := accDone_answers (a := partnerAccess p true k)
    (s := s1.onHdr pg (withMask (partnerAccess p true k).v)) rfl rfl hup1 0 0
  have hd := accDone_ended (partnerAccess p true k) 0 0 (s1.onHdr pg (withMask (partnerAccess p true k).v))
  rw [hs]
  refine ⟨maskIs_of_onTurn (hd.maskIs (hb.maskIs (maskIs_withMask pg _ s1))), ?_, h.role.trans hb.role⟩
  rw [h.outq]
  show (s1.port p).outq ++ _ = _
  rw [hb.outq, List.append_nil]
  rfl
end

end Sys2Proof.Proofs
end

section
/-! REGRD and REGWR, and the paths that reach device pages (R441, R508). -/

namespace Sys2Proof.Proofs

open Machine

/-! ### REGRD and REGWR -/

/-- The command of a register request, by whether it writes. -/
def reqInstr (w : Bool) (p : Fin 8) (k : LnmPkt) : Instr := if w then .regwr p k else .regrd p k

/-- Its packet type. -/
def reqType (w : Bool) : Nat := if w then 0x04 else 0x03

theorem reqType_vc (w : Bool) : vcOf (reqType w) = 0 := by cases w <;> rfl

theorem reqType_ne (w : Bool) : reqType w ≠ 1 := by cases w <;> decide

/-- Only a CONTROL link takes register requests (R432). -/
theorem roleTakes_request {r : Role} {w : Bool} : roleTakes r (reqType w) = true ↔ r = .control := by
  cases w <;> cases r <;> decide

/-- A request is received, and answered besides on a link of another role. -/
theorem exec_request_recv (w : Bool) (p : Fin 8) (k : LnmPkt) (s : State) :
    ∃ f, Machine.exec (reqInstr w p k) s = .next (otherRole p.val (reqType w) k (accDone (partnerAccess p.val w k) 5 0)
      (recv p.val (reqType w) k f s)) := by
  cases w <;> exact ⟨_, rfl⟩

/-- What the device does about a request whose payload its type admits. -/
theorem exec_request {w : Bool} {k : LnmPkt} (hk : w = true → k.payload.length = 8) (p : Fin 8) (s : State) :
    Machine.exec (reqInstr w p k) s = .next (otherRole p.val (reqType w) k (accDone (partnerAccess p.val w k) 5 0)
      (recv p.val (reqType w) k (regRequest p.val w k) s)) := by
  cases w
  · rfl
  · have h : (fun s => if k.payload.length = 8 then regRequest p.val true k s else proto p.val 0x04 k s) =
        regRequest p.val true k := by
      funext s; rw [if_pos (hk rfl)]
    show Host.Outcome.next (otherRole p.val 0x04 k _ (recv p.val 0x04 k (fun s => _) s)) = _
    rw [h]
    rfl

section
variable {w : Bool} {p : Fin 8} {k : LnmPkt} {s : State}

/-- A request that the link's role and R431 admit is served where it stands: the message it breaks is answered first. -/
theorem request_in (hin : PacketIn p (reqType w) k s) (hk : w = true → k.payload.length = 8) :
    ∃ s1, Beside p (brokenAck p s) (woken (reqType w) s) s1 ∧ (s1.port p).st = .up ∧
      (((regRequest p w k s1).port p).role = (s1.port p).role →
        Machine.exec (reqInstr w p k) s = .next (regRequest p w k s1)) := by
  obtain ⟨hup, hf, hrole, hhdr⟩ := hin
  obtain ⟨s1, hb, hr⟩ := recv_vc0 (k := k) hup hf (reqType_vc w) (reqType_ne w) (regRequest p w k)
  have hw := woken_samePorts (reqType w) s
  refine ⟨s1, hb, by rw [hb.st, hw.port, hup], fun hrole' => ?_⟩
  have hc : (s.port p).role = .control := roleTakes_request.mp hrole
  rw [exec_request hk, hr, hrole, hhdr]
  simp only [Bool.and_self, if_true]
  rw [otherRole_control (by rw [hrole', hb.role, hw.port, hc])]

/-- The answer to a request stands behind what the port had queued, and the answer to the message it broke. -/
theorem completes_of_answers {pg : Nat} {v : Word} {l : List OutPkt} {s1 s' : State}
    (hb : Beside p (brokenAck p s) (woken (reqType w) s) s1) (h : Answers p pg v l s1 s')
    (he : Machine.exec (reqInstr w p k) s = .next s') :
    Completes (reqInstr w p k) s (fun s' => MaskIs pg v (woken (reqType w) s) s' ∧
      (s'.port p).outq = (s.port p).outq ++ brokenAck p s ++ l) := by
  refine ⟨s', he, hb.maskIs h.mask, ?_⟩
  rw [h.outq, hb.outq, (woken_samePorts ..).port]

theorem hdr_broken {pg : Nat} {s1 : State} (hb : Beside p (brokenAck p s) (woken (reqType w) s) s1) :
    (s1.hdr pg).mask = (s.hdr pg).mask := by
  rw [(hb.hdr pg).1, hdr_of_hdrs (woken_samePorts ..).hdrs]

/-- Without `ALLOW_REG` a request is refused (R441). -/
theorem request_denied (pg : Nat) (ha : bit (s.lnmCfg p) 3 = false) (hin : PacketIn p (reqType w) k s)
    (hk : w = true → k.payload.length = 8) :
    Completes (reqInstr w p k) s (fun s' => MaskIs pg (s.hdr pg).mask (woken (reqType w) s) s' ∧
      (s'.port p).outq = (s.port p).outq ++ brokenAck p s ++ [regRefused k (if w then 0 else 8)]) := by
  obtain ⟨s1, hb, hup, he⟩ := request_in hin hk
  have hr := regRequest_denied (by rw [hb.lnmCfg, (woken_samePorts ..).cfg, ha]) w k
  have hd := (denied_beside hup k w).answers pg
  rw [← hr] at hd
  rw [hdr_broken hb] at hd
  exact completes_of_answers hb hd (he hd.role)

/-- On a link of another role it breaks R432, and is refused all the same (R441, log 67). -/
theorem request_other_role (pg : Nat) (hup : (s.port p).st = .up) (hf : s.stop.fatal = false)
    (hrole : (s.port p).role ≠ .control) (hhdr : hdrOk (reqType w) k = true) :
    Completes (reqInstr w p k) s (fun s' => MaskIs pg (s.hdr pg).mask (woken (reqType w) s) s' ∧
      (s'.port p).outq = (s.port p).outq ++ brokenAck p s ++ protoAck k ++ [regRefused k (if w then 0 else 8)]) := by
  obtain ⟨f, he⟩ := exec_request_recv w p k s
  obtain ⟨s1, hb, hr⟩ := recv_vc0 (k := k) hup hf (reqType_vc w) (reqType_ne w) f
  have hw := woken_samePorts (reqType w) s
  have hno : roleTakes (s.port p).role (reqType w) = false := by
    rw [Bool.eq_false_iff, ne_eq, roleTakes_request]; exact hrole
  have hup1 : (s1.port p).st = .up := by rw [hb.st, hw.port, hup]
  have hp := proto_beside hup1 (reqType w) k
  have hup2 : ((proto p (reqType w) k s1).port p).st = .up := by rw [hp.st, hup1]
  have hd := hp.trans (denied_beside hup2 k w)
  rw [hr, hno, Bool.false_and, if_neg Bool.false_ne_true, otherRole_other hup2 (by rw [hp.stop, hb.stop, hw.stop, hf])
    (by rw [hp.role, hb.role, hw.port]; exact hrole) hhdr] at he
  obtain ⟨s', he', hm, hq⟩ := completes_of_answers hb (hdr_broken hb ▸ hd.answers pg) he
  exact ⟨s', he', hm, by rw [hq, ← List.append_assoc]⟩

section
variable {pg : Nat} (hpg : DevicePage pg s) (hfree : PathFree (2 + p) s) (hkind : k.tkind = 0)
  (haddr : fld k.target 0 48 = pg * 4096 + 0x030) (hallow : bit (s.lnmCfg p) 3 = true)
  (hin : PacketIn p (reqType w) k s) (hk : w = true → k.payload.length = 8)
include hpg hfree hkind haddr hallow hin hk

/-- A request that is allowed reads or writes the mask it names. -/
theorem request_allowed :
    Completes (reqInstr w p k) s (fun s' =>
      MaskIs pg (if w then BitVec.ofNat 64 (leNat k.payload) else (s.hdr pg).mask) (woken (reqType w) s) s' ∧
      (s'.port p).outq = (s.port p).outq ++ brokenAck p s ++
        [regServed k (if w then [] else leBytes 8 (s.hdr pg).mask.toNat)]) := by
  obtain ⟨s1, hb, hup, he⟩ := request_in hin hk
  have hw := woken_samePorts (reqType w) s
  have hfree1 : PathFree (2 + p) s1 := pathFree_of_mgt (hw.mgt ▸ hb.mgt) hfree
  have hr := regRequest_allowed hfree1 hkind (by rw [hb.lnmCfg, hw.cfg, hallow]) w
  have hs : Answers p pg (if w then BitVec.ofNat 64 (leNat k.payload) else (s.hdr pg).mask)
      [regServed k (if w then [] else leBytes 8 (s.hdr pg).mask.toNat)] s1 (regRequest p w k s1) := by
    rw [hr, ← hdr_broken hb]
    cases w
    · exact partner_reads_mask p.isLt (devicePage_of hpg s1) hfree1 haddr hup
    · exact partner_writes_mask p.isLt (devicePage_of hpg s1) hfree1 haddr hup
  exact completes_of_answers hb hs (he hs.role)
end
end

/-- The paths to a device page. -/
theorem pathsReachDevicePages : PathsReachDevicePages := by
  intro pg v s hpg
  refine ⟨fun hf hm => jtag_reaches_masks hpg hf hm v, fun hm hu w => ⟨s, mgtacc_closed hm hu w _ v, rfl⟩,
    fun path hb ho hfree => open_paths_write hpg hb ho hfree v, fun path a _ ho hfly => busy_paths_hold hpg ho hfly v,
    fun p k hfree hkind haddr hallow => ⟨fun hin => ?_, fun hin hk => ?_⟩,
    fun p k hdeny => ⟨fun hin => ?_, fun hin hk => ?_⟩, fun p k hup hf hrole => ⟨fun hhdr => ?_, fun hhdr => ?_⟩⟩
  · exact request_allowed (w := false) hpg hfree hkind haddr hallow hin (fun h => absurd h (by decide))
  · exact request_allowed (w := true) hpg hfree hkind haddr hallow hin (fun _ => hk)
  · exact request_denied (w := false) pg hdeny hin (fun h => absurd h (by decide))
  · exact request_denied (w := true) pg hdeny hin (fun _ => hk)
  · exact request_other_role (w := false) pg hup hf hrole hhdr
  · exact request_other_role (w := true) pg hup hf hrole hhdr

end Sys2Proof.Proofs
end

section
/-! The kinds of register of a device page, and management's copies of the units' states (R9, R10, R498). -/

namespace Sys2Proof.Proofs

open Machine

/-! ### What a write of a device register changes (R9, R10) -/

/-- A register that is there to be read: a write of it is taken and stores nothing. -/
def ReadOnly (k : Kind) (pg off : Nat) : Prop := ∀ v s, writeDev k pg off v s = (false, s)

theorem storeDev_nothing {k : Kind} {pg off : Nat} (h : devMask k pg off = 0) (v : Word) (s : State) :
    storeDev k pg off v s = s := by simp [storeDev, h]

/-- Header registers other than `PG_VER`, `PG_CTRL`, `PG_ERR` and `PG_ERRMASK`, and the statistics (R513, R521). -/
theorem readOnly_header {off : Nat} (h : off = 0 ∨ off = 8 ∨ off = 0x020 ∨ off = 0x038 ∨ (0x040 ≤ off ∧ off < 0x100))
    (k : Kind) (pg : Nat) : ReadOnly k pg off := by
  intro v s
  have hl : off < 0x100 := by omega
  simp only [writeDev, hl, if_true]
  unfold writeHdr
  split
  · omega
  · omega
  · omega
  · omega
  · rfl

theorem readOnly_ctx {pg : Nat} (hi : pgCtx (pageInst pg) = pg) (hm : devMask .ctx pg 0x100 = 0) : ReadOnly .ctx pg 0x100 := by
  intro v s
  show (false, writeCtx (pageInst pg) 0x100 v s) = _
  simp [writeCtx, hi, storeDev_nothing hm]

theorem readOnly_mov {pg : Nat} (hm : devMask .mov pg 0x100 = 0) : ReadOnly .mov pg 0x100 :=
  fun v s => congrArg (Prod.mk false) (storeDev_nothing hm v s)

theorem readOnly_hbm {pg : Nat} (hm : devMask .hbm pg 0x100 = 0) : ReadOnly .hbm pg 0x100 :=
  fun v s => congrArg (Prod.mk false) (storeDev_nothing hm v s)

theorem readOnly_lnm {pg : Nat} (hm : devMask .lnm pg 0x108 = 0) : ReadOnly .lnm pg 0x108 :=
  fun v s => congrArg (Prod.mk false) (storeDev_nothing hm v s)

theorem readOnly_pwr {off : Nat} (h4 : 0x400 ≤ off) (hm : devMask .pwr pgPwr off = 0) : ReadOnly .pwr pgPwr off := by
  intro v s
  have hl : ¬ off < 0x100 := by omega
  have h1 : off ≠ 0x110 := by omega
  have h2 : off ≠ 0x120 := by omega
  have h3 : ¬ (0x200 ≤ off ∧ off < 0x340) := by omega
  have h5 : (off != 0x130) = true := by simp; omega
  have h6 : (off != 0x138) = true := by simp; omega
  simp [writeDev, hl, writePwr, h1, h2, h3, h5, h6, storeDev_nothing hm]

/-- The kind of a device page is the same in every state. -/
theorem kindOf_eq {pg : Nat} (h : pg < 0x8000) (s s' : State) : kindOf pg s = kindOf pg s' := by
  simp only [kindOf, State.pageKind, Nat.not_le.mpr h, false_and]

theorem stateRegs_pages : ∀ e ∈ stateRegs, e.1 < 0x8000 ∧ (({} : State).pageKind e.1).isSome = true ∧ e.2 < 4096 ∧ e.2 % 8 = 0 := by
  decide +kernel

theorem readOnly_stateRegs : ∀ e ∈ stateRegs, ReadOnly (kindOf e.1 {}) e.1 e.2 := by
  intro e he
  simp only [stateRegs, List.mem_append, List.mem_map, List.mem_range] at he
  rcases he with (((⟨c, hc, rfl⟩ | ⟨m, hm, rfl⟩) | ⟨p, hp, rfl⟩) | ⟨u, hu, rfl⟩) | ⟨h, hh, rfl⟩
  · have : ∀ c < 8, kindOf (pgCtx c) {} = .ctx ∧ pgCtx (pageInst (pgCtx c)) = pgCtx c ∧ devMask .ctx (pgCtx c) 0x100 = 0 := by
      decide +kernel
    obtain ⟨hk, hi, h0⟩ := this c hc
    exact hk ▸ readOnly_ctx hi h0
  · have : ∀ m < 28, kindOf (pgMov m) {} = .mov ∧ devMask .mov (pgMov m) 0x100 = 0 := by decide +kernel
    obtain ⟨hk, h0⟩ := this m hm
    exact hk ▸ readOnly_mov h0
  · have : ∀ p < 8, kindOf (pgLnm p) {} = .lnm ∧ devMask .lnm (pgLnm p) 0x108 = 0 := by decide +kernel
    obtain ⟨hk, h0⟩ := this p hp
    exact hk ▸ readOnly_lnm h0
  · have : ∀ u < 20, kindOf (pgHbm u) {} = .hbm ∧ devMask .hbm (pgHbm u) 0x100 = 0 := by decide +kernel
    obtain ⟨hk, h0⟩ := this u hu
    exact hk ▸ readOnly_hbm h0
  · have : ∀ h < 40, devMask .pwr pgPwr (0x400 + 8 * h) = 0 := by decide +kernel
    exact readOnly_pwr (Nat.le_add_right ..) (this h hh)

/-! ### Reading a unit anew (R498) -/

/-- Where management's copies have followed the units, reading one anew reports nothing. -/
theorem readUnit_hdrs (hn : ∀ n, Config.noticed n = true) (k : Kind) (pg off : Nat) (v : Word) (s : State) :
    (readUnit k pg off v s).hdrs = s.hdrs := by
  have h1 : ∀ pg off v s, (readFirst pg off v s).hdrs = s.hdrs := by
    intro pg off v s
    simp [readFirst, hn]
  unfold readUnit
  split
  · exact Reported.foldl_hdrs _ (fun s e => h1 ..) _ s
  · exact Reported.foldl_hdrs _ (fun s e => h1 ..) _ s

theorem actDev_readOnly {k : Kind} {pg off : Nat} (h : ReadOnly k pg off) (v : Word) (s : State) :
    actDev k pg off v s = (false, readUnit k pg off v s) := h v _

theorem endWrite_readOnly (hn : ∀ n, Config.noticed n = true) {k : Kind} {pg off : Nat} (h : ReadOnly k pg off)
    (a : Access) (v : Word) (s : State) : NothingWritten s (endWrite a (actDev k pg off v s)) := by
  rw [actDev_readOnly h, endWrite_taken]
  have hb := readUnit_beside 0 k pg off v s
  have hd := accDone_ended a 0 0 (readUnit k pg off v s)
  refine ⟨workStands_trans hb.work hd.work, fun q _ => ?_, fun q o hk => ?_⟩
  · rw [hdr_of_hdrs hd.hdrs, hdr_of_hdrs (readUnit_hdrs hn ..)]
  · exact Eq.trans (by simp only [State.devReg, hd.dev]) (hb.dev q o hk)

theorem endWrite_clear (hn : ∀ n, Config.noticed n = true) (a : Access) (k : Kind) (pg : Nat) (v : Word) (s : State) :
    WorkStands s (endWrite a (actDev k pg 0x028 v s)) ∧
    (∀ q, q ≠ pg → (endWrite a (actDev k pg 0x028 v s)).hdr q = s.hdr q) ∧
    (endWrite a (actDev k pg 0x028 v s)).hdr pg = (s.hdr pg).clear s.time v := by
  have hb := readUnit_beside 0 k pg 0x028 v s
  have hh := readUnit_hdrs hn k pg 0x028 v s
  have ht : (readUnit k pg 0x028 v s).time = s.time := WorkStands.time_eq hb.work
  have ha : actDev k pg 0x028 v s = (false, (readUnit k pg 0x028 v s).onHdr pg (Hdr.clear s.time v)) := by
    rw [← ht]; rfl
  rw [ha, endWrite_taken]
  have hd := accDone_ended a 0 0 ((readUnit k pg 0x028 v s).onHdr pg (Hdr.clear s.time v))
  refine ⟨workStands_trans hb.work hd.work, fun q hq => ?_, ?_⟩
  · rw [hdr_of_hdrs hd.hdrs, onHdr_hdr_ne _ _ hq, hdr_of_hdrs hh]
  · rw [hdr_of_hdrs hd.hdrs, onHdr_hdr_same, hdr_of_hdrs hh]

/-- A register of a page whose units have no state register to read, written as `f` says. -/
theorem endWrite_plain {k : Kind} {pg off : Nat} {v w : Word} {s : State}
    (hact : actDev k pg off v s = (false, s.setDevReg pg off w)) (a : Access) :
    WorkStands s (endWrite a (actDev k pg off v s)) ∧ (endWrite a (actDev k pg off v s)).hdrs = s.hdrs ∧
    (endWrite a (actDev k pg off v s)).devReg pg off = w ∧
    ∀ q o, rkey q o ≠ rkey pg off → (endWrite a (actDev k pg off v s)).devReg q o = s.devReg q o := by
  rw [hact, endWrite_taken]
  have hd := accDone_ended a 0 0 (s.setDevReg pg off w)
  have hr : ∀ q o, (accDone a 0 0 (s.setDevReg pg off w)).devReg q o = (s.setDevReg pg off w).devReg q o := by
    intro q o; simp only [State.devReg, hd.dev]
  exact ⟨hd.work, hd.hdrs, by rw [hr, setDevReg_devReg_same], fun q o h => by rw [hr, setDevReg_devReg_ne _ _ h]⟩

theorem actDev_wake (v : Word) (s : State) : actDev .pwr pgPwr 0x120 v s =
    (false, s.setDevReg pgPwr 0x120 (s.devReg pgPwr 0x120 &&& ~~~v ||| s.justSet (rkey pgPwr 0x120))) := rfl

theorem actDev_errSel (v : Word) (s : State) : actDev .err pgErr 0x118 v s =
    (false, s.setDevReg pgErr 0x118 (v &&& 0x3FF)) := rfl

theorem deviceRegisterKinds_of_noticed (hn : ∀ n, Config.noticed n = true) : DeviceRegisterKinds := by
  intro path v s hb hopen hfree
  refine ⟨fun pg off hpg h8 hoff => ?_, fun e he => ?_, fun pg h hpg hh => ?_, ?_, ?_⟩
  · exact ⟨_, registerWrite_device hpg hb (by omega) h8 hopen hfree, endWrite_readOnly hn (readOnly_header hoff _ _) ..⟩
  · obtain ⟨hlt, hk, hl, h8⟩ := stateRegs_pages e he
    have hpg : DevicePage e.1 s := devicePage_of (s := {}) ⟨hlt, hk⟩ s
    refine ⟨_, registerWrite_device hpg hb hl h8 hopen hfree, ?_⟩
    rw [kindOf_eq hlt s {}]
    exact endWrite_readOnly hn (readOnly_stateRegs e he) ..
  · subst hh
    obtain ⟨hw, ho, hc⟩ := endWrite_clear hn { path := path, write := true, addr := pg * 4096 + 0x028, v := v }
      (kindOf pg s) pg v s
    refine ⟨_, registerWrite_device hpg hb (by decide) (by decide) hopen hfree, hw, fun q hq _ => ho q hq, ?_, ?_, ?_⟩
    · rw [hc]; simp [Hdr.clear]
    · rw [hc]; rfl
    · rw [hc]; simp [Hdr.clear, and_assoc]
  · have hpg : DevicePage pgPwr s := ⟨by decide, rfl⟩
    exact ⟨_, registerWrite_device hpg hb (by decide) (by decide) hopen hfree, endWrite_plain (actDev_wake v s) _⟩
  · have hpg : DevicePage pgErr s := ⟨by decide, rfl⟩
    exact ⟨_, registerWrite_device hpg hb (by decide) (by decide) hopen hfree, endWrite_plain (actDev_errSel v s) _⟩

/-! ### A stale copy and a full log -/

theorem logOne_full (pg : Nat) (e : Err) (info : Word) (c : Option Nat) (a : Nat) {s : State} (h : 1024 ≤ s.log.unread) :
    (logOne pg e info c a s).2 = true := by
  simp only [logOne, logPut]
  split <;> simp [Nat.not_lt.mpr h]

/-- An entry that meets a full log overwrites an unread one, and LOG_OVERFLOW stands at the ERR page (R365). -/
theorem raise_full_log {e : Err} (hc : e.cls = .corrected) (hne : e ≠ .logOverflow) {pg : Nat}
    (items : List (Nat × Nat)) {s : State} (hm : bit (s.hdr pg).mask e.bit = false)
    (hf : 1024 ≤ s.log.unread) : bit ((raise pg e items none s).hdr pgErr).err Err.logOverflow.bit = true := by
  have hl : (markErr pg e (errInfo e items false) s).log = s.log := by
    unfold markErr; split <;> rfl
  rw [raise_corrected_eq hc]
  simp only [hm, logOne_full _ _ _ _ _ (hl ▸ hf), bne_iff_ne, ne_eq, hne, not_false_eq_true, Bool.true_and, if_true,
    Bool.false_eq_true, if_false, afterOverflow]
  have hb := fun s => markErr_bit (by decide : pgErr ≠ pgNone) .logOverflow (errInfo .logOverflow [] false) s
  split
  · exact hb _
  · rw [hdr_of_hdrs (logOne_hdrs ..)]; exact hb _

/-- A copy that has not followed its unit and differs from it raises STATE_MISMATCH (R498); a full log then overflows. -/
theorem readFirst_overflows {pg off : Nat} {v : Word} {s : State} (hn : Config.noticed s.freeCtr = false)
    (hv : s.mgt.copies.get (rkey pg off) 0 ≠ v.toNat) (hm : bit (s.hdr pgMgt).mask Err.stateMismatch.bit = false)
    (hf : 1024 ≤ s.log.unread) : bit ((readFirst pg off v s).hdr pgErr).err Err.logOverflow.bit = true := by
  simp only [readFirst, hn, Bool.false_eq_true, if_false, if_neg hv]
  exact raise_full_log rfl (by decide) _ hm hf

/-- A device whose error log is full and whose copy of the first mover's state is not the mover's. -/
def staleDevice (n : Nat) : State :=
  { freeCtr := n, log := { unread := 1024 }, mgt := { boot := 2, copies := [(rkey (pgMov 0) 0x100, 1)] } }

theorem readUnit_mov (pg off : Nat) (v : Word) (s : State) :
    readUnit .mov pg off v s = readFirst pg 0x100 (s.movStat (pageInst pg)) s := rfl

theorem staleDevice_overflows {n : Nat} (hn : Config.noticed n = false) (off : Nat) (v : Word) :
    bit ((readUnit .mov (pgMov 0) off v (staleDevice n)).hdr pgErr).err Err.logOverflow.bit = true := by
  rw [readUnit_mov]
  refine readFirst_overflows hn ?_ ?_ (Nat.le_refl 1024)
  · show 1 ≠ (({} : State).movStat 0).toNat
    decide
  · show bit (({} : State).hdr pgMgt).mask Err.stateMismatch.bit = false
    decide

/-- A write of `PG_ID` of the first mover then marks another page's header. -/
theorem not_deviceRegisterKinds_of_unnoticed {n : Nat} (hn : Config.noticed n = false) : ¬ DeviceRegisterKinds := by
  intro h
  have hpg : DevicePage (pgMov 0) (staleDevice n) := ⟨by decide, rfl⟩
  have hk : kindOf (pgMov 0) (staleDevice n) = .mov := rfl
  obtain ⟨hro, -⟩ := h 0 0 (staleDevice n) rfl rfl rfl
  obtain ⟨s', hs, -, hq, -⟩ := hro (pgMov 0) 0 hpg rfl (Or.inl rfl)
  rw [registerWrite_device hpg rfl (by decide) rfl rfl rfl, actDev_readOnly (readOnly_header (Or.inl rfl) _ _),
    endWrite_taken, hk] at hs
  injection hs with hs
  have he : (readUnit .mov (pgMov 0) 0 0 (staleDevice n)).hdr pgErr = {} := by
    rw [← hdr_of_hdrs (accDone_ended ..).hdrs, hs, hq pgErr (by decide)]
    rfl
  have hb := staleDevice_overflows hn 0 0
  rw [he] at hb
  exact absurd hb (by decide)

/-- The value is one the model leaves open (R498, log 22), so neither side can be proved. -/
theorem deviceRegisterKinds_iff : DeviceRegisterKinds ↔ ∀ n, Config.noticed n = true := by
  refine ⟨fun h n => ?_, deviceRegisterKinds_of_noticed⟩
  cases hn : Config.noticed n with
  | true => rfl
  | false => exact absurd h (not_deviceRegisterKinds_of_unnoticed hn)

end Sys2Proof.Proofs
end

section
/-! Writes of a register of a tile page (R9, R10, R507). -/

namespace Sys2Proof.Proofs

open Machine

/-! ### Tile pages -/

theorem setReg_reg_same (x : Tile) (k off : Nat) (v : Word) : (x.setReg k off v).reg k off = v := by
  simp [Tile.setReg, Tile.reg]

theorem setReg_reg_ne (x : Tile) {k off j o : Nat} (v : Word) (h : rkey j o ≠ rkey k off) :
    (x.setReg k off v).reg j o = x.reg j o := by
  simp [Tile.setReg, Tile.reg, SMap.get_put_ne, h]

/-- A tile of the part is one of the first 5,120 (R2). -/
theorem present_lt {s : State} {t : Nat} (h : s.present t = true) : t < 20 * 256 := by
  rw [← tidDie_lt_iff]
  exact of_decide_eq_true (Bool.and_eq_true_iff.mp h).1

theorem isSome_ite {α : Type} {c : Prop} [Decidable c] {x : α} {o : Option α} (h : o.isSome = true) :
    (if c then some x else o).isSome = true := by
  split
  · rfl
  · exact h

theorem pageKind_tile {s : State} {t k : Nat} (h : s.present t = true) (hk : k < 4) :
    (s.pageKind (pgTile t k)).isSome = true := by
  have ht : (pgTile t k - 0x8000) / 4 = t := by unfold pgTile; omega
  have h8 : 0x8000 ≤ pgTile t k := by unfold pgTile; omega
  unfold State.pageKind
  iterate 12 refine isSome_ite ?_
  rw [if_pos ⟨h8, by rw [ht]; exact h⟩]
  rfl

/-- A write of a register of a tile page. -/
def tileWrite (path t k off : Nat) (v : Word) : Access :=
  { path := path, write := true, addr := pgTile t k * 4096 + off, v := v }

/-- A write that brings no answer ends: only the management die has changed. JTAG's to an owned tile sets DEBUGGED, and one
that is refused does not (R501). -/
theorem accDone_tileWrite {path t k : Nat} (ht : t < 20 * 256) (hk : k < 4) {off : Nat} (ho : off < 4096) (v : Word)
    (st : Nat) (w : Word) (s : State) :
    ∃ m, accDone (tileWrite path t k off v) st w s = { s with mgt := m } ∧
      (st = 0 → path = 1 → (s.tile t).cfg.owned = true → m.debugged = true) ∧
      (st ≠ 0 → m.debugged = s.mgt.debugged) := by
  have hp : (tileWrite path t k off v).addr / 4096 = pgTile t k := by unfold tileWrite; dsimp only; omega
  have htid : pageTid (pgTile t k) = t := by unfold pageTid pgTile; omega
  have hr : 0x8000 ≤ pgTile t k ∧ pgTile t k < 0x10000 := by unfold pgTile; omega
  have hnote : ∃ m, (if st = 0 then noteJtag (tileWrite path t k off v) s else s) = { s with mgt := m } ∧
      (st = 0 → path = 1 → (s.tile t).cfg.owned = true → m.debugged = true) ∧ (st ≠ 0 → m.debugged = s.mgt.debugged) := by
    by_cases h0 : st = 0
    · simp only [h0, if_true, noteJtag, hp, htid]
      split
      · exact ⟨_, rfl, fun _ _ _ => rfl, fun h => absurd rfl h⟩
      · rename_i hno
        exact ⟨s.mgt, rfl, fun _ h1 h2 => absurd ⟨h1, rfl, hr.1, hr.2, h2⟩ hno, fun h => absurd rfl h⟩
    · simp only [h0, if_false]
      exact ⟨s.mgt, rfl, fun h => absurd h id, fun _ => rfl⟩
  obtain ⟨m, hm, hd, hn⟩ := hnote
  unfold accDone
  dsimp only
  rw [hm]
  split
  · exact ⟨_, rfl, hd, hn⟩
  · split
    · exact ⟨_, rfl, hd, hn⟩
    · exact ⟨_, rfl, hd, hn⟩

theorem wakeTile_awake {t : Nat} {s : State} (h : (s.tile t).clk.pstate = .active ∨ (s.tile t).clk.pstate = .off) :
    wakeTile t s = s.onTile t id := by
  have hi : (s.tile t).clk.pstate ≠ .idle := by rcases h with h | h <;> simp [h]
  have hw : (s.tile t).wake = s.tile t := by
    unfold Tile.wake
    rcases h with h | h <;> rw [h]
  simp [wakeTile, hi, State.onTile, hw]

/-- The path can bring a write, and holds none; the tile it is for is there. -/
structure PathToTile (path t : Nat) (s : State) : Prop where
  boot : s.mgt.boot = 2
  opened : s.pathOpen path = true
  free : s.mgt.pathBusy path = false
  present : s.present t = true

/-- An offset of page k of a tile that is aligned and lies beyond the header and the statistics (R513). -/
structure TileReg (k off : Nat) : Prop where
  page : k < 4
  low : 0x100 ≤ off
  high : off < 4096
  aligned : off % 8 = 0

section
variable {path t k off : Nat} {s : State} (hw : PathToTile path t s) (hr : TileReg k off)
include hw hr

/-- A write of a register of a tile page is taken by the tile at once, or refused as one of a tile in OFF (R507). -/
theorem registerWrite_tile (v : Word) : Machine.exec (.registerWrite path (pgTile t k * 4096 + off) v) s =
    .next (let r := actTile t k off v s
      if r.1 then accRefuse (tileWrite path t k off v) 4 r.2 else accDone (tileWrite path t k off v) 0 0 r.2) := by
  obtain ⟨hb, hopen, hfree, hp⟩ := hw
  obtain ⟨hk, hl, ho, h8⟩ := hr
  have ht := present_lt hp
  have ha : pgTile t k * 4096 + off < 0x10000000 := by unfold pgTile; omega
  have hpg : (pgTile t k * 4096 + off) / 4096 = pgTile t k := by omega
  have hoff : (pgTile t k * 4096 + off) % 4096 = off := by omega
  have htid : pageTid (pgTile t k) = t := by unfold pageTid pgTile; omega
  have hkk : (pgTile t k - 0x8000) % 4 = k := by unfold pgTile; omega
  have h80 : pgTile t k ≥ 0x8000 := by unfold pgTile; omega
  have hal : (pgTile t k * 4096 + off) % 8 = 0 := by omega
  have hcheck : s.accCheck (tileWrite path t k off v) = none := by
    have hkind : (s.pageKind ((pgTile t k * 4096 + off) / 4096)).isNone = false := by
      rw [hpg, ← Option.not_isSome, pageKind_tile hp hk]; rfl
    simp [State.accCheck, tileWrite, hb, hal, hkind, Nat.not_le.mpr ha]
  have hd : ¬ (tileWrite path t k off v).addr ≥ dbgBase := by unfold tileWrite dbgBase; dsimp only; omega
  have hmod : (pgTile t k * 4096 + off) % 2 ^ 48 = pgTile t k * 4096 + off := by omega
  show Host.Outcome.next (writeOn path ((pgTile t k * 4096 + off) % 2 ^ 48) v s) = _
  unfold writeOn
  simp only [hmod, hopen, hfree, Bool.not_true, Bool.false_eq_true, if_false, Bool.not_false, if_true]
  unfold writeWhole
  rw [show ({ path := path, write := true, addr := pgTile t k * 4096 + off, v := v } : Access) = tileWrite path t k off v from rfl]
  simp only [hcheck, if_neg hd, hpg, hoff, if_pos h80, htid, hkk, if_neg (Nat.not_lt.mpr hl)]

omit hw hr in
/-- The state in which a tile that is awake, or in OFF, is written: management has read it anew (R498). -/
theorem actTile_awake (h : (s.tile t).clk.pstate = .active ∨ (s.tile t).clk.pstate = .off) (v : Word) :
    ∃ s1, TileLocal t s s1 ∧ s1.tile t = s.tile t ∧ s1.mgt.debugged = s.mgt.debugged ∧
      actTile t k off v s = writeTile t k off v s1 := by
  have h1 := readFirst_spec (pgTile t 0) 0x100 (s.tctState t) s
  have hl1 := tileLocal_readFirst t (pgTile t 0) 0x100 (s.tctState t) s
  have hd : (readFirst (pgTile t 0) 0x100 (s.tctState t) s).mgt.debugged = s.mgt.debugged := by rw [readFirst_mgt]
  have hx := readFirst_tile (pgTile t 0) 0x100 (s.tctState t) s t
  unfold actTile
  generalize readFirst (pgTile t 0) 0x100 (s.tctState t) s = s1 at hl1 hd hx
  refine ⟨wakeTile t s1, ?_, ?_, ?_, rfl⟩
  · rw [wakeTile_awake (hx ▸ h)]
    exact hl1.trans (tileLocal_onTile ..)
  · rw [wakeTile_awake (hx ▸ h), onTile_tile_same, hx]; rfl
  · rw [wakeTile_awake (hx ▸ h), onTile_mgt, hd]
end

end Sys2Proof.Proofs
end

section
/-! The kinds of register of a tile page (R9, R10, R507). -/

namespace Sys2Proof.Proofs

open Machine

/-! ### Registers of a tile that is off or ACTIVE (R9, R10, R507) -/

/-- Nothing but the management die differs. -/
theorem tileLocal_mgt {t : Nat} {s s' : State} (h : TileLocal t s s') (m : Mgt) : TileLocal t s { s' with mgt := m } :=
  ⟨h.others, h.mem, h.mov, h.cast, h.gx, h.gxMask, h.brd, h.time, h.pending⟩

theorem writeTile_tsp {t off : Nat} {s : State} (hl : 0x100 ≤ off) (hon : (s.tile t).clk.pstate ≠ .off) (v : Word) :
    writeTile t 1 off v s = (false, writeTsp t off v s) := by
  unfold writeTile
  rw [if_neg (Nat.not_lt.mpr hl), if_neg hon]
  rfl

theorem writeTile_ten {t off : Nat} {s : State} (hl : 0x100 ≤ off) (hon : (s.tile t).clk.pstate ≠ .off) (v : Word) :
    writeTile t 3 off v s = (false, writeTen t off v s) := by
  unfold writeTile
  rw [if_neg (Nat.not_lt.mpr hl), if_neg hon]
  rfl

theorem writeTile_off {t off : Nat} {s : State} (hl : 0x100 ≤ off) (hoff : (s.tile t).clk.pstate = .off) (k : Nat) (v : Word) :
    writeTile t k off v s = (true, s) := by
  unfold writeTile
  rw [if_neg (Nat.not_lt.mpr hl), if_pos hoff]

section
variable {path t k off : Nat} {s : State} (hw : PathToTile path t s) (hr : TileReg k off)
include hw hr

/-- An ACTIVE tile takes a write: the tile's page does it, and only the management die has changed besides. -/
theorem registerWrite_active (hact : (s.tile t).clk.pstate = .active) {v : Word} {f : State → State}
    (hf : ∀ s1, (s1.tile t).clk.pstate ≠ .off → writeTile t k off v s1 = (false, f s1)) :
    ∃ s1 m, TileLocal t s s1 ∧ s1.tile t = s.tile t ∧
      Machine.exec (.registerWrite path (pgTile t k * 4096 + off) v) s = .next { f s1 with mgt := m } ∧
      (path = 1 → ((f s1).tile t).cfg.owned = true → m.debugged = true) := by
  obtain ⟨s1, hloc, hx, -, ha⟩ := actTile_awake (k := k) (off := off) (Or.inl hact) v
  have hon : (s1.tile t).clk.pstate ≠ .off := by rw [hx, hact]; decide
  obtain ⟨m, hm, hd, -⟩ := accDone_tileWrite (path := path) (present_lt hw.present) hr.page hr.high v 0 0 (f s1)
  refine ⟨s1, m, hloc, hx, ?_, hd rfl⟩
  rw [registerWrite_tile hw hr, ha, hf s1 hon]
  simp only [Bool.false_eq_true, if_false, hm]

/-- A tile in OFF refuses it (R507 cause 4). -/
theorem registerWrite_off (hoff : (s.tile t).clk.pstate = .off) (v : Word) :
    Completes (.registerWrite path (pgTile t k * 4096 + off) v) s (fun s' => TileLocal t s s' ∧ s'.tile t = s.tile t ∧
      s'.mgt.debugged = s.mgt.debugged ∧ bit (s'.hdr pgMgt).err Err.regAccess.bit = true) := by
  obtain ⟨s1, hloc, hx, hd, ha⟩ := actTile_awake (k := k) (off := off) (Or.inr hoff) v
  have he := registerWrite_tile hw hr v
  rw [ha, writeTile_off hr.low (hx ▸ hoff)] at he
  simp only [if_true, accRefuse] at he
  generalize hs2 : raise pgMgt .regAccess _ none s1 = s2 at he
  have hk2 : Kept s1 s2 := hs2 ▸ raise_kept _ _ _ _ _ rfl
  have hbit : bit (s2.hdr pgMgt).err Err.regAccess.bit = true := hs2 ▸ raise_bit (by decide) ..
  obtain ⟨m, hm, -, hn⟩ := accDone_tileWrite (path := path) (present_lt hw.present) hr.page hr.high v 5 0 s2
  rw [hm] at he
  have hloc2 := hloc.trans (hk2.tileLocal t)
  exact ⟨_, he, tileLocal_mgt hloc2 m, (hk2.tile t).trans hx, by rw [hn (by decide), hk2.mgt, hd], hbit⟩
end

theorem b2n_bit (v : Word) (i : Nat) : b2n (bit v i) = fld v i 1 := by
  unfold b2n bit fld
  split
  · rename_i h; rw [Nat.pow_one, eq_of_beq h]
  · rename_i h
    have : v.toNat / 2 ^ i % 2 ≠ 1 := fun h' => h (beq_iff_eq.mpr h')
    rw [Nat.pow_one]; omega

theorem writeTsp_ctrl (t : Nat) (v : Word) (s : State) : writeTsp t 0x100 v s =
    s.onTile t (fun x => x.setReg 1 0x100 (setFld (x.reg 1 0x100) 18 1 (fld v 18 1))) := by
  rw [← b2n_bit]; rfl

theorem writeTen_flags (t : Nat) (v : Word) (s : State) : writeTen t 0x100 v s = s.onTile t (fun x => x.clearFlags v) := rfl

theorem writeTen_tblIdx (t : Nat) (v : Word) (s : State) : writeTen t 0x130 v s =
    s.onTile t (fun x => x.setReg 3 0x130 (v &&& 0x3FFF)) := rfl

theorem writeTen_tblData (t : Nat) (v : Word) (s : State) : writeTen t 0x138 v s = raise (pgTile t 0) .cfgAccess [] none s := rfl

theorem pgTile_ne_pgNone {t k : Nat} (ht : t < 20 * 256) (hk : k < 4) : pgTile t k ≠ pgNone := by
  unfold pgTile pgNone; omega

/-- Of tile t one live register has been written, and nothing else there (R510). -/
def LiveWritten (t k off : Nat) (w : Word) (s s' : State) : Prop :=
  TileLocal t s s' ∧ s'.tile t = { s.tile t with cfg := { (s.tile t).cfg with live := (s'.tile t).cfg.live } } ∧
  (s'.tile t).reg k off = w ∧ ∀ j o, rkey j o ≠ rkey k off → (s'.tile t).reg j o = (s.tile t).reg j o

theorem liveWritten_of_setReg {t k off : Nat} {w : Word} {s s' : State} (hloc : TileLocal t s s')
    (ht : s'.tile t = (s.tile t).setReg k off w) : LiveWritten t k off w s s' :=
  ⟨hloc, by rw [ht]; rfl, by rw [ht, setReg_reg_same], fun j o h => by rw [ht, setReg_reg_ne _ _ h]⟩

theorem liveWritten_onTile {t k off : Nat} {s s1 : State} (hloc : TileLocal t s s1) (hx : s1.tile t = s.tile t) (m : Mgt)
    (g : Tile → Word) :
    LiveWritten t k off (g (s.tile t)) s { s1.onTile t (fun x => x.setReg k off (g x)) with mgt := m } := by
  have ht : (s1.onTile t (fun x => x.setReg k off (g x))).tile t = (s.tile t).setReg k off (g (s.tile t)) := by
    rw [onTile_tile_same, hx]
  exact liveWritten_of_setReg (tileLocal_mgt (hloc.trans (tileLocal_onTile ..)) m) ht

theorem tileReg_flags : TileReg 3 0x100 := by constructor <;> decide
theorem tileReg_spctrl : TileReg 1 0x100 := by constructor <;> decide
theorem tileReg_tblIdx : TileReg 3 0x130 := by constructor <;> decide
theorem tileReg_tblData : TileReg 3 0x138 := by constructor <;> decide

section
variable {path t : Nat} {s : State} (hw : PathToTile path t s) (hact : (s.tile t).clk.pstate = .active) (v : Word)
include hw hact

/-- The sticky flags are cleared as written, save those of the same tile cycle (R62, R63). -/
theorem write_flags : Completes (.registerWrite path (pgTile t 3 * 4096 + 0x100) v) s (fun s' => TileLocal t s s' ∧
    s'.tile t = (s.tile t).clearFlags v ∧ (path = 1 → (s.tile t).cfg.owned = true → s'.mgt.debugged = true)) := by
  obtain ⟨s1, m, hloc, hx, he, hd⟩ := registerWrite_active hw tileReg_flags hact
    (fun s1 hon => writeTile_ten tileReg_flags.low hon v)
  rw [writeTen_flags] at he hd
  have ht : (s1.onTile t (fun x => x.clearFlags v)).tile t = (s.tile t).clearFlags v := by rw [onTile_tile_same, hx]
  exact ⟨_, he, tileLocal_mgt (hloc.trans (tileLocal_onTile ..)) m, ht, fun h1 hown => hd h1 (by rw [ht]; exact hown)⟩

/-- Of `TSP_SPCTRL` only CONFLICT is written (R40, R64). -/
theorem write_spctrl : Completes (.registerWrite path (pgTile t 1 * 4096 + 0x100) v) s
    (LiveWritten t 1 0x100 (setFld ((s.tile t).reg 1 0x100) 18 1 (fld v 18 1)) s) := by
  obtain ⟨s1, m, hloc, hx, he, -⟩ := registerWrite_active hw tileReg_spctrl hact
    (fun s1 hon => writeTile_tsp tileReg_spctrl.low hon v)
  rw [writeTsp_ctrl] at he
  exact ⟨_, he, liveWritten_onTile hloc hx m _⟩

theorem write_tblIdx : Completes (.registerWrite path (pgTile t 3 * 4096 + 0x130) v) s
    (LiveWritten t 3 0x130 (v &&& 0x3FFF) s) := by
  obtain ⟨s1, m, hloc, hx, he, -⟩ := registerWrite_active hw tileReg_tblIdx hact
    (fun s1 hon => writeTile_ten tileReg_tblIdx.low hon v)
  rw [writeTen_tblIdx] at he
  exact ⟨_, he, liveWritten_onTile hloc hx m (fun _ => v &&& 0x3FFF)⟩

/-- `TEN_TBLDATA` takes no write of management (R59, R510). -/
theorem write_tblData : Completes (.registerWrite path (pgTile t 3 * 4096 + 0x138) v) s (fun s' => TileLocal t s s' ∧
    s'.tile t = s.tile t ∧ bit (s'.hdr (pgTile t 0)).err Err.cfgAccess.bit = true) := by
  obtain ⟨s1, m, hloc, hx, he, -⟩ := registerWrite_active hw tileReg_tblData hact
    (fun s1 hon => writeTile_ten tileReg_tblData.low hon v)
  rw [writeTen_tblData] at he
  have hk := raise_kept (pgTile t 0) .cfgAccess [] none s1 (by decide)
  have hbit : bit ((raise (pgTile t 0) .cfgAccess [] none s1).hdr (pgTile t 0)).err Err.cfgAccess.bit = true :=
    raise_bit (pgTile_ne_pgNone (present_lt hw.present) (by decide)) ..
  exact ⟨_, he, tileLocal_mgt (hloc.trans (hk.tileLocal t)) m, (hk.tile t).trans hx, hbit⟩
end

/-- The kinds of register of a tile page. -/
theorem tileRegisterKinds : TileRegisterKinds := by
  intro path t v x s hb hopen hfree hp hx
  subst hx
  have hw : PathToTile path t s := ⟨hb, hopen, hfree, hp⟩
  refine ⟨fun hact => ⟨write_flags hw hact v, write_spctrl hw hact v, write_tblIdx hw hact v, ?_⟩,
    fun k off hoff hk hl ho h8 => registerWrite_off hw ⟨hk, hl, ho, h8⟩ hoff v⟩
  obtain ⟨s', he, hloc, ht, hbit⟩ := write_tblData hw hact v
  exact ⟨s', he, hloc, by rw [ht], by rw [ht], by rw [ht], hbit⟩

/-- The statement on register paths asks exactly that management's copies always follow the units, which the model leaves
open (R498, log 22): with a stale copy and a full log, a read of the unit's state marks the ERR page's header. -/
theorem registerPaths_iff : Obligations.RegisterPaths ↔ ∀ n, Config.noticed n = true := by
  unfold Obligations.RegisterPaths
  rw [← deviceRegisterKinds_iff]
  exact ⟨fun h => h.2.1, fun h => ⟨pathsReachDevicePages, h, tileRegisterKinds⟩⟩

end Sys2Proof.Proofs
end

section
/-! A run of scratchpad bytes that is written is read back, and every byte beside it stays (R30, R31, R39). -/

namespace Sys2Proof.Proofs

open Machine

/-! ### Numbers as bytes -/

@[simp] theorem length_leBytes : ∀ n v : Nat, (leBytes n v).length = n
  | 0, _ => rfl
  | n + 1, v => congrArg (· + 1) (length_leBytes n (v / 256))

theorem leNat_leBytes : ∀ {n v : Nat}, v < 256 ^ n → leNat (leBytes n v) = v
  | 0, _, h => (Nat.lt_one_iff.mp h).symm
  | n + 1, v, h => by
    have hv : v / 256 < 256 ^ n := Nat.div_lt_of_lt_mul (by rwa [Nat.pow_succ, Nat.mul_comm] at h)
    simp only [leBytes, leNat, leNat_leBytes hv, BitVec.toNat_ofNat]
    omega

/-! ### Reading runs of bytes -/

@[simp] theorem length_rd (x : Tile) : ∀ a n : Nat, (x.rd a n).length = n
  | _, 0 => rfl
  | a, n + 1 => congrArg (· + 1) (length_rd x (a + 1) n)

theorem rd_add (x : Tile) : ∀ a m n : Nat, x.rd a (m + n) = x.rd a m ++ x.rd (a + m) n
  | a, 0, n => by simp [Tile.rd]
  | a, m + 1, n => by
    rw [Nat.add_right_comm]
    simp only [Tile.rd, rd_add x (a + 1) m n, List.cons_append]
    rw [Nat.add_right_comm a 1 m, Nat.add_assoc a m 1]

theorem rd_congr {x y : Tile} : ∀ {a n : Nat}, (∀ b, a ≤ b → b < a + n → y.rd1 b = x.rd1 b) → y.rd a n = x.rd a n
  | _, 0, _ => rfl
  | a, n + 1, h => by
    simp only [Tile.rd]
    rw [h a (Nat.le_refl _) (by omega), rd_congr fun b hab hb => h b (by omega) (by omega)]

theorem rdN_of_sp_cfg {x y : Tile} (hs : y.sp = x.sp) (hc : y.cfg = x.cfg) (a n : Nat) : y.rdN a n = x.rdN a n :=
  congrArg leNat (rd_congr fun b _ _ => by simp only [Tile.rd1, hs, ilv_of_cfg hc])

/-- Two numbers that stand one behind the other are read as they are spelt. -/
theorem rdN_of_rd_append {x : Tile} {a m n : Nat} {bs cs : List Byte} (hb : bs.length = m)
    (h : x.rd a (m + n) = bs ++ cs) : x.rdN a m = leNat bs ∧ x.rdN (a + m) n = leNat cs := by
  rw [rd_add] at h
  obtain ⟨h1, h2⟩ := List.append_inj h (by simp [hb])
  exact ⟨congrArg leNat h1, congrArg leNat h2⟩

/-! ### Lines whose banks are on (R39) -/

theorem linesOn_of_cfg {x y : Tile} (h : y.cfg = x.cfg) (a n : Nat) : y.linesOn a n = x.linesOn a n := by
  simp only [Tile.linesOn, ilv_of_cfg h, bankOn_of_cfg h]

theorem linesOn_iff {x : Tile} {a n : Nat} : x.linesOn a n = true ↔
    n = 0 ∨ (a + n ≤ 2 ^ 20 ∧ ∀ b, a ≤ b → b < a + n → x.bankOn (bankOf x.ilv b) = true) := by
  constructor
  · intro h
    refine (linesOn_spec x a n h).imp id fun ⟨hn, hb⟩ => ⟨hn, fun b hab hbn => ?_⟩
    simpa only [Nat.add_sub_cancel' hab] using hb (b - a) (by omega)
  · intro h
    simp only [Tile.linesOn, Bool.or_eq_true, beq_iff_eq, Bool.and_eq_true, decide_eq_true_eq, List.all_eq_true,
      List.mem_range]
    rcases Nat.eq_zero_or_pos n with h0 | hpos
    · exact .inl h0
    obtain ⟨hn, hb⟩ := h.resolve_left (by omega)
    refine .inr ⟨hn, fun i hi => ?_⟩
    -- a byte of the run that lies in line i: its first one, or the run's own first
    have hl : bankOf x.ilv (max a (a / 64 * 64 + 64 * i)) = bankOf x.ilv (a / 64 * 64 + 64 * i) := by
      rw [bankOf_line, bankOf_line _ (a / 64 * 64 + 64 * i)]
      congr 1
      omega
    rw [← hl]
    exact hb _ (by omega) (by omega)

/-- A part of a run whose lines are on. -/
theorem linesOn_part {x : Tile} {a n b k : Nat} (h : x.linesOn a n = true) (hab : a ≤ b) (hk : b + k ≤ a + n) :
    x.linesOn b k = true := by
  rcases linesOn_iff.mp h with rfl | ⟨hn, hb⟩
  · exact linesOn_iff.mpr (.inl (by omega))
  · exact linesOn_iff.mpr (.inr ⟨by omega, fun c hbc hc => hb c (by omega) (by omega)⟩)

/-! ### Writing runs of bytes -/

theorem wr_rd1_beside {b : Nat} (hb : b < 2 ^ 20) : ∀ {bs : List Byte} {x : Tile} {a : Nat}, a + bs.length ≤ 2 ^ 20 →
    (b < a ∨ a + bs.length ≤ b) → (x.wr a bs).rd1 b = x.rd1 b
  | [], _, _, _, _ => rfl
  | v :: bs, x, a, hl, ho => by
    rw [List.length_cons] at hl ho
    rw [Tile.wr, wr_rd1_beside hb (by omega) (by omega), wr1_ne x a v (by omega) b hb (by omega)]

theorem rd_wr : ∀ {bs : List Byte} {x : Tile} {a : Nat}, x.linesOn a bs.length = true → (x.wr a bs).rd a bs.length = bs
  | [], _, _, _ => rfl
  | v :: bs, x, a, h => by
    obtain h0 | ⟨hn, hon⟩ := linesOn_iff.mp h
    · simp at h0
    rw [List.length_cons] at hn hon h
    have hrest : (x.wr1 a v).linesOn (a + 1) bs.length = true :=
      (linesOn_of_cfg (wr1_cfg x a v) _ _).trans (linesOn_part h (by omega) (by omega))
    have hfirst : ((x.wr1 a v).wr (a + 1) bs).rd1 a = v := by
      rw [wr_rd1_beside (by omega) (by omega) (by omega), wr1_same x a v (hon a (Nat.le_refl _) (by omega))]
    simp only [List.length_cons, Tile.rd, Tile.wr]
    rw [hfirst, rd_wr hrest]

theorem scratchpadReadAfterWrite : ScratchpadReadAfterWrite := by
  intro x a bs h
  refine ⟨rd_wr h, fun b hb ho => ?_⟩
  obtain h0 | ⟨hn, -⟩ := linesOn_iff.mp h
  · rw [List.eq_nil_of_length_eq_zero h0]; rfl
  · exact wr_rd1_beside hb hn ho

end Sys2Proof.Proofs
end

section
/-! The matrix engine's combine and its drains (O7): what each writes of the tile, and that the rest stays. -/

namespace Sys2Proof.Proofs

open Machine

/-- A command of a present tile completes in the state that its function gives. -/
theorem completes_atTile {c : Instr} {t : Nat} {f : State → State} {s : State} {P : State → Prop}
    (hc : Machine.exec c s = s.atTile t f) (hp : s.present t = true) (h : P (f s)) : Completes c s P :=
  ⟨f s, by rw [hc, State.atTile, if_pos hp], h⟩

/-- What each step of a loop keeps, the loop keeps. -/
theorem foldl_keeps {α β : Type} {R : α → α → Prop} (refl : ∀ x, R x x)
    (trans : ∀ {x y z}, R x y → R y z → R x z) {f : α → β → α} (hf : ∀ x b, R x (f x b)) (l : List β) (x : α) :
    R x (l.foldl f x) :=
  List.foldlRecOn l f (refl x) fun y hy b _ => trans hy (hf y b)

/-! ### Parts of a tile that an update writes -/

/-- Two tiles that differ in accumulators at most. -/
def OnlyAcc (x y : Tile) : Prop := ∃ a, y = { x with mtx := { x.mtx with acc := a } }

/-- Two tiles that differ in scratchpad bytes at most. -/
def OnlySp (x y : Tile) : Prop := ∃ m, y = { x with sp := m }

/-- Two tiles that differ at most in what an engine's output writes: bytes, flags and the random generators. -/
def OnlyOutput (x y : Tile) : Prop :=
  ∃ m g f c n, y = { x with sp := m, gens := g, flags := f, flagCyc := c, flagNew := n }

theorem OnlyAcc.refl (x : Tile) : OnlyAcc x x := ⟨_, rfl⟩

theorem OnlyAcc.trans {x y z : Tile} : OnlyAcc x y → OnlyAcc y z → OnlyAcc x z := by
  rintro ⟨_, rfl⟩ ⟨b, rfl⟩
  exact ⟨b, rfl⟩

theorem OnlySp.refl (x : Tile) : OnlySp x x := ⟨_, rfl⟩

theorem OnlySp.trans {x y z : Tile} : OnlySp x y → OnlySp y z → OnlySp x z := by
  rintro ⟨_, rfl⟩ ⟨m, rfl⟩
  exact ⟨m, rfl⟩

theorem OnlySp.mtx {x y : Tile} : OnlySp x y → y.mtx = x.mtx := by rintro ⟨_, rfl⟩; rfl
theorem OnlySp.cfg {x y : Tile} : OnlySp x y → y.cfg = x.cfg := by rintro ⟨_, rfl⟩; rfl
theorem OnlySp.nests {x y : Tile} : OnlySp x y → y.nests = x.nests := by rintro ⟨_, rfl⟩; rfl
theorem OnlySp.flags {x y : Tile} : OnlySp x y → y.flags = x.flags := by rintro ⟨_, rfl⟩; rfl

theorem OnlySp.output {x y : Tile} : OnlySp x y → OnlyOutput x y := by
  rintro ⟨_, rfl⟩
  exact ⟨_, _, _, _, _, rfl⟩

theorem OnlyOutput.refl (x : Tile) : OnlyOutput x x := (OnlySp.refl x).output

theorem OnlyOutput.trans {x y z : Tile} : OnlyOutput x y → OnlyOutput y z → OnlyOutput x z := by
  rintro ⟨_, _, _, _, _, rfl⟩ ⟨m, g, f, c, n, rfl⟩
  exact ⟨m, g, f, c, n, rfl⟩

theorem OnlyOutput.mtx {x y : Tile} : OnlyOutput x y → y.mtx = x.mtx := by rintro ⟨_, _, _, _, _, rfl⟩; rfl
theorem OnlyOutput.nests {x y : Tile} : OnlyOutput x y → y.nests = x.nests := by rintro ⟨_, _, _, _, _, rfl⟩; rfl

/-! ### The combine -/

theorem setAccum_onlyAcc (x : Tile) (i w tag : Nat) : OnlyAcc x (x.setAccum i w tag) := ⟨_, rfl⟩

theorem combineAt_onlyAcc (x : Tile) (d : MDesc) (slot e : Nat) (fresh : Bool) (v : Val) (tg : Tag) :
    OnlyAcc x (x.combineAt d slot e fresh v tg) := by
  unfold Tile.combineAt
  dsimp only
  split
  · exact setAccum_onlyAcc ..
  · exact setAccum_onlyAcc ..
  · exact (setAccum_onlyAcc ..).trans (setAccum_onlyAcc ..)
  · exact setAccum_onlyAcc ..

/-- Slot records that are updated: each slot of the list holds an updated record, and nothing else of the tile changes. -/
theorem onSlots_eq {f : AccSlot → AccSlot} {P : AccSlot → Prop} (hf : ∀ z, P (f z)) (us : List Nat) (x : Tile) :
    ∃ m, x.onSlots us f = { x with mtx := { x.mtx with slots := m } } ∧ ∀ u, u ∈ us ∨ P (x.slot u) → P (m.get u {}) := by
  induction us generalizing x with
  | nil => exact ⟨_, rfl, fun u hu => hu.resolve_left List.not_mem_nil⟩
  | cons v us ih =>
    obtain ⟨m, hm, hP⟩ := ih { x with mtx := { x.mtx with slots := x.mtx.slots.upd v {} f } }
    refine ⟨m, hm, fun u hu => hP u ?_⟩
    by_cases huv : u = v
    · subst huv
      exact .inr (by simpa [Tile.slot] using hf _)
    · simpa [Tile.slot, SMap.get_upd_ne, huv] using hu

@[simp] theorem accEcc_nil (t : Nat) (q : MtxStep) (s : State) : accEcc t q [] s = ([], s) := rfl

/-- The row's step applies ACC_IN = 0, or starts a split pass: its slot starts from fresh words (R125, R128). -/
def rowFresh (r : RowBlk) : Bool := r.step.first && (r.step.d.accIn == 0 || r.step.d.mode == 2)

/-- The row's block values enter the words of its slot. -/
def combineRow (r : RowBlk) (x : Tile) : Tile :=
  r.vals.zipIdx.foldl (fun x q => x.combineAt r.step.d r.step.slot (r.row * 32 + q.2) (rowFresh r) q.1.1 q.1.2) x

/-- The slot's record once the row has entered it (R120). -/
def rowSlot (r : RowBlk) (z : AccSlot) : AccSlot :=
  { z with valid := true, mode := r.step.d.accMode,
           kstep := satTo 0xFFFF ((if rowFresh r && r.row == 0 then 0 else z.kstep) + b2n r.fin) }

/-- The tile once the combine has taken row r, with the rows `rest` behind it (R96, R123, R129). -/
def rowTaken (r : RowBlk) (rest : List RowBlk) (x : Tile) : Tile :=
  let y := (combineRow r x).onSlots (slotCover r.step.d.mode r.step.slot) (rowSlot r)
  { y with fired := true,
           mtx := { y.mtx with rows := rest, drains := if r.fin && r.step.last then y.mtx.drains ++ [r.step] else y.mtx.drains } }

theorem blockCombine_row {t : Nat} {r : RowBlk} {rest : List RowBlk} {s : State} (hrun : s.unitRuns t .mtx = true)
    (hr : (s.tile t).mtx.rows = r :: rest) (hd : (s.tile t).mtx.drainPending r.step = false) :
    blockCombine t [] s =
      if r.fin && !r.step.last then fireDone t r.step.plane r.step.nest (s.onTile t (rowTaken r rest))
      else s.onTile t (rowTaken r rest) := by
  simp only [blockCombine, hr, hrun, hd, ite_self, accEcc_nil, List.contains_nil, Bool.not_true, Bool.or_self,
    Bool.false_eq_true, if_false]
  rfl

theorem combineRow_onlyAcc (r : RowBlk) (x : Tile) : OnlyAcc x (combineRow r x) :=
  foldl_keeps OnlyAcc.refl OnlyAcc.trans (fun _ _ => combineAt_onlyAcc ..) _ x

/-- What the taken row writes: accumulators, its slots' records, the rows and the drains, and that the engine has fired. -/
theorem rowTaken_eq (r : RowBlk) (rest : List RowBlk) (x : Tile) :
    ∃ m, rowTaken r rest x =
        { x with fired := true,
                 mtx := { x.mtx with acc := (combineRow r x).mtx.acc, slots := m, rows := rest,
                                     drains := x.mtx.drains ++ if r.fin && r.step.last then [r.step] else [] } } ∧
      ∀ u ∈ slotCover r.step.d.mode r.step.slot, (m.get u {}).valid = true ∧ (m.get u {}).mode = r.step.d.accMode := by
  obtain ⟨a, ha⟩ := combineRow_onlyAcc r x
  obtain ⟨m, hm, hP⟩ := onSlots_eq (f := rowSlot r) (P := fun z => z.valid = true ∧ z.mode = r.step.d.accMode)
    (fun _ => ⟨rfl, rfl⟩) (slotCover r.step.d.mode r.step.slot) (combineRow r x)
  refine ⟨m, ?_, fun u hu => hP u (.inl hu)⟩
  rw [rowTaken, hm, ha]
  split <;> simp

/-! ### The end of a firing -/

theorem fireDone_onlyTile (t p n : Nat) (s : State) : OnlyTile t s (fireDone t p n s) := onlyTile_onTile ..

theorem fireDone_tile (t p n : Nat) (s : State) : (fireDone t p n s).tile t =
    (s.tile t).setNest p n { (s.tile t).nest p n with out := ((s.tile t).nest p n).out - 1 } :=
  onTile_tile_same ..

theorem combineTakesARowOfBlocks : CombineTakesARowOfBlocks := by
  intro t r rest s hp hrun hr hd
  refine completes_atTile rfl hp ?_
  have hs : OnlyTile t s (s.onTile t (rowTaken r rest)) := onlyTile_onTile ..
  -- whether the step's firing ends here or not, the tile is the one with the row taken, up to its nests
  obtain ⟨ho, k, hk⟩ : OnlyTile t s (blockCombine t [] s) ∧
      ∃ k, (blockCombine t [] s).tile t = { rowTaken r rest (s.tile t) with nests := k } := by
    rw [blockCombine_row hrun hr hd]
    split
    · exact ⟨hs.trans (fireDone_onlyTile ..), _, by rw [fireDone_tile, onTile_tile_same]; rfl⟩
    · exact ⟨hs, _, onTile_tile_same ..⟩
  obtain ⟨m, he, hm⟩ := rowTaken_eq r rest (s.tile t)
  rw [hk, he]
  exact ⟨ho, rfl, rfl, hm, rfl, rfl, rfl⟩

/-! ### Output elements -/

theorem wr1_onlySp (x : Tile) (a : Nat) (b : Byte) : OnlySp x (x.wr1 a b) := by
  unfold Tile.wr1
  split
  · exact ⟨_, rfl⟩
  · exact OnlySp.refl x

theorem wr_onlySp : ∀ (bs : List Byte) (x : Tile) (a : Nat), OnlySp x (x.wr a bs)
  | [], x, _ => OnlySp.refl x
  | b :: bs, x, a => (wr1_onlySp x a b).trans (wr_onlySp bs ..)

theorem wrSkew_onlySp (x : Tile) (w T r c v : Nat) : OnlySp x (x.wrSkew w T r c v) := by
  unfold Tile.wrSkew Tile.wrElem
  dsimp only
  split
  · exact wr1_onlySp ..
  all_goals exact wr_onlySp ..

theorem setFlags_onlyOutput (x : Tile) (g : Group) (fl : Flags) : OnlyOutput x (x.setFlags g fl) :=
  ⟨_, _, _, _, _, rfl⟩

theorem writeOut_onlyOutput (x : Tile) (tab : Nat → FmtTable) (g : Group) (f : Fmt) (r : Rnd) (sat : Bool) (T i j : Nat)
    (v : Val) (fl : Flags) : OnlyOutput x (x.writeOut tab g f r sat T i j v fl) := by
  unfold Tile.writeOut
  split
  · exact ((wrSkew_onlySp ..).trans (wrSkew_onlySp ..)).output.trans (setFlags_onlyOutput ..)
  · exact ((wrSkew_onlySp ..).trans (wrSkew_onlySp ..)).output.trans (setFlags_onlyOutput ..)
  · exact (wrSkew_onlySp ..).output.trans (setFlags_onlyOutput ..)

theorem rowDraws_onlyOutput (x : Tile) (g : Group) (on : Bool) : OnlyOutput x (x.rowDraws g on).2 := by
  unfold Tile.rowDraws
  dsimp only
  split
  · exact ⟨_, _, _, _, _, rfl⟩
  · exact OnlyOutput.refl x

/-- A write of the elements of a row that are not marked bad. -/
theorem unlessBad_onlyOutput {x y : Tile} (bad : List Nat) (e : Nat) (h : OnlyOutput x y) :
    OnlyOutput x (if bad.contains e then x else y) := by
  split
  · exact OnlyOutput.refl x
  · exact h

theorem drainRow_onlyOutput (x : Tile) (tab : Nat → FmtTable) (q : MtxStep) (f : Fmt) (bad : List Nat) (i : Nat) :
    OnlyOutput x (x.drainRow tab q f bad i) := by
  unfold Tile.drainRow
  dsimp only
  split
  · have hdraws := rowDraws_onlyOutput x .mtx (q.d.round == 1)
    refine hdraws.trans (OnlyOutput.trans ?_ ((wr_onlySp ..).output.trans (setFlags_onlyOutput ..)))
    exact foldl_keeps OnlyOutput.refl OnlyOutput.trans (fun _ _ => unlessBad_onlyOutput _ _ (wrSkew_onlySp ..).output) _ _
  · have hdraws := rowDraws_onlyOutput x .mtx (q.d.round == 1 && f.drawn)
    refine hdraws.trans ?_
    exact foldl_keeps OnlyOutput.refl OnlyOutput.trans (fun _ _ => unlessBad_onlyOutput _ _ (writeOut_onlyOutput ..)) _ _

/-! ### The drains -/

/-- A drain of step q has left the engine, its output standing in tile y: the drains `ds` remain, and one firing of the
step's nest is no longer outstanding. -/
structure Drained (t : Nat) (q : MtxStep) (ds : List MtxStep) (y : Tile) (s s' : State) : Prop where
  only : OnlyTile t s s'
  drains : (s'.tile t).mtx.drains = ds
  sp : (s'.tile t).sp = y.sp
  cfg : (s'.tile t).cfg = y.cfg
  flags : (s'.tile t).flags = y.flags
  out : ((s'.tile t).nest q.plane q.nest).out = ((s.tile t).nest q.plane q.nest).out - 1
  acc : (s'.tile t).mtx.acc = (s.tile t).mtx.acc

theorem drainDone_drained {t : Nat} {q : MtxStep} {ds : List MtxStep} {f : Tile → Tile} {s : State}
    (hd : (s.tile t).mtx.drains = q :: ds) (hm : (f (s.tile t)).mtx = (s.tile t).mtx)
    (hn : (f (s.tile t)).nests = (s.tile t).nests) :
    Drained t q ds (f (s.tile t)) s (drainDone t q (s.onTile t f)) := by
  have ht : (drainDone t q (s.onTile t f)).tile t = _ := fireDone_tile ..
  rw [onTile_tile_same, onTile_tile_same] at ht
  refine ⟨((onlyTile_onTile t f s).onTile _).trans (fireDone_onlyTile ..), ?_, ?_, ?_, ?_, ?_, ?_⟩ <;> rw [ht]
  · simp [Tile.setNest, hm, hd]
  · rfl
  · rfl
  · rfl
  · simp [Tile.setNest, Tile.nest, hn]
  · simp [Tile.setNest, hm]

/-- Ranges whose lines are all on are touched without an error (R39). -/
theorem touchAll_on {t n : Nat} {u : TUnit} {s : State} : ∀ {rs : List (Nat × Nat)},
    (∀ r ∈ rs, (s.tile t).linesOn r.1 r.2 = true) → touchAll t u n rs s = (true, s)
  | [], _ => rfl
  | (a, len) :: rs, h => by
    rw [touchAll, if_pos (h (a, len) List.mem_cons_self), touchAll_on fun r hr => h r (List.mem_cons_of_mem _ hr)]

/-- The rows of step q in output format f with the tables `tab`, from the accumulators of its slot. -/
def drainRows (tab : Nat → FmtTable) (q : MtxStep) (f : Fmt) (x : Tile) : Tile :=
  (List.range q.d.m).foldl (fun x i => x.drainRow tab q f [] i) x

theorem drainRows_onlyOutput (tab : Nat → FmtTable) (q : MtxStep) (f : Fmt) (x : Tile) : OnlyOutput x (drainRows tab q f x) :=
  foldl_keeps OnlyOutput.refl OnlyOutput.trans (fun _ _ => drainRow_onlyOutput ..) _ x

theorem mmaDrain_drained {t : Nat} {q : MtxStep} {ds : List MtxStep} {f : Fmt} {s : State}
    (hrun : s.unitRuns t .mtx = true) (hd : (s.tile t).mtx.drains = q :: ds) (ho : q.d.stateOut = false)
    (hf : Fmt.ofCode q.d.fc = some f) (hl : (s.tile t).linesOn q.addrC (outBytes q.d.fc) = true)
    (hx : q.d.mxc = true → (s.tile t).linesOn (q.d.sc * 64 + q.addrC / 32) 32 = true) :
    Drained t q ds (drainRows ((s.tile t).tabFor f) q f (s.tile t)) s (mmaDrain t [] s) := by
  have htouch : touchAll t .mtx q.nest ((q.addrC, outBytes q.d.fc) ::
      (if q.d.mxc then [(q.d.sc * 64 + q.addrC / 32, 32)] else [])) s = (true, s) := by
    refine touchAll_on fun r hr => ?_
    rcases List.mem_cons.mp hr with rfl | hr
    · exact hl
    · cases hmx : q.d.mxc with
      | false => simp [hmx] at hr
      | true => obtain rfl : r = _ := by simpa [hmx] using hr
                exact hx hmx
  have he : mmaDrain t [] s = drainDone t q (s.onTile t (drainRows ((s.tile t).tabFor f) q f)) := by
    simp only [mmaDrain, hd, hf, ho, hrun, htouch, accEcc_nil, Bool.not_true, Bool.or_self, Bool.false_eq_true, if_false]
    rfl
  rw [he]
  exact drainDone_drained hd (drainRows_onlyOutput ..).mtx (drainRows_onlyOutput ..).nests

/-! ### State records (R122) -/

theorem record_of_mtx {x y : Tile} (h : y.mtx = x.mtx) (d : MDesc) (slot e : Nat) :
    y.record d slot e = x.record d slot e := by
  simp only [Tile.record, Tile.accum, h]

/-- Both words of a record fit into 64 bits. -/
theorem record_lt (x : Tile) (d : MDesc) (slot e : Nat) :
    (x.record d slot e).1 < 256 ^ 8 ∧ (x.record d slot e).2 < 256 ^ 8 := by
  unfold Tile.record
  dsimp only
  constructor <;> repeat' split
  all_goals omega

/-- The bytes of an element's record: its two words, little-endian. -/
def recordBytes (x : Tile) (d : MDesc) (slot e : Nat) : List Byte :=
  leBytes 8 (x.record d slot e).1 ++ leBytes 8 (x.record d slot e).2

@[simp] theorem length_recordBytes (x : Tile) (d : MDesc) (slot e : Nat) : (recordBytes x d slot e).length = 16 := by
  simp [recordBytes]

/-- The records of elements 0 to n − 1, written at 16 bytes an element. -/
def putRecords (d : MDesc) (slot a n : Nat) (x : Tile) : Tile :=
  (List.range n).foldl (fun y e => y.wr (a + 16 * e) (recordBytes y d slot e)) x

theorem putRecords_onlySp (d : MDesc) (slot a n : Nat) (x : Tile) : OnlySp x (putRecords d slot a n x) :=
  foldl_keeps OnlySp.refl OnlySp.trans (fun _ _ => wr_onlySp ..) _ x

theorem putRecords_succ (d : MDesc) (slot a n : Nat) (x : Tile) : putRecords d slot a (n + 1) x =
    (putRecords d slot a n x).wr (a + 16 * n) (recordBytes x d slot n) := by
  have hr : recordBytes (putRecords d slot a n x) d slot n = recordBytes x d slot n := by
    simp only [recordBytes, record_of_mtx (putRecords_onlySp d slot a n x).mtx]
  rw [← hr]
  simp only [putRecords, List.range_succ, List.foldl_append, List.foldl_cons, List.foldl_nil]

/-- Every record that has been written is read back: the later ones lie behind it. -/
theorem putRecords_rd (d : MDesc) (slot a : Nat) (x : Tile) {n : Nat} (hl : x.linesOn a (16 * n) = true) :
    ∀ e, e < n → (putRecords d slot a n x).rd (a + 16 * e) 16 = recordBytes x d slot e := by
  induction n with
  | zero => intro e he; omega
  | succ n ih =>
    intro e he
    have hc := (putRecords_onlySp d slot a n x).cfg
    have hon : (putRecords d slot a n x).linesOn (a + 16 * n) (recordBytes x d slot n).length = true := by
      rw [linesOn_of_cfg hc, length_recordBytes]
      exact linesOn_part hl (by omega) (by omega)
    obtain ⟨hnew, hold⟩ := scratchpadReadAfterWrite _ _ _ hon
    rw [length_recordBytes] at hnew hold
    rw [putRecords_succ]
    obtain rfl | hen : e = n ∨ e < n := by omega
    · exact hnew
    · obtain h0 | ⟨hend, -⟩ := linesOn_iff.mp hl
      · omega
      · rw [rd_congr fun b _ _ => hold b (by omega) (by omega)]
        exact ih (linesOn_part hl (Nat.le_refl _) (by omega)) e hen

theorem stateRecordDrain_drained {t : Nat} {q : MtxStep} {ds : List MtxStep} {s : State}
    (hrun : s.unitRuns t .mtx = true) (hd : (s.tile t).mtx.drains = q :: ds) (ho : q.d.stateOut = true)
    (hl : (s.tile t).linesOn q.addrC (512 * q.d.m) = true) :
    Drained t q ds (putRecords q.d q.slot q.addrC (32 * q.d.m) (s.tile t)) s (stateRecordDrain t [] s) := by
  have htouch : touchAll t .mtx q.nest [(q.addrC, 512 * q.d.m)] s = (true, s) := touchAll_on (by simpa using hl)
  have he : stateRecordDrain t [] s =
      drainDone t q (s.onTile t (putRecords q.d q.slot q.addrC (32 * q.d.m))) := by
    simp only [stateRecordDrain, hd, ho, hrun, htouch, accEcc_nil, List.contains_nil, Bool.not_true, Bool.or_self,
      Bool.false_eq_true, if_false]
    rfl
  rw [he]
  have hsp := putRecords_onlySp q.d q.slot q.addrC (32 * q.d.m) (s.tile t)
  exact drainDone_drained hd hsp.mtx hsp.nests

theorem drainsWriteTheOutput : DrainsWriteTheOutput := by
  intro t q ds s hp hrun hd
  constructor
  · intro f ho hf hl hx
    have h := mmaDrain_drained hrun hd ho hf hl hx
    exact completes_atTile rfl hp ⟨h.only, h.drains, h.sp, h.out, h.acc⟩
  · intro ho hl
    have h := stateRecordDrain_drained hrun hd ho hl
    have hsp := putRecords_onlySp q.d q.slot q.addrC (32 * q.d.m) (s.tile t)
    refine completes_atTile rfl hp ⟨h.only, h.drains, fun e he => ?_, h.out, h.acc, h.flags.trans hsp.flags⟩
    have hrd := putRecords_rd q.d q.slot q.addrC (s.tile t) (n := 32 * q.d.m) (by rwa [← Nat.mul_assoc]) e he
    obtain ⟨h1, h2⟩ := rdN_of_rd_append (m := 8) (n := 8) (length_leBytes ..) hrd
    obtain ⟨b1, b2⟩ := record_lt (s.tile t) q.d q.slot e
    rw [rdN_of_sp_cfg h.sp h.cfg, rdN_of_sp_cfg h.sp h.cfg, h1, h2]
    exact ⟨leNat_leBytes b1, leNat_leBytes b2⟩

/-- Settles O7: the combine writes accumulators, slot records and queues alone, a drain only output bytes and flags, and
the records of a state-record drain lie side by side, so each is read back. -/
theorem matrixRowsCombineAndDrain : Obligations.MatrixRowsCombineAndDrain :=
  ⟨combineTakesARowOfBlocks, drainsWriteTheOutput⟩

end Sys2Proof.Proofs
end

section
/-! A nest goes on after its firing has begun (R251, R252, R257): it settles by the tile's configuration alone, and what its
faults write of the tile. -/

namespace Sys2Proof.Proofs

open Machine

/-! ### A nest goes on by its configuration alone (R251, R252, R257) -/

section
variable {x y : Tile} (h : y.cfg = x.cfg)
include h

theorem nword_of_cfg : y.nword = x.nword := by
  funext p n w
  simp only [Tile.nword, Tile.cword, h]

theorem nctl_of_cfg : y.nctl = x.nctl := by
  funext p n
  simp only [Tile.nctl, nword_of_cfg h]

theorem lvl0_of_cfg : y.lvl0 = x.lvl0 := by
  funext p n j
  simp only [Tile.lvl0, nword_of_cfg h]

theorem levelAt_of_cfg : y.levelAt = x.levelAt := by
  funext p n pos
  simp only [Tile.levelAt, nctl_of_cfg h, lvl0_of_cfg h]

theorem pointBusy_of_cfg : y.pointBusy = x.pointBusy := by
  funext p n lvl point
  unfold Tile.pointBusy Tile.pointActs Tile.pointOps Tile.act0 Tile.nbind
  rw [nword_of_cfg h]

theorem voidBody_of_cfg (p n : Nat) (k : Nest) : ∀ pos, y.voidBody p n k pos = x.voidBody p n k pos
  | 0 => rfl
  | pos + 1 => by
    simp only [Tile.voidBody, levelAt_of_cfg h, lvl0_of_cfg h, pointBusy_of_cfg h, voidBody_of_cfg p n k pos]

theorem settle1_of_cfg (p n : Nat) (k : Nest) : y.settle1 p n k = x.settle1 p n k := by
  simp only [Tile.settle1, Tile.beginRange, Tile.stopItems, Tile.ascend, Tile.descend, nctl_of_cfg h, lvl0_of_cfg h,
    levelAt_of_cfg h, pointBusy_of_cfg h, voidBody_of_cfg h]

theorem settle_of_cfg (p n : Nat) : ∀ (fuel : Nat) (k : Nest), y.settle p n fuel k = x.settle p n fuel k
  | 0, _ => rfl
  | fuel + 1, k => by
    simp only [Tile.settle, settle1_of_cfg h, settle_of_cfg p n fuel]
end

/-! ### Faults of a nest and its stored state -/

/-- Two tiles that differ in the nest fault record and the stopped units at most. -/
def OnlyFault (x y : Tile) : Prop := ∃ f u, y = { x with fault := f, stopped := u }

theorem OnlyFault.refl (x : Tile) : OnlyFault x x := ⟨_, _, rfl⟩

theorem OnlyFault.trans {x y z : Tile} : OnlyFault x y → OnlyFault y z → OnlyFault x z := by
  rintro ⟨_, _, rfl⟩ ⟨f, u, rfl⟩
  exact ⟨f, u, rfl⟩

theorem noteFault_onlyFault (t p n cause opnd : Nat) (k : Nest) (s : State) :
    OnlyFault (s.tile t) ((noteFault t p n cause opnd k s).tile t) := by
  simp only [noteFault, onTile_tile_same]
  split
  · exact OnlyFault.refl _
  · exact ⟨_, _, rfl⟩

/-- An error of the tile's own units stops a unit at most (R352). -/
theorem raiseT_onlyFault {e : Err} (he : e.mild = true) (t : Nat) (items : List (Nat × Nat)) (u : Option TUnit)
    (s : State) : OnlyFault (s.tile t) ((raiseT t e items u s).tile t) := by
  unfold raiseT
  dsimp only
  rw [(raise_kept _ _ _ _ _ he).tile]
  split
  · rw [onTile_tile_same]
    split
    · exact OnlyFault.refl _
    · exact ⟨_, _, rfl⟩
  · exact OnlyFault.refl _

theorem nestRaise_onlyFault {e : Err} (he : e.mild = true) (t p n cause opnd : Nat) (k : Nest) (s : State) :
    OnlyFault (s.tile t) ((nestRaise t p n e cause opnd k s).tile t) :=
  (noteFault_onlyFault ..).trans (raiseT_onlyFault he ..)

theorem nestRaise_tileLocal {e : Err} (he : e.mild = true) (t p n cause opnd : Nat) (k : Nest) (s : State) :
    TileLocal t s (nestRaise t p n e cause opnd k s) :=
  (tileLocal_onTile ..).trans (raiseT_tileLocal _ _ _ _ _ he)

/-- A nest that runs is stored as it has settled; the claim result that its next level may lack is an error beside that
(R252). -/
theorem putNest_settled {t n : Nat} {s : State} (hrun : s.unitRuns t (.nest n) = true) (p : Nat) (k : Nest) :
    TileLocal t s (putNest t p n k s) ∧
    OnlyFault ((s.tile t).setNest p n ((s.tile t).settle p n settleFuel k).1) ((putNest t p n k s).tile t) := by
  simp only [putNest, hrun, Bool.not_true, Bool.false_eq_true, if_false]
  have hs := tileLocal_onTile t (fun x => x.setNest p n ((s.tile t).settle p n settleFuel k).1) s
  have hx : _ = (s.tile t).setNest p n ((s.tile t).settle p n settleFuel k).1 := onTile_tile_same s t fun x => x.setNest p n _
  rw [← hx]
  split
  · exact ⟨hs.trans (nestRaise_tileLocal (by decide) ..), nestRaise_onlyFault (by decide) ..⟩
  · exact ⟨hs, OnlyFault.refl _⟩

/-! ### A firing begins -/

/-- The nest once its firing has begun: one more outstanding, before the end of its innermost iteration (R257). -/
def firedNest (x : Tile) (n : Nat) (k : Nest) : Nest :=
  { k with out := k.out + 1, todo := .endPt (x.levelAt x.cfg.plane n 0) :: .advance 0 :: k.todo.tail }

/-- Nest n of tile t has fired where `f` is how its engine takes the firing: the nest has gone on from `firedNest`, and
beside the nests, a nest's fault and the stopped units the tile is what `f` has made of it. -/
structure Fires (t n : Nat) (k : Nest) (f : Tile → Tile) (s s' : State) : Prop where
  local_ : TileLocal t s s'
  nest : NestGoesOn t n (firedNest (s.tile t) n k) s s'
  tile : ∃ m g u, s'.tile t = { f (s.tile t) with fired := true, nests := m, fault := g, stopped := u }

/-- A nest that stands before a firing runs (R352). -/
theorem unitRuns_of_readyFire {t n e : Nat} {u : TUnit} {k : Nest} {s : State} (h : s.readyFire t n e u = some k) :
    s.unitRuns t (.nest n) = true := by
  unfold State.readyFire State.liveNest at h
  dsimp only at h
  cases hrun : s.unitRuns t (.nest n) with
  | true => rfl
  | false => simp only [hrun, Bool.and_false, Bool.false_and, Bool.false_eq_true, if_false, reduceCtorEq] at h

/-- An engine that takes a firing leaves the tile's configuration, clock and stopped units, so the nest runs and goes on as
it stood. -/
theorem nestFired_fires {t n : Nat} {k : Nest} {f : Tile → Tile} {s : State} (hrun : s.unitRuns t (.nest n) = true)
    (hcfg : (f (s.tile t)).cfg = (s.tile t).cfg) (hclk : (f (s.tile t)).clk = (s.tile t).clk)
    (hst : (f (s.tile t)).stopped = (s.tile t).stopped) : Fires t n k f s (nestFired t n k (s.onTile t f)) := by
  have hrun' : ((s.onTile t f).onTile t (fun x => { x with fired := true })).unitRuns t (.nest n) = true := by
    simpa [State.unitRuns, Tile.runs, hcfg, hclk, hst] using hrun
  have hk : nestFired t n k (s.onTile t f) = putNest t (s.tile t).cfg.plane n (firedNest (s.tile t) n k)
      ((s.onTile t f).onTile t (fun x => { x with fired := true })) := by
    simp only [nestFired, firedNest, onTile_tile_same, hcfg, levelAt_of_cfg hcfg]
  obtain ⟨hloc, g, u, ht⟩ := putNest_settled hrun' (s.tile t).cfg.plane (firedNest (s.tile t) n k)
  rw [onTile_tile_same, onTile_tile_same] at ht
  have hs := settle_of_cfg (x := s.tile t) (y := { f (s.tile t) with fired := true }) hcfg (s.tile t).cfg.plane n
    settleFuel (firedNest (s.tile t) n k)
  rw [hk]
  refine ⟨((tileLocal_onTile t f s).trans (tileLocal_onTile ..)).trans hloc, ?_, _, g, u, ht⟩
  simp [NestGoesOn, ht, Tile.nest, Tile.setNest, hs]

end Sys2Proof.Proofs
end

section
/-! The matrix engine's issue, operand read and array step (O6): MMA issues one step and its nest goes on; a step's
operands are read and multiplied in the order of the steps. -/

namespace Sys2Proof.Proofs

open Machine

/-! ### MMA (R103, R253) -/

/-- The step that nest n issues from its descriptor: its operands stand at a, b and c. -/
def stepToIssue (t n : Nat) (k : Nest) (d : MDesc) (a b c : Nat) (s : State) : MtxStep :=
  let x := s.tile t
  let i := (x.nctl x.cfg.plane n).desc % 16
  { w0 := x.mdesc x.cfg.plane i 0, w1 := x.mdesc x.cfg.plane i 1, desc := i, nest := n, plane := x.cfg.plane,
    addrA := a, addrB := b, addrC := c, slot := x.opSlot x.cfg.plane n k, first := mmaFirst t n k d s,
    last := x.accLast x.cfg.plane n d k, pass := if d.mode = 2 then k.ix d.passLvl else 0 }

/-- A slot that step q of its nest has taken: open at the operation's C address until the last step (R253). -/
def slotTaken (q : MtxStep) (place : Option Int) (z : AccSlot) : AccSlot :=
  { z with opened := !q.last, addrC := if q.last then 0 else place.getD 0,
           nest := if q.last then 0 else nkey q.plane q.nest + 1 }

/-- The tile once the engine has taken step q of descriptor d from its nest k. -/
def stepTaken (d : MDesc) (q : MtxStep) (k : Nest) (x : Tile) : Tile :=
  let y := x.onSlots (slotCover d.mode q.slot) (slotTaken q (x.opPlace q.plane q.nest 2 k))
  { y with mtx := { y.mtx with issued := [q], desc := q.desc, slot := q.slot, pass := q.pass, mode := d.mode } }

/-- The engine takes a step by its queue, its slots and what its status shows: the accumulators stay. -/
theorem stepTaken_eq (d : MDesc) (q : MtxStep) (k : Nest) (x : Tile) : ∃ m, stepTaken d q k x =
    { x with mtx := { x.mtx with slots := m, issued := [q], desc := q.desc, slot := q.slot, pass := q.pass, mode := d.mode } } := by
  obtain ⟨m, hm, -⟩ := onSlots_eq (f := slotTaken q (x.opPlace q.plane q.nest 2 k)) (P := fun _ => True)
    (fun _ => trivial) (slotCover d.mode q.slot) x
  exact ⟨m, by rw [stepTaken, hm]⟩

section
variable {t n : Nat} {k : Nest} {d : MDesc} {a b c : Nat} {s : State} (h : MmaReady t n k d a b c s)
include h

/-- A step that begins an operation passes its checks (R105, R120, R127). -/
theorem mmaReady_no_fault :
    (if (slotCover d.mode ((s.tile t).opSlot (s.tile t).cfg.plane n k)).any
        (fun u => !((s.tile t).slot u).opened || ((s.tile t).slot u).nest != nkey (s.tile t).cfg.plane n + 1) then
      (s.tile t).opFault (s.tile t).cfg.plane n (((s.tile t).nctl (s.tile t).cfg.plane n).desc % 16)
        ((s.tile t).opSlot (s.tile t).cfg.plane n k) d
    else none) = none := by
  split
  next hb =>
    obtain ⟨hd, hs, hm⟩ := h.check hb
    simp only [Tile.opFault, hd]
    rw [if_neg (by simpa using hs), if_neg (by simpa using hm)]
  next => rfl

/-- No scale byte of the step lies beyond the scratchpad (R262). -/
theorem mmaReady_scales_inside :
    (d.scaleEnds ((s.tile t).accLast (s.tile t).cfg.plane n d k && !d.stateOut) a b c).find? (fun q => q.2 > 2 ^ 20) =
      none := by
  rw [List.find?_eq_none]
  intro q hq
  simpa using h.scales q hq

theorem mmaReady_aligned : (!(s.tile t).skewOk a || !(s.tile t).skewOk b ||
    ((s.tile t).accLast (s.tile t).cfg.plane n d k && !d.stateOut && !(s.tile t).skewOk c)) = false := by
  rw [h.alignA, h.alignB]
  rcases h.alignC with hl | ho | hc
  · simp [hl]
  · simp [ho]
  · simp [hc]

theorem mma_issues : mma t n s =
    nestFired t n k (s.onTile t (stepTaken d (stepToIssue t n k d a b c s) k)) := by
  have hc := h.addrC
  unfold mmaFirst at hc
  simp only [mma, h.ready, ← h.desc, h.free, h.place, h.addrA, h.addrB, hc, mmaReady_scales_inside h,
    mmaReady_no_fault h, mmaReady_aligned h, List.isEmpty_nil, Bool.not_true, Bool.false_eq_true, if_false]
  rfl
end

theorem mmaIssuesItsStep : MmaIssuesItsStep := by
  intro t n k d a b c s h
  refine completes_atTile rfl h.present ?_
  rw [mma_issues h]
  obtain ⟨m, hm⟩ := stepTaken_eq d (stepToIssue t n k d a b c s) k (s.tile t)
  obtain ⟨hloc, hnest, j, g, u, ht⟩ :=
    nestFired_fires (k := k) (f := stepTaken d (stepToIssue t n k d a b c s) k) (unitRuns_of_readyFire h.ready)
      (by rw [hm]) (by rw [hm]) (by rw [hm])
  rw [hm] at ht
  refine ⟨hloc, ⟨stepToIssue t n k d a b c s, ?_, h.desc.symm, rfl, rfl, rfl, rfl, rfl, rfl, rfl, rfl⟩, hnest, ?_⟩
  · rw [ht]
  · rw [ht]
    exact ⟨rfl, rfl, rfl, rfl⟩

/-! ### Operand read and array step (R107 to R112) -/

/-- The tile once the operands of step q have entered a buffer, with the steps `rest` behind it (R108, R109). -/
def operandsRead (q : MtxStep) (rest : List MtxStep) (x : Tile) : Tile :=
  { x with fired := true, mtx := { x.mtx with issued := rest, bufs := x.mtx.bufs ++
      [{ step := q,
         a := x.operand q.d.fa q.d.oa q.d.mxa q.addrA q.d.sa q.d.m q.d.depth,
         b := x.operand q.d.fb q.d.ob q.d.mxb q.addrB q.d.sb 32 q.d.depth }] } }

/-- A step that loads no records is read once a buffer is free and its operands' lines are on (R39, R109). -/
theorem mmaStepRead_reads {t : Nat} {q : MtxStep} {rest : List MtxStep} {s : State}
    (hrun : s.unitRuns t .mtx = true) (hq : (s.tile t).mtx.issued = q :: rest) (hb : (s.tile t).mtx.bufs.length < 2)
    (hload : (q.first && q.d.accIn == 2) = false)
    (hon : ∀ r ∈ operandLines q.d.fa q.d.mxa q.addrA q.d.sa ++ operandLines q.d.fb q.d.mxb q.addrB q.d.sb,
      (s.tile t).linesOn r.1 r.2 = true) :
    mmaStepRead t s = s.onTile t (operandsRead q rest) := by
  have htouch := touchAll_on (t := t) (n := q.nest) (u := .mtx) hon
  simp only [mmaStepRead, hq, hrun, hload, Nat.not_le.mpr hb, htouch, List.nil_append, Bool.not_true,
    Bool.false_and, decide_false, Bool.or_self, Bool.false_eq_true, if_false]
  rfl

/-- The array turns the oldest buffer into rows of block values, and frees it (R109, R112). -/
theorem mmaArrayStep_multiplies {t : Nat} {b : MtxBuf} {rest : List MtxBuf} {s : State}
    (hrun : s.unitRuns t .mtx = true) (hb : (s.tile t).mtx.bufs = b :: rest) :
    mmaArrayStep t s = s.onTile t
      (fun x => { x with fired := true, mtx := { x.mtx with bufs := rest, rows := x.mtx.rows ++ stepRows b } }) := by
  simp only [mmaArrayStep, hb, hrun, Bool.not_true, Bool.false_eq_true, if_false]

theorem matrixStepsAreReadAndMultiplied : MatrixStepsAreReadAndMultiplied := by
  intro t s hp hrun
  constructor
  · intro q rest hq hb hload hon
    refine completes_atTile rfl hp ?_
    rw [mmaStepRead_reads hrun hq hb hload hon, onTile_tile_same]
    exact ⟨onlyTile_onTile .., rfl, rfl, rfl, rfl, rfl⟩
  · intro b rest hb
    refine completes_atTile rfl hp ?_
    rw [mmaArrayStep_multiplies hrun hb, onTile_tile_same]
    exact ⟨onlyTile_onTile .., rfl, rfl, rfl, rfl, rfl⟩

/-- Settles O6: a step that passes MMA's checks is issued, and its nest goes on by a configuration that the engine leaves
alone; a read takes the step from the queue to a buffer, and the array the buffer to rows. -/
theorem matrixStepsIssueAndMultiply : Obligations.MatrixStepsIssueAndMultiply :=
  ⟨mmaIssuesItsStep, matrixStepsAreReadAndMultiplied⟩

end Sys2Proof.Proofs
end
